-- ==== Sys2Proof/Word.lean ====
section
/-! DEFINITION. Words, tags and tagged words (R20, R93, R110, R116), and their plainest arithmetic. -/

namespace Sys2Proof

/-- 32 bits of payload. -/
abbrev Word := BitVec 32

/-- The tag codes the device stores (R116). Codes 0x4 to 0x7, 0x9 to 0xB and 0xD are reserved and never stored (R110). -/
inductive Tag where
  | sample | coef | addr | int | held | invalid | poison | uninit
  deriving DecidableEq, Repr

/-- The 4-bit code of a tag (R116). -/
def Tag.code : Tag → Nat
  | .sample => 0x0
  | .coef => 0x1
  | .addr => 0x2
  | .int => 0x3
  | .held => 0x8
  | .invalid => 0xC
  | .poison => 0xE
  | .uninit => 0xF

/-- The validity rank (R116): POISON > UNINIT > INVALID > HELD > the valid kinds. -/
def Tag.rank : Tag → Nat
  | .held => 1
  | .invalid => 2
  | .uninit => 3
  | .poison => 4
  | _ => 0

/-- A tagged word: payload and tag, 36 bits (R20). -/
structure TWord where
  p : Word
  t : Tag
  deriving DecidableEq, Repr

/-- A stored tagged word with its parity state: `bad` holds when the stored parity bit no longer fits (R101, R205, R399). -/
structure Cell where
  w : TWord
  bad : Bool
  deriving DecidableEq, Repr

/-- A field of a register: the register's device byte address, its lowest bit and its length. -/
structure Fld where
  addr : Nat
  lo : Nat
  len : Nat
  deriving DecidableEq, Repr

/-- Payload 0 with a tag. -/
def TWord.zero (t : Tag) : TWord := ⟨0, t⟩

/-- A payload read as a signed integer (R129). -/
abbrev Word.int (w : Word) : Int := BitVec.toInt w

end Sys2Proof
end

