-- ==== Sys2Proof/Syntax.lean ====
section
/-! DEFINITION. The commands of the device: one constructor per row of the table of operations and events, with the
operands the command carries. What is measured, chosen or sent outside the device (a phase, a frame, a cell, a
temperature, what an external part answers) is an operand. -/

namespace Sys2Proof

/-- A register specifier G of the engine instruction set (the table of register specifiers after R116). -/
inductive GReg where
  | d (i : Fin 16)
  | a (i : Fin 8)
  | m (i : Fin 8)
  | l (i : Fin 8)
  | e (i : Fin 8)
  | ql (n : Fin 4)
  | qh (n : Fin 4)
  | qg (n : Fin 4)
  deriving DecidableEq, Repr

/-- The address mode of an MA field: An; An then updated; An updated first; An updated, An unchanged. -/
inductive MaMode where
  | plain | post | pre | offset
  deriving DecidableEq, Repr

/-- One memory access specifier MA: pointer, modifier and mode. -/
structure Ma where
  n : Fin 8
  m : Fin 8
  mode : MaMode
  deriving DecidableEq, Repr

/-- A tag kind as records and immediates carry it (KIND of R58). -/
inductive Kind where
  | sample | coef | addr | int
  deriving DecidableEq, Repr

/-- Where an instruction word stands: alone, or as operation X or Y of a paired word (R121). -/
inductive Slot where
  | long | x | y
  deriving DecidableEq, Repr

/-- Who issues an operation and in which place. Processors 0 to 63 are the engines ENG0 to ENG63, 64 to 67 the
control cores CC0 to CC3. -/
structure Issue where
  who : Fin 68
  slot : Slot
  deriving DecidableEq, Repr

/-- The second operand of the 0x18 and 0x19 operations: GB, or an immediate with its kind. -/
inductive Src where
  | reg (g : GReg)
  | imm (k : Kind) (v : Word)
  deriving DecidableEq, Repr

/-- A shift count: IMM8, or bits [7:0] of GB (R145). -/
inductive Count where
  | imm (v : BitVec 8)
  | reg (g : GReg)
  deriving DecidableEq, Repr

/-- A bit operand BA with its index register when IX is 1. -/
structure BitRef where
  ba : BitVec 12
  ix : Option (Fin 8)
  deriving DecidableEq, Repr

/-- A requester of register and memory accesses, in the order of R26. -/
inductive Req where
  | loader
  | cc (c : Fin 4)
  | pcie
  | hspi
  deriving DecidableEq, Repr

/-- The width of a host-side access. -/
inductive Width where
  | w8 | w16 | w32 | w64
  deriving DecidableEq, Repr

/-- The bank cycle in which a host-side delay access is placed (R196, R197): a certainly idle one, or, with STEAL, the
owned cycle of rally cycle index `r` (R190). -/
inductive Place where
  | idle
  | stolen (r : Nat)
  deriving DecidableEq, Repr

/-- The trip count of DO (R377): COUNT + 1, or bits [15:0] of GC. -/
inductive DoCount where
  | imm (n : BitVec 12)
  | reg (g : GReg)
  deriving DecidableEq, Repr

/-- A cell of a link frame (R332): type, destination, origin, hops, originator's epoch, payload length, sequence number,
and the 24 payload bytes. -/
structure LyCell where
  ctype : Nat
  dst : Nat
  orig : Nat
  hops : Nat
  oepoch : Nat
  len : Nat
  seq : Nat
  pay : List Nat
  deriving DecidableEq, Repr

/-- The content of a link frame (R329 to R334): whether its CRC matches and DBLK is the number of its data blocks, its DBLK, header,
time block, cells, the slots as 36 bits (payload, then tag code), and the local stamp of its start block. -/
structure LyFrame where
  intact : Bool
  dblk : Nat
  fver : Nat
  src : Nat
  epoch : Nat
  fcnt : Nat
  txtod : Nat
  echo : Nat
  echocnt : Nat
  tdist : Nat
  tstate : Nat
  tlock : Bool
  cells : List LyCell
  slots : List (BitVec 36)
  rxtod : Nat
  deriving DecidableEq, Repr

/-- A 66-bit block of a lane: its sync header and its payload (R322). -/
structure Block66 where
  hdr : BitVec 2
  pay : BitVec 64
  deriving DecidableEq, Repr

/-- Why a unit loses lock (R276). -/
inductive Unlock where
  | range | starve | jump
  deriving DecidableEq, Repr

/-- Why a voltage step fails (R434). -/
inductive VFail where
  | settle | nack | clockLow
  deriving DecidableEq, Repr

/-- What marks a kickoff (R303, R306): the domain's kickoff generator, or the shadow generator of an armed handover,
within one media clock period of its ideal instant or not. -/
inductive KoMark where
  | main
  | shadow (within : Bool)
  deriving DecidableEq, Repr

/-- A configuration request to the PCIe endpoint (R499, R501, R502): the power state, D3hot or D0; the MSI-X enable and
Function Mask; BAR0; Max Payload Size, 256 or 128 bytes; or a read of a word. -/
inductive PcieCfg where
  | power (d3 : Bool)
  | msix (enable mask : Bool)
  | bar0 (v : Word)
  | payload (big : Bool)
  | read (offset : BitVec 12)
  deriving DecidableEq, Repr

/-- The commands (opcode_table.json). -/
inductive Instr where
  -- flow and moves of an engine or control core
  | nop (i : Issue)
  | done (i : Issue)
  | br (i : Issue) (target : Nat)
  | brz (i : Issue) (gc : GReg) (target : Nat)
  | brnz (i : Issue) (gc : GReg) (target : Nat)
  | brlc (i : Issue) (target : Nat)
  | call (i : Issue) (target : Nat)
  | callz (i : Issue) (gc : GReg) (target : Nat)
  | callnz (i : Issue) (gc : GReg) (target : Nat)
  | ret (i : Issue)
  | rep (i : Issue) (count : BitVec 12)
  | tmark (i : Issue) (t : BitVec 12) (target : Nat)
  | mov (i : Issue) (gd ga : GReg)
  | movi (i : Issue) (gd : GReg) (k : Kind) (v : Word)
  | movcRead (i : Issue) (g : GReg) (c : Fin 16)
  | movcWrite (i : Issue) (g : GReg) (c : Fin 16)
  | tagxR (i : Issue) (gd ga : GReg)
  | tagxW (i : Issue) (gd ga : GReg) (imm : BitVec 8)
  | tagxS (i : Issue) (gd ga gb : GReg)
  -- loads, stores and atomics
  | ld (i : Issue) (g1 : GReg) (m1 : Ma) (second : Option (GReg × Ma))
  | st (i : Issue) (g1 : GReg) (m1 : Ma) (second : Option (GReg × Ma))
  | ldst (i : Issue) (g1 : GReg) (m1 : Ma) (g2 : GReg) (m2 : Ma)
  | tas (i : Issue) (g1 : GReg) (m1 : Ma)
  | ldrv (i : Issue) (g1 : GReg) (m1 : Ma)
  | stcn (i : Issue) (g1 : GReg) (m1 : Ma) (g2 : GReg)
  -- arithmetic
  | add (i : Issue) (s : Bool) (gd ga : GReg) (b : Src)
  | sub (i : Issue) (s : Bool) (gd ga : GReg) (b : Src)
  | neg (i : Issue) (s : Bool) (gd ga : GReg)
  | abs (i : Issue) (s : Bool) (gd ga : GReg)
  | min (i : Issue) (gd ga : GReg) (b : Src)
  | max (i : Issue) (gd ga : GReg) (b : Src)
  | cmplt (i : Issue) (gd ga : GReg) (b : Src)
  | cmple (i : Issue) (gd ga : GReg) (b : Src)
  | cmpeq (i : Issue) (gd ga : GReg) (b : Src)
  | addi (i : Issue) (s : Bool) (dd da : Fin 16) (imm : BitVec 16)
  | and (i : Issue) (gd ga gb : GReg)
  | or (i : Issue) (gd ga gb : GReg)
  | xor (i : Issue) (gd ga gb : GReg)
  | not (i : Issue) (gd ga : GReg)
  | shl (i : Issue) (s : Bool) (gd ga : GReg) (k : Count)
  | shra (i : Issue) (s : Bool) (gd ga : GReg) (k : Count)
  | shrl (i : Issue) (gd ga : GReg) (k : Count)
  | mul (i : Issue) (s : Bool) (gd ga gb : GReg)
  | muli (i : Issue) (s : Bool) (gd ga gb : GReg)
  | div (i : Issue) (s : Bool) (gd ga gb : GReg)
  | divi (i : Issue) (s : Bool) (gd ga gb : GReg)
  | divisionResult (n : Fin 68)
  | maxi (i : Issue) (gd : Fin 16) (an am : Fin 8)
  | mini (i : Issue) (gd : Fin 16) (an am : Fin 8)
  -- accumulators
  | qmac (i : Issue) (s : Bool) (m1 : Ma) (dk : Fin 16) (second : Option (Fin 16 × Ma))
  | qmacRt (i : Issue) (s : Bool) (m1 : Ma) (dk : Fin 16) (second : Option (Fin 16 × Ma))
  | qmsb (i : Issue) (s : Bool) (m1 : Ma) (dk : Fin 16) (second : Option (Fin 16 × Ma))
  | qmsbRt (i : Issue) (s : Bool) (m1 : Ma) (dk : Fin 16) (second : Option (Fin 16 × Ma))
  | qext (i : Issue) (s : Bool) (gd : GReg) (qa : Fin 4) (k : BitVec 8)
  | qclr (i : Issue) (qd : Fin 4)
  | qld (i : Issue) (qd : Fin 4) (ga : GReg)
  | qadd (i : Issue) (s : Bool) (qd qa qb : Fin 4)
  | qsub (i : Issue) (s : Bool) (qd qa qb : Fin 4)
  | qshl (i : Issue) (s : Bool) (qd qa : Fin 4) (k : BitVec 8)
  | qshra (i : Issue) (s : Bool) (qd qa : Fin 4) (k : BitVec 8)
  -- bit operations
  | bset (i : Issue) (b : BitRef)
  | bclr (i : Issue) (b : BitRef)
  | btgl (i : Issue) (b : BitRef)
  | btst (i : Issue) (gd : GReg) (b : BitRef)
  | bmovFromBit (i : Issue) (b : BitRef) (bb : BitVec 12)
  | bmovFromRegister (i : Issue) (b : BitRef) (gd : GReg)
  | band (i : Issue) (gd : GReg) (b : BitRef) (bb : BitVec 12)
  | bor (i : Issue) (gd : GReg) (b : BitRef) (bb : BitVec 12)
  | bitTas (i : Issue) (gd : GReg) (b : BitRef)
  -- Spin operations and landings
  | spinIssue (i : Issue) (ga : GReg) (prog : Fin 8)
  | spinGet (i : Issue) (gd : GReg) (prog : Fin 8)
  | spinXg (i : Issue) (gd ga : GReg) (prog : Fin 8)
  | spinResult (unit : Fin 16)
  | loadResult (n : Fin 68)
  | illegalWord (i : Issue)
  -- control cores
  | wait (c : Fin 4)
  | waitResume (c : Fin 4)
  | reti (c : Fin 4)
  | doLoop (c : Fin 4) (n : DoCount) (target : Nat)
  | ldw (c : Fin 4) (q : Fin 4) (m1 : Ma)
  | stw (c : Fin 4) (q : Fin 4) (m1 : Ma)
  | interruptEntry (c : Fin 4)
  -- kickoffs and rallies
  | kickoffMark (k : Fin 4) (m : KoMark)
  | engineKickoff (k : Fin 4)
  | overrunLen (n : Fin 64)
  | rallyStart (k : Fin 4)
  | frameResolve (k : Fin 4) (tods : List Nat)
  -- serial audio ports, rate converters, Whistle
  | sapFrameBoundary (n : Fin 32) (len phase ready : Nat) (sent : Bool) (zeroFrom : Nat)
  | sapRxFrameEnd (n : Fin 32) (len : Nat) (ws : List Word)
  | sapClockLoss (n : Fin 32)
  | asrcLock (u : Fin 8) (ratio : Word)
  | asrcUnlock (u : Fin 8) (why : Unlock) (ratio : Word)
  | whistleAssert
  | whistleRelease
  -- structure records and loads
  | writeRecord (path : Fin 3) (ws : List Word)
  | fillRecord (path : Fin 3) (ws : List Word)
  | tableRecord (path : Fin 3) (ws : List Word)
  | programRecord (path : Fin 3) (ws : List Word)
  | commitRecord (path : Fin 3) (ws : List Word)
  | endRecord (path : Fin 3) (ws : List Word)
  | regionQuiesced (r : BitVec 12)
  | ldrGo (q : Req) (v : Word)
  | ldrAbort (q : Req) (v : Word)
  | commandedLoadEnd
  | queue0GapTimeout
  -- register and memory accesses
  | registerWrite (q : Req) (addr : Word) (w : Width) (v : BitVec 64)
  | readClear (q : Req) (addr : Word) (w : Width)
  | wLowRead (q : Req) (addr : Word)
  | wLowWrite (q : Req) (addr v : Word)
  | wHighWrite (q : Req) (addr v : Word)
  | mediaWriteComplete (addr : Word)
  | aonWriteComplete (addr : Word)
  | engineRegisterWrite (q : Req) (n : Fin 64) (offset : BitVec 11) (v : Word)
  | engTagctlWrite (q : Req) (n : Fin 64) (v : Word)
  | localDataHostAccess (q : Req) (n : Fin 64) (offset : BitVec 18) (w : Width) (v : Option (BitVec 64))
  | programBankHostWrite (q : Req) (n : Fin 64) (shadow : Bool) (offset : BitVec 16) (w : Width) (v : BitVec 64)
  | groupWindowWrite (q : Req) (g : Fin 64) (offset : BitVec 20) (w : Width) (v : BitVec 64)
  | delayHostAccess (q : Req) (addr : BitVec 28) (w : Width) (v : Option (BitVec 64)) (place : Place)
  | aliasAtomicAdd (q : Req) (offset : BitVec 26) (w : Width) (v : Word)
  | aliasAtomicSwap (q : Req) (offset : BitVec 26) (w : Width) (v : Word)
  | aliasBitSet (q : Req) (offset : BitVec 26) (w : Width) (v : Word)
  | aliasBitClear (q : Req) (offset : BitVec 26) (w : Width) (v : Word)
  | tagViewWrite (q : Req) (offset : BitVec 24) (w : Width) (v : Word)
  | dlyBankpwrWrite (q : Req) (k : Fin 8) (v : Word)
  | bankTransitionDone (b : Fin 128) (lost : List (Fin 4 × Cell))
  | bankSweepDone (b : Fin 128)
  -- route, mix and Guard registers
  | routeChgWrite (q : Req) (v : Word)
  | routeGo (q : Req) (v : Word)
  | routeDiscard (q : Req) (v : Word)
  | routeBypselWrite (q : Req) (v : Word)
  | genSineWrite (q : Req) (g : Fin 16) (v : BitVec 64)
  | genNoiseWrite (q : Req) (g : Fin 16) (v : BitVec 64)
  | mixXpcmdWrite (q : Req) (m : Fin 16) (v : BitVec 64)
  | mixGo (q : Req) (m : Fin 16) (v : Word)
  | mixDiscard (q : Req) (m : Fin 16) (v : Word)
  | sapUnmute (q : Req) (n : Fin 32)
  | guardRtWrite (q : Req) (addr : Word) (v : Word)
  | guardWdrel (q : Req)
  | wdogKickWrite (q : Req) (v : Word)
  | wdogCtlWrite (q : Req) (v : Word)
  | watchdogExpiry
  -- control cores, events, queues
  | ccRun (q : Req) (c : Fin 4)
  | ccReset (q : Req) (c : Fin 4)
  | evtSwtrigWrite (q : Req) (v : Word)
  | evtRouteWrite (q : Req) (e : Fin 512) (v : Word)
  | evtMsixackWrite (q : Req) (v : Word)
  | eventDelivery (e : Fin 512)
  | quePortRead (q : Req) (k : Fin 256)
  | quePortWrite (q : Req) (k : Fin 256) (v : Word)
  | quePushWrite (q : Req) (k : Fin 256) (v : Word)
  | queFlush (q : Req) (v : Word)
  | queueCrossingEntry (k : Fin 256)
  -- PLLs, handovers, time
  | clkMtgtWrite (q : Req) (m : Fin 4) (v : Word)
  | clkMctlWrite (q : Req) (m : Fin 4) (v : Word)
  | handoverArm (q : Req) (k : Fin 4) (v : BitVec 64)
  | pllLock (j : Fin 6)
  | pllLockTimeout (j : Fin 6)
  | pllLossOfLock (j : Fin 6)
  | timeStepWrite (q : Req) (v : BitVec 64)
  | timeCtlWrite (q : Req) (v : Word)
  | timeFreqWrite (q : Req) (v : Word)
  | ppsInEdge (ts : Nat)
  | wclkInEdge (pin : Fin 2) (ts : Nat)
  | holdoverTimeout
  | aonCalibrationWindow
  | ppsOutPulse
  -- links
  | linkSignalDetect (n : Fin 8)
  | cdrLock (n : Fin 8)
  | blockLock (n : Fin 8)
  | trainingSetRx (n : Fin 8) (d1 d2 d3 : BitVec 8)
  | rateChangeDone (n : Fin 8)
  | rateFallback (n : Fin 8)
  | linkTrainTimeout (n : Fin 8)
  | linkHiber (n : Fin 8) (lockLoss : Bool)
  | linkRetrain (q : Req) (n : Fin 8) (v : Word)
  | lyathFrameRx (n : Fin 8) (bs : List Block66) (rxtod : Nat)
  | linkMapdataWrite (q : Req) (n : Fin 8) (v : Word)
  -- the fabric network
  | hello (n : Fin 8)
  | lsa (n : Fin 8)
  | captain (n : Fin 8)
  | grant (n : Fin 8)
  | runReq (n : Fin 8)
  | runAck (n : Fin 8)
  | runNak (n : Fin 8)
  | runTear (n : Fin 8)
  | user (n : Fin 8)
  | fabRejoin (q : Req) (v : Word)
  | isolatedRejoin
  | adjacencyDead (n : Fin 8)
  | helloKeepalive (n : Fin 8)
  | endOfQuiet
  | grantDeadline
  | tombstoneCreate (uid : BitVec 64)
  | tombstoneExpiry (uid : BitVec 64)
  | lsaReflood
  | runSetup (q : Req) (v : BitVec 64)
  | runTeardown (q : Req) (v : BitVec 64)
  | runTimeout (r : BitVec 8)
  | fabricGateOpen
  -- Coach, operating points, power
  | coachDecision (link sap : Nat)
  | thermalSensorConversion (raw : List Int)
  | dvfsOppRequest (q : Req) (level : BitVec 2)
  | dvfsVoltageRequest (q : Req) (level : BitVec 2)
  | dvfsFrequencyRequest (q : Req) (level : BitVec 2)
  | voltageConfirm (mv : Nat)
  | voltageStepFail (why : VFail) (status : BitVec 16)
  | pwrModeWrite (q : Req) (v : Word)
  | pwrVoteWrite (q : Req) (k : Fin 32) (v : Word)
  | domainIdleTimeout (n : Fin 13)
  | domainDownTimeout (n : Fin 13)
  | domainWakeDone (n : Fin 13)
  | pwrEnter (q : Req) (v : Word)
  | deviceTimerExpiry
  | entryCommitPoint (a0 : Nat)
  | wakeNAssert
  | senseCrossing (k : Fin 4) (mv : Nat)
  | linkSquelchWake (n : Fin 8)
  | hspiCsWake
  | pcieL1Exit
  | perstNRise
  | perstNFall
  | aonAlarm
  | pmbAlert (status : Option (BitVec 16))
  | exitComplete (a1 : Nat) (lost : List (Fin 128 × Fin 4 × Cell))
  | offWakeBoot (sel : Fin 4) (a1 : Nat)
  | padRelease (q : Req) (v : BitVec 64)
  -- reset and boot
  | vddAonPowerOn (sel : Fin 4) (tamper : Bool)
  | resetNAssert
  | resetNRise (sel : Fin 4)
  | loadBegin
  | slotHeaderRead (slot : Fin 2) (ws : List Word)
  | blockReadDone (ws : List Word) (early : Bool)
  | recordsBlock
  | memoryBlock
  | startBlock
  | loaderGateOpen
  | hostPushTimeout
  -- live service
  | subArm (q : Req) (v : BitVec 64)
  | subCopyDone
  | subAbort (q : Req) (v : Word)
  | subReadmit (q : Req) (v : Word)
  | fspiXcmdGo (q : Req) (v : Word)
  | fspiCommandDone (bytes : List (BitVec 8))
  | bootActGo (q : Req) (v : Word)
  | partitionWrite (q : Req) (offset : BitVec 16) (v : Word)
  | lcAdvanceWrite (q : Req) (v : Word)
  | tamperAssert
  | partitionWipeDone
  -- host interfaces
  | hspiWrite (bits : Nat) (addr : Word) (ws : List Word)
  | hspiRead (bits : Nat) (addr : Word) (onTime : List Bool)
  | hspiStatus (bits : Nat) (addr : Word)
  | hspiQread (bits : Nat) (addr : Word)
  | hspiFetch (bits : Nat) (addr : Word)
  | hspiReservedFrame (bits : Nat) (addr : Word)
  | hspiPostedAccess
  | cspiGo (q : Req) (v : Word)
  | cspiDone (rx : List Word)
  | cspiTxWrite (q : Req) (v : Word)
  | cspiRxRead (q : Req)
  | pcieMemoryWrite (addr : Word) (ws : List (Word × BitVec 4))
  | pcieMemoryRead (addr : Word) (len : Nat)
  | pcieUnsupportedRequest
  | pciePoisonedWrite
  | pcieLinkChange (up : Bool) (speed width pstate : BitVec 2)
  | pcieConfigurationRequest (c : PcieCfg)
  | membusyNPulseEnd
  | ppsOutFall
  | gpioInputChange (k : Fin 32) (level : Bool)
  | ts2Sent (n : Fin 8)
  | vddAonRemoval
  deriving DecidableEq, Repr

end Sys2Proof
end

