-- ==== Sys2Proof/Config.lean ====
section
/-! DEFINITION. The values the spec leaves open, as constants without a body: nothing can be proved of what they are.
Each is applied to a counter of the state that names the use, or to the operands it depends on. -/

namespace Sys2Proof.Config

/-- A word the spec leaves undefined: the payload of a read that collides with an engine write (R197), and the like. -/
opaque freeWord : Nat → Word

/-- A 4-bit tag code the spec leaves undefined (R197). -/
opaque freeTag : Nat → BitVec 4

/-- A choice of the hardware the spec leaves undetermined (R17, R526). -/
opaque freeBool : Nat → Bool

/-- The 48-bit sum of a rate converter's filter (R275): the spec gives the limits it meets and not its coefficients. It is a
function of the samples in the span, newest first, of the unit's ratio and of the output's number. -/
opaque asrcSum : List Word → Word → Nat → BitVec 48

/-- The fraction bits that the rate converter's sum has below those of its output (R275). -/
opaque asrcFrac : Nat

/-- Word `b` of the band table of PLL `j` in ROM (R297), whose contents the spec does not list. -/
opaque romBand : Nat → Nat → Word

end Sys2Proof.Config
end

