-- ==== Sys2Proof/Machine/Flags.lean ====
section
/-! DEFINITION. Narrowing with its status bits (R130), shifts (R145), division (R146), and the tag of a result (R116,
R132, R133). -/

namespace Sys2Proof.Machine

/-- A narrowed result: its value and the status bits the narrowing sets. -/
structure Narrowed where
  r : Int
  v : Bool
  sat : Bool
  deriving DecidableEq, Repr

/-- An exact result narrowed to `w` bits (R130): `s` saturates, otherwise the value wraps. -/
def narrow (w : Nat) (s : Bool) (r : Int) : Narrowed :=
  if -(2 ^ (w - 1) : Int) ≤ r ∧ r ≤ 2 ^ (w - 1) - 1 then ⟨r, false, false⟩
  else if s then ⟨if 0 < r then 2 ^ (w - 1) - 1 else -(2 ^ (w - 1)), false, true⟩
  else ⟨r.bmod (2 ^ w), true, false⟩

/-- A result that cannot overflow. -/
def exact (r : Int) : Narrowed := ⟨r, false, false⟩

/-- SHL by a count of 0 to 128 over width `w` (R145): narrowed under R130; a count of the width or more gives 0 with V,
or full scale of the operand's sign, unless the operand is 0. -/
def shlNat (w : Nat) (s : Bool) (a : Int) (k : Nat) : Narrowed :=
  if k < w then narrow w s (a * 2 ^ k)
  else if a = 0 then exact 0
  else if s then ⟨if 0 < a then 2 ^ (w - 1) - 1 else -(2 ^ (w - 1)), false, true⟩
  else ⟨0, true, false⟩

/-- SHRA by a count of 0 to 128 (R145): the floor of the quotient, so the sign fills. -/
def shraNat (a : Int) (k : Nat) : Narrowed := exact (a / 2 ^ k)

/-- SHL by a signed count over width `w` (R145). -/
def shlSigned (w : Nat) (s : Bool) (a : Int) (k : Int) : Narrowed :=
  if 0 ≤ k then shlNat w s a k.toNat else shraNat a (-k).toNat

/-- SHRA by a signed count over width `w` (R145). -/
def shraSigned (w : Nat) (s : Bool) (a : Int) (k : Int) : Narrowed :=
  if 0 ≤ k then shraNat a k.toNat else shlNat w s a (-k).toNat

/-- SHRL by a signed count over 32 bits (R145): zeros enter on either side. -/
def shrlSigned (a : Word) (k : Int) : Word :=
  if 0 ≤ k then (if k.toNat < 32 then a >>> k.toNat else 0)
  else if (-k).toNat < 32 then a <<< (-k).toNat else 0

/-- The quotient of a division and its status bits (R146). `frac` is DIV, otherwise DIVI. -/
structure Quotient where
  n : Narrowed
  dz : Bool
  deriving DecidableEq, Repr

/-- The result of DIV or DIVI (R146, R155): a division by zero gives full scale of the dividend's sign and DZ. -/
def divide (frac s : Bool) (a b : Int) : Quotient :=
  if b = 0 then
    ⟨exact (if 0 < a then 2 ^ 31 - 1 else if a < 0 then -(2 ^ 31) else 0), true⟩
  else ⟨narrow 32 s (Int.fdiv (if frac then a * 2 ^ 31 else a) b), false⟩

/-- The columns of the kind table (R133). -/
inductive KindRule where
  | add | sub | logic | mul | cmp
  deriving DecidableEq, Repr

/-- The kind of a result from two valid operand kinds; none is a type-check failure (R133). -/
def kindOf (rule : KindRule) (a b : Tag) : Option Tag :=
  match rule with
  | .cmp => some .int
  | _ =>
    if a = .addr ∧ b = .addr then
      match rule with
      | .sub => some .int
      | .logic => some .addr
      | _ => none
    else if a = .addr then
      if b = .int then
        match rule with
        | .mul => none
        | _ => some .addr
      else none
    else if b = .addr then
      if a = .int then
        match rule with
        | .add => some .addr
        | .logic => some .addr
        | _ => none
      else none
    else if a = .sample ∨ b = .sample then some .sample
    else if a = .coef ∨ b = .coef then some .coef
    else some .int

/-- The worse of two tags by rank, when either has a rank above 0 (R116). -/
def worst (a b : Tag) : Option Tag :=
  if a.rank = 0 ∧ b.rank = 0 then none
  else if b.rank ≤ a.rank then some a else some b

/-- The tag of a result, and whether FAULT.TAG is set (R116, R133): a failure under CHK gives POISON, otherwise INT. -/
def tagOr (chk : Bool) (k : Option Tag) : Tag × Bool :=
  match k with
  | some t => (t, false)
  | none => if chk then (.poison, true) else (.int, false)

/-- The tag of a result with two counted operands (R116, R132, R133). -/
def tag2 (chk : Bool) (rule : KindRule) (a b : Tag) : Tag × Bool :=
  match worst a b with
  | some t => (t, false)
  | none => tagOr chk (kindOf rule a b)

/-- The tag of a product accumulated into an accumulator: three counted operands, and any ADDR among them fails
(R132, R133). -/
def tag3 (chk : Bool) (a b c : Tag) : Tag × Bool :=
  match worst a b with
  | some t => ((worst t c).getD t, false)
  | none =>
    match worst a c with
    | some t => (t, false)
    | none =>
      if a = .addr ∨ b = .addr ∨ c = .addr then tagOr chk none
      else if a = .sample ∨ b = .sample ∨ c = .sample then (.sample, false)
      else if a = .coef ∨ b = .coef ∨ c = .coef then (.coef, false)
      else (.int, false)

/-- The tag of a comparison: the rank of R116 still follows the operands, the kind is INT (R144). -/
def tagCmp (a b : Tag) : Tag := (worst a b).getD .int

/-- The tag a 4-bit code is stored as: a reserved code stores POISON (R110). -/
def tagOfCode (c : Nat) : Tag :=
  match c with
  | 0x0 => .sample
  | 0x1 => .coef
  | 0x2 => .addr
  | 0x3 => .int
  | 0x8 => .held
  | 0xC => .invalid
  | 0xF => .uninit
  | _ => .poison

/-- The tag of a record or immediate KIND (R58). -/
def kindTag : Kind → Tag
  | .sample => .sample
  | .coef => .coef
  | .addr => .addr
  | .int => .int

end Sys2Proof.Machine
end

