-- ==== Sys2Proof/Machine/RegMap.lean ====
section
/-! DEFINITION. The register map: every register of the spec's register tables by its device byte address
(R504), with its instances, its reset value and the masks of its access codes (R5), and one name per field.
Written from the register tables of spec/ (the file and rule of each register stand in INVENTORY.md, under State). -/

namespace Sys2Proof.Machine

/-- One register of the spec's tables (R5, R29): the byte address of its first instance, two strides and counts of
instances, whether it is a W register of 64 bits, its reset value, and the bits of each access code. A bit under
no mask is RO or reserved (R7). -/
structure RegRow where
  base : Nat
  s1 : Nat
  n1 : Nat
  s2 : Nat
  n2 : Nat
  wide : Bool
  reset : Nat
  rw : Nat
  wo : Nat
  w1c : Nat
  w1s : Nat
  rc : Nat
  rt : Nat
  deriving DecidableEq, Repr

/-! ### Addresses -/

def Adr.SYS_REJECT : Nat := 0x1C000100
def Adr.SYS_REJECT_ADDR : Nat := 0x1C000104
def Adr.SYS_VARIANT : Nat := 0x1C000010
def Adr.SYS_BANKMAP0 : Nat := 0x1C000020
def Adr.SYS_BANKMAP1 : Nat := 0x1C000024
def Adr.SYS_BANKMAP2 : Nat := 0x1C000028
def Adr.SYS_BANKMAP3 : Nat := 0x1C00002C
def Adr.SYS_BANKGRP : Nat := 0x1C000030
def Adr.SYS_UID : Nat := 0x1C000038
def Adr.SYS_ABSENT : Nat := 0x1C000110
def Adr.SYS_ABSENT_ADDR : Nat := 0x1C000114
def Adr.S_RGN_ID (r : Nat) : Nat := 0x1F000000 + 0x1000 * r + 0
def Adr.S_RGN_SIZE (r : Nat) : Nat := 0x1F000000 + 0x1000 * r + 4
def Adr.S_RGN_STATE (r : Nat) : Nat := 0x1F000000 + 0x1000 * r + 8
def Adr.S_RGN_POLICY (r : Nat) : Nat := 0x1F000000 + 0x1000 * r + 0xC
def Adr.S_RGN_LOADCNT (r : Nat) : Nat := 0x1F000000 + 0x1000 * r + 0x10
def Adr.S_RGN_RESUMED (r : Nat) : Nat := 0x1F000000 + 0x1000 * r + 0x14
def Adr.LDR_CTL : Nat := 0x1C010400
def Adr.LDR_SRC : Nat := 0x1C010404
def Adr.LDR_LEN : Nat := 0x1C010408
def Adr.LDR_STAT : Nat := 0x1C01040C
def Adr.LDR_POS : Nat := 0x1C010410
def Adr.LDR_Q0TIMEOUT : Nat := 0x1C010414
def Adr.COMMIT_STAT : Nat := 0x1C010418
def Adr.COMMIT_LATE : Nat := 0x1C01041C
def Adr.ENG_PC (n : Nat) : Nat := 0x10060200 + 0x100000 * n
def Adr.ENG_RSP (n : Nat) : Nat := 0x10060204 + 0x100000 * n
def Adr.ENG_LC (n : Nat) : Nat := 0x10060208 + 0x100000 * n
def Adr.ENG_STAT (n : Nat) : Nat := 0x1006020C + 0x100000 * n
def Adr.ENG_ENGID (n : Nat) : Nat := 0x10060210 + 0x100000 * n
def Adr.ENG_TAGCTL (n : Nat) : Nat := 0x10060214 + 0x100000 * n
def Adr.ENG_FAULT (n : Nat) : Nat := 0x10060218 + 0x100000 * n
def Adr.ENG_TIER (n : Nat) : Nat := 0x1006021C + 0x100000 * n
def Adr.ENG_KOCNT (n : Nat) : Nat := 0x10060220 + 0x100000 * n
def Adr.S_ENG.PASSLEN0 (r : Nat) : Nat := 0x1F000000 + 0x1000 * r + 0x40
def Adr.S_ENG.PASSLEN1 (r : Nat) : Nat := 0x1F000000 + 0x1000 * r + 0x44
def Adr.S_ENG.PASSLEN2 (r : Nat) : Nat := 0x1F000000 + 0x1000 * r + 0x48
def Adr.S_ENG.PASSLEN3 (r : Nat) : Nat := 0x1F000000 + 0x1000 * r + 0x4C
def Adr.S_ENG.COEFWIN (r : Nat) : Nat := 0x1F000000 + 0x1000 * r + 0x50
def Adr.S_ENG.IOBASE (r : Nat) : Nat := 0x1F000000 + 0x1000 * r + 0x54
def Adr.S_ENG.CTL (r : Nat) : Nat := 0x1F000000 + 0x1000 * r + 0x58
def Adr.ENG_USED (n : Nat) : Nat := 0x10060224 + 0x100000 * n
def Adr.ENG_USEDMAX (n : Nat) : Nat := 0x10060228 + 0x100000 * n
def Adr.ENG_OVRCNT (n : Nat) : Nat := 0x1006022C + 0x100000 * n
def Adr.ENG_GROUPMASK (g : Nat) : Nat := 0x1C000800 + 8 * g
def Adr.S_DLY.CTL (r : Nat) : Nat := 0x1F000000 + 0x1000 * r + 0x40
def Adr.DLY_CTL : Nat := 0x1C120000
def Adr.DLY_BANKPWR (k : Nat) : Nat := 0x1C120010 + 4 * k
def Adr.DLY_BANKRDY (k : Nat) : Nat := 0x1C120030 + 4 * k
def Adr.DLY_OLD : Nat := 0x1C120040
def Adr.DLY_OLDTAG : Nat := 0x1C120044
def Adr.MEM_STAT : Nat := 0x1C120050
def Adr.MEM_COLL_ADDR : Nat := 0x1C120054
def Adr.DLY_PARSTAT : Nat := 0x1C120060
def Adr.DLY_PAR_ADDR : Nat := 0x1C120064
def Adr.DLY_SLOTERR : Nat := 0x1C120070
def Adr.DLY_OFFACC : Nat := 0x1C120074
def Adr.SPIN_STAT (u : Nat) : Nat := 0x1C0D0000 + 0x100 * u
def Adr.SPIN_RDADDR (u : Nat) : Nat := 0x1C0D0004 + 0x100 * u
def Adr.SPIN_RDDATA (u : Nat) : Nat := 0x1C0D0008 + 0x100 * u
def Adr.SPIN_RDTAG (u : Nat) : Nat := 0x1C0D000C + 0x100 * u
def Adr.S_ROUTE.MTRCTL (r : Nat) : Nat := 0x1F000000 + 0x1000 * r + 0x40
def Adr.S_ROUTE.MTRDOM (r : Nat) : Nat := 0x1F000000 + 0x1000 * r + 0x44
def Adr.S_ROUTE.MTRQ (r k : Nat) : Nat := 0x1F000000 + 0x1000 * r + 0x48 + 4 * k
def Adr.S_ROUTE.TFADE (r g : Nat) : Nat := 0x1F000000 + 0x1000 * r + 0x60 + 4 * g
def Adr.S_ROUTE.NDESC (r : Nat) : Nat := 0x1F000000 + 0x1000 * r + 0x58
def Adr.S_ROUTE.DESC (r d : Nat) : Nat := 0x1F000000 + 0x1000 * r + 0x480 + 8 * d
def Adr.S_MIX.CTL (r : Nat) : Nat := 0x1F000000 + 0x1000 * r + 0x40
def Adr.ROUTE_CTL : Nat := 0x1C050000
def Adr.ROUTE_APPLYKO : Nat := 0x1C050004
def Adr.ROUTE_CHG : Nat := 0x1C050008
def Adr.ROUTE_STAGE : Nat := 0x1C05000C
def Adr.ROUTE_RDSINK : Nat := 0x1C050010
def Adr.ROUTE_RDSEL : Nat := 0x1C050014
def Adr.ROUTE_RDPOS : Nat := 0x1C050018
def Adr.ROUTE_XFPROF (j : Nat) : Nat := 0x1C050020 + 4 * j
def Adr.ROUTE_BYPIDX : Nat := 0x1C050030
def Adr.ROUTE_BYPSEL : Nat := 0x1C050034
def Adr.MTR_RDSEL : Nat := 0x1C050040
def Adr.MTR_PEAK : Nat := 0x1C050044
def Adr.MTR_RMS : Nat := 0x1C050048
def Adr.MTR_TAG : Nat := 0x1C05004C
def Adr.ROUTE_CONST (g : Nat) : Nat := 0x1C050100 + 8 * g
def Adr.GEN_SINE (g : Nat) : Nat := 0x1C050200 + 8 * g
def Adr.GEN_NOISE (g : Nat) : Nat := 0x1C050280 + 8 * g
def Adr.MIX_CTL (m : Nat) : Nat := 0x1C060000 + 0x1000 * m
def Adr.MIX_APPLYKO (m : Nat) : Nat := 0x1C060004 + 0x1000 * m
def Adr.MIX_XPCMD (m : Nat) : Nat := 0x1C060008 + 0x1000 * m
def Adr.MIX_STAT (m : Nat) : Nat := 0x1C060010 + 0x1000 * m
def Adr.MIX_XPRD (m : Nat) : Nat := 0x1C060014 + 0x1000 * m
def Adr.MIX_XPCUR (m : Nat) : Nat := 0x1C060018 + 0x1000 * m
def Adr.MIX_XPTGT (m : Nat) : Nat := 0x1C06001C + 0x1000 * m
def Adr.MIX_RAMP (m j : Nat) : Nat := 0x1C060020 + 0x1000 * m + 4 * j
def Adr.MIX_LIM (m o : Nat) : Nat := 0x1C060100 + 0x1000 * m + 8 * o
def Adr.MIX_GR (m o : Nat) : Nat := 0x1C060300 + 0x1000 * m + 4 * o
def Adr.S_SAP.FORMAT (r : Nat) : Nat := 0x1F000000 + 0x1000 * r + 0x40
def Adr.S_SAP.CLK (r : Nat) : Nat := 0x1F000000 + 0x1000 * r + 0x44
def Adr.S_SAP.RXEN (r : Nat) : Nat := 0x1F000000 + 0x1000 * r + 0x48
def Adr.S_SAP.TXEN (r : Nat) : Nat := 0x1F000000 + 0x1000 * r + 0x4C
def Adr.S_SAP.OUTCTL (r : Nat) : Nat := 0x1F000000 + 0x1000 * r + 0x50
def Adr.S_SAP.DSEED (r : Nat) : Nat := 0x1F000000 + 0x1000 * r + 0x54
def Adr.S_SAP.QUEUE (r : Nat) : Nat := 0x1F000000 + 0x1000 * r + 0x58
def Adr.S_ASRC.IN (r u : Nat) : Nat := 0x1F000000 + 0x1000 * r + 0x40 + 8 * u
def Adr.S_ASRC.OUT (r u : Nat) : Nat := 0x1F000000 + 0x1000 * r + 0x44 + 8 * u
def Adr.SAP_CTL (n : Nat) : Nat := 0x1C090000 + 0x800 * n
def Adr.SAP_STAT (n : Nat) : Nat := 0x1C090004 + 0x800 * n
def Adr.SAP_PHASE (n : Nat) : Nat := 0x1C090008 + 0x800 * n
def Adr.SAP_CONCEAL (n : Nat) : Nat := 0x1C09000C + 0x800 * n
def Adr.ASRC_STAT (u : Nat) : Nat := 0x1C0A0000 + 0x10 * u
def Adr.ASRC_RATIO (u : Nat) : Nat := 0x1C0A0004 + 0x10 * u
def Adr.GUARD_CEIL (c : Nat) : Nat := 0x1C070000 + 0x20 * c
def Adr.GUARD_SLEW (c : Nat) : Nat := 0x1C070004 + 0x20 * c
def Adr.GUARD_DCTHR (c : Nat) : Nat := 0x1C070008 + 0x20 * c
def Adr.GUARD_THLIM (c : Nat) : Nat := 0x1C07000C + 0x20 * c
def Adr.GUARD_THW (c : Nat) : Nat := 0x1C070010 + 0x20 * c
def Adr.GUARD_TC (c : Nat) : Nat := 0x1C070014 + 0x20 * c
def Adr.GUARD_CHSTAT (c : Nat) : Nat := 0x1C078000 + 0x10 * c
def Adr.GUARD_THG (c : Nat) : Nat := 0x1C078004 + 0x10 * c
def Adr.GUARD_THETA (c : Nat) : Nat := 0x1C078008 + 0x10 * c
def Adr.GUARD_CTL : Nat := 0x1C07C000
def Adr.GUARD_WDOG : Nat := 0x1C07C004
def Adr.GUARD_STAT : Nat := 0x1C07C008
def Adr.GUARD_LOOSEN_ADDR : Nat := 0x1C07C00C
def Adr.GUARD_TRIPCNT : Nat := 0x1C07C010
def Adr.S_CLK.REF (r : Nat) : Nat := 0x1F000000 + 0x1000 * r + 0x40
def Adr.S_CLK.CTRL (r : Nat) : Nat := 0x1F000000 + 0x1000 * r + 0x44
def Adr.S_CLK.TIME (r : Nat) : Nat := 0x1F000000 + 0x1000 * r + 0x48
def Adr.S_CLK.LOOP (r j : Nat) : Nat := 0x1F000000 + 0x1000 * r + 0x50 + 4 * j
def Adr.S_CLK.MPLL (r m : Nat) : Nat := 0x1F000000 + 0x1000 * r + 0x68 + 4 * m
def Adr.S_CLK.RATE (r k : Nat) : Nat := 0x1F000000 + 0x1000 * r + 0x78 + 8 * k
def Adr.CLK_PLLSTAT (j : Nat) : Nat := 0x1C020000 + 4 * j
def Adr.CLK_MCTL (m : Nat) : Nat := 0x1C020020 + 4 * m
def Adr.CLK_MTGT (m : Nat) : Nat := 0x1C020030 + 4 * m
def Adr.CLK_HO (k : Nat) : Nat := 0x1C020040 + 8 * k
def Adr.CLK_HOKO (k : Nat) : Nat := 0x1C020060 + 4 * k
def Adr.CLK_HOSTAT : Nat := 0x1C020070
def Adr.CLK_WCLKOUT (w : Nat) : Nat := 0x1C020080 + 4 * w
def Adr.CLK_PPSOUT : Nat := 0x1C020090
def Adr.TIME_CTL : Nat := 0x1C0C0000
def Adr.TIME_LOCKPAR : Nat := 0x1C0C0004
def Adr.TIME_STAT : Nat := 0x1C0C0008
def Adr.TIME_PHERR : Nat := 0x1C0C000C
def Adr.TIME_TOD : Nat := 0x1C0C0010
def Adr.TIME_TODFRAC : Nat := 0x1C0C0018
def Adr.TIME_STEP : Nat := 0x1C0C0020
def Adr.TIME_FREQ : Nat := 0x1C0C0028
def Adr.TIME_REFOFS : Nat := 0x1C0C002C
def Adr.TIME_SC (k : Nat) : Nat := 0x1C0C0030 + 8 * k
def Adr.TIME_AON : Nat := 0x1C0C0050
def Adr.TIME_AONCAL : Nat := 0x1C0C0058
def Adr.TIME_AONQ : Nat := 0x1C0C005C
def Adr.TIME_WAKE_UNC : Nat := 0x1C0C0060
def Adr.TIME_WAKEDELTA : Nat := 0x1C0C0068
def Adr.S_LINK.CTL (r : Nat) : Nat := 0x1F000000 + 0x1000 * r + 0x40
def Adr.S_LINK.EQ (r : Nat) : Nat := 0x1F000000 + 0x1000 * r + 0x44
def Adr.S_LINK.MAXDLY (r : Nat) : Nat := 0x1F000000 + 0x1000 * r + 0x48
def Adr.LINK_CTL (n : Nat) : Nat := 0x1C0B0000 + 0x100 * n
def Adr.LINK_STAT (n : Nat) : Nat := 0x1C0B0004 + 0x100 * n
def Adr.LINK_ERR (n : Nat) : Nat := 0x1C0B0008 + 0x100 * n
def Adr.LINK_MISS (n : Nat) : Nat := 0x1C0B000C + 0x100 * n
def Adr.LINK_DELAY (n : Nat) : Nat := 0x1C0B0010 + 0x100 * n
def Adr.LINK_PARTNER (n : Nat) : Nat := 0x1C0B0014 + 0x100 * n
def Adr.LINK_MAPIDX (n : Nat) : Nat := 0x1C0B0020 + 0x100 * n
def Adr.LINK_MAPDATA (n : Nat) : Nat := 0x1C0B0024 + 0x100 * n
def Adr.S_FAB.NODE (r : Nat) : Nat := 0x1F000000 + 0x1000 * r + 0x200
def Adr.S_FAB.TIMERS (r : Nat) : Nat := 0x1F000000 + 0x1000 * r + 0x204
def Adr.S_FAB.TOMB (r : Nat) : Nat := 0x1F000000 + 0x1000 * r + 0x208
def Adr.S_FAB.UQ (r : Nat) : Nat := 0x1F000000 + 0x1000 * r + 0x20C
def Adr.FAB_CTL : Nat := 0x1C0B8000
def Adr.FAB_STAT : Nat := 0x1C0B8004
def Adr.FAB_EPOCH : Nat := 0x1C0B8008
def Adr.FAB_CAPTUID : Nat := 0x1C0B8010
def Adr.FAB_CAPT : Nat := 0x1C0B8018
def Adr.FAB_NODES : Nat := 0x1C0B801C
def Adr.FAB_ROUTEIDX : Nat := 0x1C0B8020
def Adr.FAB_ROUTE : Nat := 0x1C0B8024
def Adr.FAB_STALE : Nat := 0x1C0B8028
def Adr.FAB_CELLERR : Nat := 0x1C0B802C
def Adr.FAB_RUNCMD : Nat := 0x1C0B8040
def Adr.FAB_RUNSEL : Nat := 0x1C0B8048
def Adr.FAB_RUNSTAT : Nat := 0x1C0B804C
def Adr.FAB_TRANSIT : Nat := 0x1C0B8050
def Adr.EVT_LATCH (k : Nat) : Nat := 0x1C040000 + 4 * k
def Adr.EVT_SWTRIG : Nat := 0x1C040100
def Adr.EVT_CNTSEL : Nat := 0x1C040104
def Adr.EVT_CNT : Nat := 0x1C040108
def Adr.EVT_MSIXACK : Nat := 0x1C04010C
def Adr.EVT_ROUTE (v : Nat) : Nat := 0x1C040800 + 4 * v
def Adr.CC_CTL (c : Nat) : Nat := 0x1C042000 + 0x100 * c
def Adr.CC_RESETVEC (c : Nat) : Nat := 0x1C042004 + 0x100 * c
def Adr.CC_VBASE (c : Nat) : Nat := 0x1C042008 + 0x100 * c
def Adr.CC_STAT (c : Nat) : Nat := 0x1C04200C + 0x100 * c
def Adr.WDOG_CTL : Nat := 0x1C043000
def Adr.WDOG_KICK : Nat := 0x1C043004
def Adr.WDOG_STAT : Nat := 0x1C043008
def Adr.S_QUE.Q (r q : Nat) : Nat := 0x1F000000 + 0x1000 * r + 0x80 + 8 * q
def Adr.QUE_PORT (q : Nat) : Nat := 0x1C080000 + 8 * q
def Adr.QUE_PUSH (q : Nat) : Nat := 0x1C080800 + 4 * q
def Adr.QUE_CFG (q : Nat) : Nat := 0x1C081000 + 0x10 * q
def Adr.QUE_EV (q : Nat) : Nat := 0x1C081004 + 0x10 * q
def Adr.QUE_LEVEL (q : Nat) : Nat := 0x1C081008 + 0x10 * q
def Adr.QUE_STAT (q : Nat) : Nat := 0x1C08100C + 0x10 * q
def Adr.QUE_CTL : Nat := 0x1C083000
def Adr.QUE_WMSTAT (k : Nat) : Nat := 0x1C083010 + 4 * k
def Adr.QUE_FCSTAT : Nat := 0x1C083030
def Adr.PWR_MODE : Nat := 0x1C030000
def Adr.PWR_CTL : Nat := 0x1C030004
def Adr.PWR_STAT : Nat := 0x1C030008
def Adr.PWR_CFG : Nat := 0x1C03000C
def Adr.PWR_DOMCFG (d : Nat) : Nat := 0x1C030020 + 4 * d
def Adr.PWR_DOMSTAT : Nat := 0x1C030060
def Adr.PWR_HOLD : Nat := 0x1C030064
def Adr.PWR_VOTE (k : Nat) : Nat := 0x1C030080 + 4 * k
def Adr.PWR_REFUSE_CNT : Nat := 0x1C030100
def Adr.PWR_REFUSE_WHO : Nat := 0x1C030104
def Adr.PWR_BANKRET (k : Nat) : Nat := 0x1C030110 + 4 * k
def Adr.PWR_RETLOST (k : Nat) : Nat := 0x1C030120 + 4 * k
def Adr.PWR_PADHOLD : Nat := 0x1C030130
def Adr.PWR_PADREL : Nat := 0x1C030138
def Adr.PWR_SENSE (k : Nat) : Nat := 0x1C030140 + 4 * k
def Adr.PWR_WAKECFG : Nat := 0x1C030150
def Adr.PWR_WAKESRC : Nat := 0x1C030154
def Adr.PWR_ALARM : Nat := 0x1C030158
def Adr.PWR_DVFSREQ : Nat := 0x1C030160
def Adr.PWR_DVFSSTAT : Nat := 0x1C030164
def Adr.PWR_VOPP (n : Nat) : Nat := 0x1C030170 + 4 * n
def Adr.PWR_PMBCFG : Nat := 0x1C030180
def Adr.PWR_PMBSTAT : Nat := 0x1C030184
def Adr.S_COACH.CTL (r : Nat) : Nat := 0x1F000000 + 0x1000 * r + 0x40
def Adr.S_COACH.THERM (r : Nat) : Nat := 0x1F000000 + 0x1000 * r + 0x44
def Adr.S_COACH.OPPCAP (r : Nat) : Nat := 0x1F000000 + 0x1000 * r + 0x48
def Adr.S_COACH.LEVMAP (r g : Nat) : Nat := 0x1F000000 + 0x1000 * r + 0x4C + 4 * g
def Adr.COACH_CTL : Nat := 0x1C110000
def Adr.COACH_BUDGET : Nat := 0x1C110004
def Adr.COACH_TCRIT : Nat := 0x1C110008
def Adr.COACH_STAT : Nat := 0x1C110010
def Adr.COACH_GRP : Nat := 0x1C110014
def Adr.COACH_PWR : Nat := 0x1C110018
def Adr.COACH_THOT : Nat := 0x1C11001C
def Adr.COACH_REFUSE : Nat := 0x1C110020
def Adr.COACH_TS (n : Nat) : Nat := 0x1C110040 + 4 * n
def Adr.FSPI_CFG : Nat := 0x1C0E8000
def Adr.SYS_READY : Nat := 0x1C000040
def Adr.BOOT_STAT : Nat := 0x1C010000
def Adr.BOOT_POS : Nat := 0x1C010004
def Adr.BOOT_SEQA : Nat := 0x1C010008
def Adr.BOOT_SEQB : Nat := 0x1C01000C
def Adr.BOOT_FAIL : Nat := 0x1C010010
def Adr.BOOT_T : Nat := 0x1C010014
def Adr.JRN_COUNT : Nat := 0x1C000200
def Adr.JRN_ADDR (i : Nat) : Nat := 0x1C001000 + 8 * i
def Adr.JRN_INFO (i : Nat) : Nat := 0x1C001004 + 8 * i
def Adr.SUB_CMD : Nat := 0x1C000A00
def Adr.SUB_CTL : Nat := 0x1C000A08
def Adr.SUB_STAT : Nat := 0x1C000A0C
def Adr.SUB_SNAP : Nat := 0x1C000A10
def Adr.ENG_HOLDER (n : Nat) : Nat := 0x1C000B00 + 4 * n
def Adr.ENG_GEN (n : Nat) : Nat := 0x1C000C00 + 4 * n
def Adr.ENG_FENCE (n : Nat) : Nat := 0x10060230 + 0x100000 * n
def Adr.FSPI_XCMD : Nat := 0x1C0E8010
def Adr.FSPI_XADDR : Nat := 0x1C0E8014
def Adr.FSPI_XSTAT : Nat := 0x1C0E8018
def Adr.FSPI_BUF (i : Nat) : Nat := 0x1C0E8100 + 4 * i
def Adr.BOOT_ACT : Nat := 0x1C010020
def Adr.BOOT_ACTSTAT : Nat := 0x1C010024
def Adr.LC_STATE : Nat := 0x1E000000
def Adr.LC_ADVANCE : Nat := 0x1E000004
def Adr.HSPI_CFG : Nat := 0x1C0E0000
def Adr.HSPI_STAT : Nat := 0x1C0E0004
def Adr.HSPI_ERR : Nat := 0x1C0E0008
def Adr.CSPI_CFG (s : Nat) : Nat := 0x1C0E4000 + 4 * s
def Adr.CSPI_DLY (s : Nat) : Nat := 0x1C0E4020 + 4 * s
def Adr.CSPI_CMD : Nat := 0x1C0E4040
def Adr.CSPI_TX : Nat := 0x1C0E4044
def Adr.CSPI_RX : Nat := 0x1C0E4048
def Adr.CSPI_STAT : Nat := 0x1C0E404C
def Adr.PCIE_STAT : Nat := 0x1C100000
def Adr.PCIE_ERR : Nat := 0x1C100004
def Adr.GPIO_OUT : Nat := 0x1C0F0000
def Adr.GPIO_OE : Nat := 0x1C0F0004
def Adr.GPIO_IN : Nat := 0x1C0F0008
def Adr.GPIO_SENSE : Nat := 0x1C0F000C
def Adr.S_DLY.SLOT (r i : Nat) : Nat := 0x1F000000 + 0x1000 * r + 0x80 + 4 * i
def Adr.S_ROUTE.ETIER (r i : Nat) : Nat := 0x1F000000 + 0x1000 * r + 0x80 + 4 * i
def Adr.S_EVT.CTL (r : Nat) : Nat := 0x1F000000 + 0x1000 * r + 0x40
def Adr.S_EVT.ROUTE (r v : Nat) : Nat := 0x1F000000 + 0x1000 * r + 0x80 + 4 * v

/-! ### Fields -/

def F.SYS_REJECT.CODE : Fld := ⟨0x1C000100, 0, 8⟩
def F.SYS_REJECT.PATH : Fld := ⟨0x1C000100, 8, 4⟩
def F.SYS_REJECT.COUNT : Fld := ⟨0x1C000100, 16, 16⟩
def F.SYS_REJECT_ADDR.ADDR : Fld := ⟨0x1C000104, 0, 32⟩
def F.SYS_VARIANT.ENGCNT : Fld := ⟨0x1C000010, 0, 8⟩
def F.SYS_VARIANT.BANKCNT : Fld := ⟨0x1C000010, 8, 8⟩
def F.SYS_VARIANT.MEM : Fld := ⟨0x1C000010, 16, 1⟩
def F.SYS_VARIANT.PKG : Fld := ⟨0x1C000010, 17, 1⟩
def F.SYS_VARIANT.FUSEERR : Fld := ⟨0x1C000010, 23, 1⟩
def F.SYS_VARIANT.FUSEREV : Fld := ⟨0x1C000010, 24, 8⟩
def F.SYS_BANKMAP0.PRESENT : Fld := ⟨0x1C000020, 0, 32⟩
def F.SYS_BANKMAP1.PRESENT : Fld := ⟨0x1C000024, 0, 32⟩
def F.SYS_BANKMAP2.PRESENT : Fld := ⟨0x1C000028, 0, 32⟩
def F.SYS_BANKMAP3.PRESENT : Fld := ⟨0x1C00002C, 0, 32⟩
def F.SYS_BANKGRP.PGRP (g : Nat) : Fld := ⟨0x1C000030, 0 + 4 * g, 4⟩
def F.SYS_UID.UID : Fld := ⟨0x1C000038, 0, 64⟩
def F.SYS_ABSENT.PATH : Fld := ⟨0x1C000110, 0, 4⟩
def F.SYS_ABSENT.ENG : Fld := ⟨0x1C000110, 8, 8⟩
def F.SYS_ABSENT.COUNT : Fld := ⟨0x1C000110, 16, 16⟩
def F.SYS_ABSENT_ADDR.ADDR : Fld := ⟨0x1C000114, 0, 32⟩
def F.S_RGN_ID.ID (r : Nat) : Fld := ⟨0x1F000000 + 0x1000 * r + 0, 0, 12⟩
def F.S_RGN_ID.PRESENT (r : Nat) : Fld := ⟨0x1F000000 + 0x1000 * r + 0, 12, 1⟩
def F.S_RGN_ID.CLASS (r : Nat) : Fld := ⟨0x1F000000 + 0x1000 * r + 0, 16, 4⟩
def F.S_RGN_SIZE.WORDS (r : Nat) : Fld := ⟨0x1F000000 + 0x1000 * r + 4, 0, 11⟩
def F.S_RGN_STATE.STATE (r : Nat) : Fld := ⟨0x1F000000 + 0x1000 * r + 8, 0, 3⟩
def F.S_RGN_STATE.LATE (r : Nat) : Fld := ⟨0x1F000000 + 0x1000 * r + 8, 3, 1⟩
def F.S_RGN_STATE.SHADOW_BAD (r : Nat) : Fld := ⟨0x1F000000 + 0x1000 * r + 8, 4, 1⟩
def F.S_RGN_STATE.LASTCODE (r : Nat) : Fld := ⟨0x1F000000 + 0x1000 * r + 8, 8, 8⟩
def F.S_RGN_POLICY.QMODE (r : Nat) : Fld := ⟨0x1F000000 + 0x1000 * r + 0xC, 0, 1⟩
def F.S_RGN_POLICY.QFADE (r : Nat) : Fld := ⟨0x1F000000 + 0x1000 * r + 0xC, 8, 6⟩
def F.S_RGN_POLICY.DOMAIN (r : Nat) : Fld := ⟨0x1F000000 + 0x1000 * r + 0xC, 16, 2⟩
def F.S_RGN_LOADCNT.APPLIED (r : Nat) : Fld := ⟨0x1F000000 + 0x1000 * r + 0x10, 0, 16⟩
def F.S_RGN_LOADCNT.REJECTED (r : Nat) : Fld := ⟨0x1F000000 + 0x1000 * r + 0x10, 16, 16⟩
def F.S_RGN_RESUMED.KOCNT (r : Nat) : Fld := ⟨0x1F000000 + 0x1000 * r + 0x14, 0, 32⟩
def F.LDR_CTL.GO : Fld := ⟨0x1C010400, 0, 1⟩
def F.LDR_CTL.ABORT : Fld := ⟨0x1C010400, 1, 1⟩
def F.LDR_CTL.SRC : Fld := ⟨0x1C010400, 2, 1⟩
def F.LDR_CTL.Q0EN : Fld := ⟨0x1C010400, 8, 1⟩
def F.LDR_SRC.ADDR : Fld := ⟨0x1C010404, 0, 32⟩
def F.LDR_LEN.WORDS : Fld := ⟨0x1C010408, 0, 24⟩
def F.LDR_STAT.BUSY : Fld := ⟨0x1C01040C, 0, 1⟩
def F.LDR_STAT.Q0SYNC : Fld := ⟨0x1C01040C, 1, 1⟩
def F.LDR_STAT.BATCH : Fld := ⟨0x1C01040C, 2, 1⟩
def F.LDR_STAT.Q0BATCH : Fld := ⟨0x1C01040C, 3, 1⟩
def F.LDR_STAT.LASTCODE : Fld := ⟨0x1C01040C, 8, 8⟩
def F.LDR_POS.WORDS : Fld := ⟨0x1C010410, 0, 24⟩
def F.LDR_Q0TIMEOUT.US : Fld := ⟨0x1C010414, 0, 16⟩
def F.COMMIT_STAT.PEND (k : Nat) : Fld := ⟨0x1C010418, 0 + 8 * k, 5⟩
def F.COMMIT_LATE.LATE : Fld := ⟨0x1C01041C, 0, 4⟩
def F.COMMIT_LATE.CANCEL : Fld := ⟨0x1C01041C, 4, 4⟩
def F.ENG_PC.PC (n : Nat) : Fld := ⟨0x10060200 + 0x100000 * n, 0, 14⟩
def F.ENG_RSP.DEPTH (n : Nat) : Fld := ⟨0x10060204 + 0x100000 * n, 0, 4⟩
def F.ENG_RSP.TOP (n : Nat) : Fld := ⟨0x10060204 + 0x100000 * n, 4, 3⟩
def F.ENG_LC.COUNT (n : Nat) : Fld := ⟨0x10060208 + 0x100000 * n, 0, 16⟩
def F.ENG_LC.REPLEFT (n : Nat) : Fld := ⟨0x10060208 + 0x100000 * n, 16, 12⟩
def F.ENG_STAT.V (n : Nat) : Fld := ⟨0x1006020C + 0x100000 * n, 0, 1⟩
def F.ENG_STAT.SAT (n : Nat) : Fld := ⟨0x1006020C + 0x100000 * n, 1, 1⟩
def F.ENG_STAT.DZ (n : Nat) : Fld := ⟨0x1006020C + 0x100000 * n, 2, 1⟩
def F.ENG_STAT.RSW (n : Nat) : Fld := ⟨0x1006020C + 0x100000 * n, 3, 1⟩
def F.ENG_STAT.RSV (n : Nat) : Fld := ⟨0x1006020C + 0x100000 * n, 16, 1⟩
def F.ENG_ENGID.PHYS (n : Nat) : Fld := ⟨0x10060210 + 0x100000 * n, 0, 6⟩
def F.ENG_ENGID.ROLE (n : Nat) : Fld := ⟨0x10060210 + 0x100000 * n, 8, 6⟩
def F.ENG_ENGID.GROUP (n : Nat) : Fld := ⟨0x10060210 + 0x100000 * n, 16, 3⟩
def F.ENG_ENGID.DOMAIN (n : Nat) : Fld := ⟨0x10060210 + 0x100000 * n, 20, 2⟩
def F.ENG_ENGID.BENCH (n : Nat) : Fld := ⟨0x10060210 + 0x100000 * n, 22, 1⟩
def F.ENG_ENGID.MIRROR (n : Nat) : Fld := ⟨0x10060210 + 0x100000 * n, 23, 1⟩
def F.ENG_TAGCTL.CHK (n : Nat) : Fld := ⟨0x10060214 + 0x100000 * n, 0, 1⟩
def F.ENG_FAULT.OVR (n : Nat) : Fld := ⟨0x10060218 + 0x100000 * n, 0, 1⟩
def F.ENG_FAULT.RS (n : Nat) : Fld := ⟨0x10060218 + 0x100000 * n, 1, 1⟩
def F.ENG_FAULT.ILL (n : Nat) : Fld := ⟨0x10060218 + 0x100000 * n, 2, 1⟩
def F.ENG_FAULT.TAG (n : Nat) : Fld := ⟨0x10060218 + 0x100000 * n, 3, 1⟩
def F.ENG_FAULT.ADDR (n : Nat) : Fld := ⟨0x10060218 + 0x100000 * n, 4, 1⟩
def F.ENG_FAULT.PAR (n : Nat) : Fld := ⟨0x10060218 + 0x100000 * n, 5, 1⟩
def F.ENG_FAULT.FPC (n : Nat) : Fld := ⟨0x10060218 + 0x100000 * n, 16, 14⟩
def F.ENG_TIER.MAXT (n : Nat) : Fld := ⟨0x1006021C + 0x100000 * n, 0, 2⟩
def F.ENG_TIER.CURT (n : Nat) : Fld := ⟨0x1006021C + 0x100000 * n, 2, 2⟩
def F.ENG_TIER.FADING (n : Nat) : Fld := ⟨0x1006021C + 0x100000 * n, 4, 1⟩
def F.ENG_TIER.OPP (n : Nat) : Fld := ⟨0x1006021C + 0x100000 * n, 8, 2⟩
def F.ENG_KOCNT.KOCNT (n : Nat) : Fld := ⟨0x10060220 + 0x100000 * n, 0, 32⟩
def F.S_ENG.PASSLEN0.CYCLES (r : Nat) : Fld := ⟨0x1F000000 + 0x1000 * r + 0x40, 0, 16⟩
def F.S_ENG.PASSLEN1.CYCLES (r : Nat) : Fld := ⟨0x1F000000 + 0x1000 * r + 0x44, 0, 16⟩
def F.S_ENG.PASSLEN2.CYCLES (r : Nat) : Fld := ⟨0x1F000000 + 0x1000 * r + 0x48, 0, 16⟩
def F.S_ENG.PASSLEN3.CYCLES (r : Nat) : Fld := ⟨0x1F000000 + 0x1000 * r + 0x4C, 0, 16⟩
def F.S_ENG.COEFWIN.BASE (r : Nat) : Fld := ⟨0x1F000000 + 0x1000 * r + 0x50, 0, 16⟩
def F.S_ENG.COEFWIN.SIZE (r : Nat) : Fld := ⟨0x1F000000 + 0x1000 * r + 0x50, 16, 14⟩
def F.S_ENG.IOBASE.BASE (r : Nat) : Fld := ⟨0x1F000000 + 0x1000 * r + 0x54, 0, 16⟩
def F.S_ENG.CTL.RSMODE (r : Nat) : Fld := ⟨0x1F000000 + 0x1000 * r + 0x58, 0, 1⟩
def F.S_ENG.CTL.BENCH (r : Nat) : Fld := ⟨0x1F000000 + 0x1000 * r + 0x58, 1, 1⟩
def F.ENG_USED.CYCLES (n : Nat) : Fld := ⟨0x10060224 + 0x100000 * n, 0, 16⟩
def F.ENG_USED.CUT (n : Nat) : Fld := ⟨0x10060224 + 0x100000 * n, 16, 1⟩
def F.ENG_USEDMAX.CYCLES (n : Nat) : Fld := ⟨0x10060228 + 0x100000 * n, 0, 16⟩
def F.ENG_OVRCNT.LEN (n : Nat) : Fld := ⟨0x1006022C + 0x100000 * n, 0, 16⟩
def F.ENG_OVRCNT.KICK (n : Nat) : Fld := ⟨0x1006022C + 0x100000 * n, 16, 16⟩
def F.ENG_GROUPMASK.MEMBERS (g : Nat) : Fld := ⟨0x1C000800 + 8 * g, 0, 64⟩
def F.S_DLY.CTL.DOMAIN (r : Nat) : Fld := ⟨0x1F000000 + 0x1000 * r + 0x40, 0, 2⟩
def F.S_DLY.CTL.ALIAS (r : Nat) : Fld := ⟨0x1F000000 + 0x1000 * r + 0x40, 2, 1⟩
def F.S_DLY.CTL.PERIOD (r : Nat) : Fld := ⟨0x1F000000 + 0x1000 * r + 0x40, 8, 7⟩
def F.DLY_CTL.STEAL : Fld := ⟨0x1C120000, 0, 1⟩
def F.DLY_BANKPWR.PWR (k j : Nat) : Fld := ⟨0x1C120010 + 4 * k, 0 + 2 * j, 2⟩
def F.DLY_BANKRDY.RDY (k : Nat) : Fld := ⟨0x1C120030 + 4 * k, 0, 32⟩
def F.DLY_OLD.PAYLOAD : Fld := ⟨0x1C120040, 0, 32⟩
def F.DLY_OLDTAG.TAG : Fld := ⟨0x1C120044, 0, 4⟩
def F.MEM_STAT.COLL : Fld := ⟨0x1C120050, 0, 1⟩
def F.MEM_STAT.PATH : Fld := ⟨0x1C120050, 4, 4⟩
def F.MEM_STAT.ENG : Fld := ⟨0x1C120050, 8, 6⟩
def F.MEM_STAT.COUNT : Fld := ⟨0x1C120050, 16, 16⟩
def F.MEM_COLL_ADDR.ADDR : Fld := ⟨0x1C120054, 0, 32⟩
def F.DLY_PARSTAT.PATH : Fld := ⟨0x1C120060, 0, 4⟩
def F.DLY_PARSTAT.ENG : Fld := ⟨0x1C120060, 8, 6⟩
def F.DLY_PARSTAT.COUNT : Fld := ⟨0x1C120060, 16, 16⟩
def F.DLY_PAR_ADDR.WORD : Fld := ⟨0x1C120064, 0, 24⟩
def F.DLY_SLOTERR.ENG : Fld := ⟨0x1C120070, 0, 6⟩
def F.DLY_SLOTERR.PORT : Fld := ⟨0x1C120070, 6, 1⟩
def F.DLY_SLOTERR.BANK : Fld := ⟨0x1C120070, 8, 7⟩
def F.DLY_SLOTERR.COUNT : Fld := ⟨0x1C120070, 16, 16⟩
def F.DLY_OFFACC.BANK : Fld := ⟨0x1C120074, 0, 7⟩
def F.DLY_OFFACC.COUNT : Fld := ⟨0x1C120074, 16, 16⟩
def F.SPIN_STAT.V (u : Nat) : Fld := ⟨0x1C0D0000 + 0x100 * u, 0, 4⟩
def F.SPIN_STAT.SAT (u : Nat) : Fld := ⟨0x1C0D0000 + 0x100 * u, 4, 4⟩
def F.SPIN_STAT.SLOT (u : Nat) : Fld := ⟨0x1C0D0000 + 0x100 * u, 8, 4⟩
def F.SPIN_RDADDR.INDEX (u : Nat) : Fld := ⟨0x1C0D0004 + 0x100 * u, 0, 12⟩
def F.SPIN_RDADDR.TARGET (u : Nat) : Fld := ⟨0x1C0D0004 + 0x100 * u, 12, 1⟩
def F.SPIN_RDDATA.DATA (u : Nat) : Fld := ⟨0x1C0D0008 + 0x100 * u, 0, 32⟩
def F.SPIN_RDTAG.TAG (u : Nat) : Fld := ⟨0x1C0D000C + 0x100 * u, 0, 4⟩
def F.S_ROUTE.MTRCTL.BLOCK (r : Nat) : Fld := ⟨0x1F000000 + 0x1000 * r + 0x40, 0, 16⟩
def F.S_ROUTE.MTRCTL.EN (r : Nat) : Fld := ⟨0x1F000000 + 0x1000 * r + 0x40, 16, 16⟩
def F.S_ROUTE.MTRDOM.DOM (r b : Nat) : Fld := ⟨0x1F000000 + 0x1000 * r + 0x44, 0 + 2 * b, 2⟩
def F.S_ROUTE.MTRQ.QUE (r k c : Nat) : Fld := ⟨0x1F000000 + 0x1000 * r + 0x48 + 4 * k, 0 + 8 * c, 8⟩
def F.S_ROUTE.TFADE.LEN (r g : Nat) : Fld := ⟨0x1F000000 + 0x1000 * r + 0x60 + 4 * g, 0, 16⟩
def F.S_ROUTE.TFADE.LAW (r g : Nat) : Fld := ⟨0x1F000000 + 0x1000 * r + 0x60 + 4 * g, 16, 2⟩
def F.S_ROUTE.NDESC.COUNT (r : Nat) : Fld := ⟨0x1F000000 + 0x1000 * r + 0x58, 0, 9⟩
def F.S_MIX.CTL.NIN (r : Nat) : Fld := ⟨0x1F000000 + 0x1000 * r + 0x40, 0, 9⟩
def F.S_MIX.CTL.NOUT (r : Nat) : Fld := ⟨0x1F000000 + 0x1000 * r + 0x40, 16, 7⟩
def F.S_MIX.CTL.LA (r : Nat) : Fld := ⟨0x1F000000 + 0x1000 * r + 0x40, 24, 6⟩
def F.ROUTE_CTL.DOMAIN : Fld := ⟨0x1C050000, 0, 2⟩
def F.ROUTE_CTL.NEXT : Fld := ⟨0x1C050000, 2, 1⟩
def F.ROUTE_CTL.GO : Fld := ⟨0x1C050000, 3, 1⟩
def F.ROUTE_CTL.DISCARD : Fld := ⟨0x1C050000, 4, 1⟩
def F.ROUTE_CTL.FADE : Fld := ⟨0x1C050000, 8, 2⟩
def F.ROUTE_APPLYKO.KICKOFF : Fld := ⟨0x1C050004, 0, 32⟩
def F.ROUTE_CHG.SINK : Fld := ⟨0x1C050008, 0, 15⟩
def F.ROUTE_CHG.SRC : Fld := ⟨0x1C050008, 16, 15⟩
def F.ROUTE_STAGE.COUNT : Fld := ⟨0x1C05000C, 0, 11⟩
def F.ROUTE_STAGE.ARMED : Fld := ⟨0x1C05000C, 16, 1⟩
def F.ROUTE_STAGE.LATE : Fld := ⟨0x1C05000C, 17, 1⟩
def F.ROUTE_RDSINK.SINK : Fld := ⟨0x1C050010, 0, 15⟩
def F.ROUTE_RDSEL.SEL : Fld := ⟨0x1C050014, 0, 15⟩
def F.ROUTE_RDSEL.FADING : Fld := ⟨0x1C050014, 15, 1⟩
def F.ROUTE_RDSEL.OLDSEL : Fld := ⟨0x1C050014, 16, 15⟩
def F.ROUTE_RDSEL.DEFERRED : Fld := ⟨0x1C050014, 31, 1⟩
def F.ROUTE_RDPOS.POS : Fld := ⟨0x1C050018, 0, 16⟩
def F.ROUTE_RDPOS.DEFSEL : Fld := ⟨0x1C050018, 16, 15⟩
def F.ROUTE_XFPROF.TIME (j : Nat) : Fld := ⟨0x1C050020 + 4 * j, 0, 10⟩
def F.ROUTE_XFPROF.LAW (j : Nat) : Fld := ⟨0x1C050020 + 4 * j, 12, 2⟩
def F.ROUTE_BYPIDX.ENTRY : Fld := ⟨0x1C050030, 0, 12⟩
def F.ROUTE_BYPIDX.AUTOINC : Fld := ⟨0x1C050030, 16, 1⟩
def F.ROUTE_BYPSEL.SEL : Fld := ⟨0x1C050034, 0, 16⟩
def F.MTR_RDSEL.TAP : Fld := ⟨0x1C050040, 0, 10⟩
def F.MTR_PEAK.VALUE : Fld := ⟨0x1C050044, 0, 32⟩
def F.MTR_RMS.VALUE : Fld := ⟨0x1C050048, 0, 32⟩
def F.MTR_TAG.TAG : Fld := ⟨0x1C05004C, 0, 4⟩
def F.MTR_TAG.EXCL : Fld := ⟨0x1C05004C, 16, 16⟩
def F.ROUTE_CONST.PAYLOAD (g : Nat) : Fld := ⟨0x1C050100 + 8 * g, 0, 32⟩
def F.ROUTE_CONST.KIND (g : Nat) : Fld := ⟨0x1C050100 + 8 * g, 32, 2⟩
def F.GEN_SINE.PHINC (g : Nat) : Fld := ⟨0x1C050200 + 8 * g, 0, 32⟩
def F.GEN_SINE.LEVEL (g : Nat) : Fld := ⟨0x1C050200 + 8 * g, 32, 31⟩
def F.GEN_NOISE.SEED (g : Nat) : Fld := ⟨0x1C050280 + 8 * g, 0, 32⟩
def F.GEN_NOISE.LEVEL (g : Nat) : Fld := ⟨0x1C050280 + 8 * g, 32, 31⟩
def F.MIX_CTL.GO (m : Nat) : Fld := ⟨0x1C060000 + 0x1000 * m, 0, 1⟩
def F.MIX_CTL.NEXT (m : Nat) : Fld := ⟨0x1C060000 + 0x1000 * m, 1, 1⟩
def F.MIX_CTL.DISCARD (m : Nat) : Fld := ⟨0x1C060000 + 0x1000 * m, 2, 1⟩
def F.MIX_APPLYKO.KICKOFF (m : Nat) : Fld := ⟨0x1C060004 + 0x1000 * m, 0, 32⟩
def F.MIX_XPCMD.IN (m : Nat) : Fld := ⟨0x1C060008 + 0x1000 * m, 0, 8⟩
def F.MIX_XPCMD.OUT (m : Nat) : Fld := ⟨0x1C060008 + 0x1000 * m, 8, 6⟩
def F.MIX_XPCMD.PROF (m : Nat) : Fld := ⟨0x1C060008 + 0x1000 * m, 14, 2⟩
def F.MIX_XPCMD.GAIN (m : Nat) : Fld := ⟨0x1C060008 + 0x1000 * m, 32, 32⟩
def F.MIX_STAT.STAGED (m : Nat) : Fld := ⟨0x1C060010 + 0x1000 * m, 0, 11⟩
def F.MIX_STAT.ARMED (m : Nat) : Fld := ⟨0x1C060010 + 0x1000 * m, 16, 1⟩
def F.MIX_STAT.LATE (m : Nat) : Fld := ⟨0x1C060010 + 0x1000 * m, 17, 1⟩
def F.MIX_STAT.CLIP (m : Nat) : Fld := ⟨0x1C060010 + 0x1000 * m, 20, 12⟩
def F.MIX_XPRD.IN (m : Nat) : Fld := ⟨0x1C060014 + 0x1000 * m, 0, 8⟩
def F.MIX_XPRD.OUT (m : Nat) : Fld := ⟨0x1C060014 + 0x1000 * m, 8, 6⟩
def F.MIX_XPCUR.GAIN (m : Nat) : Fld := ⟨0x1C060018 + 0x1000 * m, 0, 32⟩
def F.MIX_XPTGT.GAIN (m : Nat) : Fld := ⟨0x1C06001C + 0x1000 * m, 0, 32⟩
def F.MIX_RAMP.TIME (m j : Nat) : Fld := ⟨0x1C060020 + 0x1000 * m + 4 * j, 0, 15⟩
def F.MIX_LIM.CEIL (m o : Nat) : Fld := ⟨0x1C060100 + 0x1000 * m + 8 * o, 0, 31⟩
def F.MIX_LIM.RS (m o : Nat) : Fld := ⟨0x1C060100 + 0x1000 * m + 8 * o, 32, 5⟩
def F.MIX_LIM.EN (m o : Nat) : Fld := ⟨0x1C060100 + 0x1000 * m + 8 * o, 40, 1⟩
def F.MIX_GR.GAIN (m o : Nat) : Fld := ⟨0x1C060300 + 0x1000 * m + 4 * o, 0, 32⟩
def F.S_SAP.FORMAT.FMT (r : Nat) : Fld := ⟨0x1F000000 + 0x1000 * r + 0x40, 0, 2⟩
def F.S_SAP.FORMAT.NSLOT (r : Nat) : Fld := ⟨0x1F000000 + 0x1000 * r + 0x40, 2, 6⟩
def F.S_SAP.FORMAT.SLOTW (r : Nat) : Fld := ⟨0x1F000000 + 0x1000 * r + 0x40, 8, 6⟩
def F.S_SAP.FORMAT.WORDW (r : Nat) : Fld := ⟨0x1F000000 + 0x1000 * r + 0x40, 14, 6⟩
def F.S_SAP.FORMAT.DELAY (r : Nat) : Fld := ⟨0x1F000000 + 0x1000 * r + 0x40, 20, 1⟩
def F.S_SAP.FORMAT.FSPULSE (r : Nat) : Fld := ⟨0x1F000000 + 0x1000 * r + 0x40, 21, 1⟩
def F.S_SAP.FORMAT.FSINV (r : Nat) : Fld := ⟨0x1F000000 + 0x1000 * r + 0x40, 22, 1⟩
def F.S_SAP.FORMAT.BCLKINV (r : Nat) : Fld := ⟨0x1F000000 + 0x1000 * r + 0x40, 23, 1⟩
def F.S_SAP.CLK.MASTER (r : Nat) : Fld := ⟨0x1F000000 + 0x1000 * r + 0x44, 0, 1⟩
def F.S_SAP.CLK.MODE (r : Nat) : Fld := ⟨0x1F000000 + 0x1000 * r + 0x44, 1, 2⟩
def F.S_SAP.CLK.PHASE (r : Nat) : Fld := ⟨0x1F000000 + 0x1000 * r + 0x44, 16, 10⟩
def F.S_SAP.RXEN.SLOT (r : Nat) : Fld := ⟨0x1F000000 + 0x1000 * r + 0x48, 0, 32⟩
def F.S_SAP.TXEN.SLOT (r : Nat) : Fld := ⟨0x1F000000 + 0x1000 * r + 0x4C, 0, 32⟩
def F.S_SAP.OUTCTL.INVMODE (r : Nat) : Fld := ⟨0x1F000000 + 0x1000 * r + 0x50, 0, 2⟩
def F.S_SAP.OUTCTL.RAMP (r : Nat) : Fld := ⟨0x1F000000 + 0x1000 * r + 0x50, 2, 6⟩
def F.S_SAP.OUTCTL.AUTOREL (r : Nat) : Fld := ⟨0x1F000000 + 0x1000 * r + 0x50, 8, 1⟩
def F.S_SAP.OUTCTL.DITHER (r : Nat) : Fld := ⟨0x1F000000 + 0x1000 * r + 0x50, 9, 1⟩
def F.S_SAP.OUTCTL.TXIDLE (r : Nat) : Fld := ⟨0x1F000000 + 0x1000 * r + 0x50, 10, 1⟩
def F.S_SAP.DSEED.SEED (r : Nat) : Fld := ⟨0x1F000000 + 0x1000 * r + 0x54, 0, 32⟩
def F.S_SAP.QUEUE.RXQ (r : Nat) : Fld := ⟨0x1F000000 + 0x1000 * r + 0x58, 0, 8⟩
def F.S_SAP.QUEUE.TXQ (r : Nat) : Fld := ⟨0x1F000000 + 0x1000 * r + 0x58, 8, 8⟩
def F.S_ASRC.IN.SIDE (r u : Nat) : Fld := ⟨0x1F000000 + 0x1000 * r + 0x40 + 8 * u, 0, 1⟩
def F.S_ASRC.IN.DOMAIN (r u : Nat) : Fld := ⟨0x1F000000 + 0x1000 * r + 0x40 + 8 * u, 1, 2⟩
def F.S_ASRC.IN.PORT (r u : Nat) : Fld := ⟨0x1F000000 + 0x1000 * r + 0x40 + 8 * u, 8, 5⟩
def F.S_ASRC.IN.FIRST (r u : Nat) : Fld := ⟨0x1F000000 + 0x1000 * r + 0x40 + 8 * u, 16, 5⟩
def F.S_ASRC.IN.NCH (r u : Nat) : Fld := ⟨0x1F000000 + 0x1000 * r + 0x40 + 8 * u, 24, 5⟩
def F.SAP_CTL.UNMUTE (n : Nat) : Fld := ⟨0x1C090000 + 0x800 * n, 0, 1⟩
def F.SAP_STAT.MUTED (n : Nat) : Fld := ⟨0x1C090004 + 0x800 * n, 0, 1⟩
def F.SAP_STAT.RXSLIP (n : Nat) : Fld := ⟨0x1C090004 + 0x800 * n, 1, 1⟩
def F.SAP_STAT.TXSLIP (n : Nat) : Fld := ⟨0x1C090004 + 0x800 * n, 2, 1⟩
def F.SAP_STAT.FRAMEERR (n : Nat) : Fld := ⟨0x1C090004 + 0x800 * n, 3, 1⟩
def F.SAP_STAT.CLKOK (n : Nat) : Fld := ⟨0x1C090004 + 0x800 * n, 4, 1⟩
def F.SAP_STAT.MUTECAUSE (n : Nat) : Fld := ⟨0x1C090004 + 0x800 * n, 8, 4⟩
def F.SAP_STAT.SLIP (n : Nat) : Fld := ⟨0x1C090004 + 0x800 * n, 16, 16⟩
def F.SAP_PHASE.PHASE (n : Nat) : Fld := ⟨0x1C090008 + 0x800 * n, 0, 11⟩
def F.SAP_PHASE.FRAMELEN (n : Nat) : Fld := ⟨0x1C090008 + 0x800 * n, 16, 11⟩
def F.SAP_CONCEAL.HOLDS (n : Nat) : Fld := ⟨0x1C09000C + 0x800 * n, 0, 16⟩
def F.SAP_CONCEAL.ZEROS (n : Nat) : Fld := ⟨0x1C09000C + 0x800 * n, 16, 16⟩
def F.ASRC_STAT.LOCK (u : Nat) : Fld := ⟨0x1C0A0000 + 0x10 * u, 0, 1⟩
def F.ASRC_STAT.RANGE (u : Nat) : Fld := ⟨0x1C0A0000 + 0x10 * u, 1, 1⟩
def F.ASRC_STAT.STARVE (u : Nat) : Fld := ⟨0x1C0A0000 + 0x10 * u, 2, 1⟩
def F.ASRC_STAT.UNLOCKCNT (u : Nat) : Fld := ⟨0x1C0A0000 + 0x10 * u, 16, 16⟩
def F.ASRC_RATIO.RATIO (u : Nat) : Fld := ⟨0x1C0A0004 + 0x10 * u, 0, 32⟩
def F.GUARD_CEIL.CEIL (c : Nat) : Fld := ⟨0x1C070000 + 0x20 * c, 0, 31⟩
def F.GUARD_SLEW.SLEW (c : Nat) : Fld := ⟨0x1C070004 + 0x20 * c, 0, 32⟩
def F.GUARD_DCTHR.DCTHR (c : Nat) : Fld := ⟨0x1C070008 + 0x20 * c, 0, 32⟩
def F.GUARD_THLIM.THLIM (c : Nat) : Fld := ⟨0x1C07000C + 0x20 * c, 0, 32⟩
def F.GUARD_THW.WC (c : Nat) : Fld := ⟨0x1C070010 + 0x20 * c, 0, 16⟩
def F.GUARD_THW.WM (c : Nat) : Fld := ⟨0x1C070010 + 0x20 * c, 16, 16⟩
def F.GUARD_TC.TC1 (c : Nat) : Fld := ⟨0x1C070014 + 0x20 * c, 0, 5⟩
def F.GUARD_TC.TC2 (c : Nat) : Fld := ⟨0x1C070014 + 0x20 * c, 8, 5⟩
def F.GUARD_TC.DCTC (c : Nat) : Fld := ⟨0x1C070014 + 0x20 * c, 16, 5⟩
def F.GUARD_CHSTAT.TRIP (c : Nat) : Fld := ⟨0x1C078000 + 0x10 * c, 0, 1⟩
def F.GUARD_CHSTAT.THACT (c : Nat) : Fld := ⟨0x1C078000 + 0x10 * c, 1, 1⟩
def F.GUARD_CHSTAT.CEIL (c : Nat) : Fld := ⟨0x1C078000 + 0x10 * c, 2, 1⟩
def F.GUARD_CHSTAT.SLEW (c : Nat) : Fld := ⟨0x1C078000 + 0x10 * c, 3, 1⟩
def F.GUARD_CHSTAT.DCEV (c : Nat) : Fld := ⟨0x1C078000 + 0x10 * c, 4, 1⟩
def F.GUARD_CHSTAT.THEV (c : Nat) : Fld := ⟨0x1C078000 + 0x10 * c, 5, 1⟩
def F.GUARD_THG.GTH (c : Nat) : Fld := ⟨0x1C078004 + 0x10 * c, 0, 32⟩
def F.GUARD_THETA.THETA (c : Nat) : Fld := ⟨0x1C078008 + 0x10 * c, 0, 48⟩
def F.GUARD_CTL.WDREL : Fld := ⟨0x1C07C000, 0, 1⟩
def F.GUARD_WDOG.HOLD : Fld := ⟨0x1C07C004, 0, 16⟩
def F.GUARD_WDOG.RAMP : Fld := ⟨0x1C07C004, 16, 16⟩
def F.GUARD_STAT.PROFILE : Fld := ⟨0x1C07C008, 0, 2⟩
def F.GUARD_STAT.WHISTLE : Fld := ⟨0x1C07C008, 2, 1⟩
def F.GUARD_STAT.WDHOLD : Fld := ⟨0x1C07C008, 3, 1⟩
def F.GUARD_STAT.PROFERR : Fld := ⟨0x1C07C008, 4, 1⟩
def F.GUARD_STAT.LPATH : Fld := ⟨0x1C07C008, 8, 4⟩
def F.GUARD_STAT.LOOSEN_CNT : Fld := ⟨0x1C07C008, 16, 16⟩
def F.GUARD_LOOSEN_ADDR.ADDR : Fld := ⟨0x1C07C00C, 0, 32⟩
def F.GUARD_TRIPCNT.DC : Fld := ⟨0x1C07C010, 0, 16⟩
def F.GUARD_TRIPCNT.THERM : Fld := ⟨0x1C07C010, 16, 16⟩
def F.S_CLK.REF.KHZ (r : Nat) : Fld := ⟨0x1F000000 + 0x1000 * r + 0x40, 0, 16⟩
def F.S_CLK.CTRL.MHZ (r : Nat) : Fld := ⟨0x1F000000 + 0x1000 * r + 0x44, 0, 10⟩
def F.S_CLK.TIME.TSRC (r : Nat) : Fld := ⟨0x1F000000 + 0x1000 * r + 0x48, 0, 2⟩
def F.S_CLK.TIME.PULL (r : Nat) : Fld := ⟨0x1F000000 + 0x1000 * r + 0x48, 16, 10⟩
def F.S_CLK.LOOP.KP (r j : Nat) : Fld := ⟨0x1F000000 + 0x1000 * r + 0x50 + 4 * j, 0, 4⟩
def F.S_CLK.LOOP.KI (r j : Nat) : Fld := ⟨0x1F000000 + 0x1000 * r + 0x50 + 4 * j, 4, 5⟩
def F.S_CLK.LOOP.LOCKW (r j : Nat) : Fld := ⟨0x1F000000 + 0x1000 * r + 0x50 + 4 * j, 12, 8⟩
def F.S_CLK.LOOP.LOCKN (r j : Nat) : Fld := ⟨0x1F000000 + 0x1000 * r + 0x50 + 4 * j, 20, 12⟩
def F.S_CLK.MPLL.FHZ (r m : Nat) : Fld := ⟨0x1F000000 + 0x1000 * r + 0x68 + 4 * m, 0, 32⟩
def F.CLK_PLLSTAT.LOCK (j : Nat) : Fld := ⟨0x1C020000 + 4 * j, 0, 1⟩
def F.CLK_PLLSTAT.MUTED (j : Nat) : Fld := ⟨0x1C020000 + 4 * j, 1, 1⟩
def F.CLK_PLLSTAT.NOBAND (j : Nat) : Fld := ⟨0x1C020000 + 4 * j, 2, 1⟩
def F.CLK_PLLSTAT.FAIL (j : Nat) : Fld := ⟨0x1C020000 + 4 * j, 3, 1⟩
def F.CLK_PLLSTAT.BAND (j : Nat) : Fld := ⟨0x1C020000 + 4 * j, 4, 6⟩
def F.CLK_PLLSTAT.IDLE (j : Nat) : Fld := ⟨0x1C020000 + 4 * j, 10, 1⟩
def F.CLK_PLLSTAT.DEFROM (j : Nat) : Fld := ⟨0x1C020000 + 4 * j, 11, 1⟩
def F.CLK_PLLSTAT.UNLOCKCNT (j : Nat) : Fld := ⟨0x1C020000 + 4 * j, 16, 16⟩
def F.CLK_MCTL.EN (m : Nat) : Fld := ⟨0x1C020020 + 4 * m, 0, 1⟩
def F.CLK_MTGT.FHZ (m : Nat) : Fld := ⟨0x1C020030 + 4 * m, 0, 32⟩
def F.CLK_HO.PLL (k : Nat) : Fld := ⟨0x1C020040 + 8 * k, 0, 2⟩
def F.CLK_HO.MDIV (k : Nat) : Fld := ⟨0x1C020040 + 8 * k, 8, 8⟩
def F.CLK_HO.KDIV (k : Nat) : Fld := ⟨0x1C020040 + 8 * k, 16, 16⟩
def F.CLK_HO.FSHZ (k : Nat) : Fld := ⟨0x1C020040 + 8 * k, 32, 19⟩
def F.CLK_HO.NEXT (k : Nat) : Fld := ⟨0x1C020040 + 8 * k, 62, 1⟩
def F.CLK_HO.GO (k : Nat) : Fld := ⟨0x1C020040 + 8 * k, 63, 1⟩
def F.CLK_HOKO.KICKOFF (k : Nat) : Fld := ⟨0x1C020060 + 4 * k, 0, 32⟩
def F.CLK_HOSTAT.ARMED : Fld := ⟨0x1C020070, 0, 4⟩
def F.CLK_HOSTAT.ALIGNED : Fld := ⟨0x1C020070, 4, 4⟩
def F.CLK_HOSTAT.FAILED : Fld := ⟨0x1C020070, 8, 4⟩
def F.CLK_HOSTAT.LATE : Fld := ⟨0x1C020070, 12, 4⟩
def F.CLK_WCLKOUT.EN (w : Nat) : Fld := ⟨0x1C020080 + 4 * w, 0, 1⟩
def F.CLK_WCLKOUT.DOM (w : Nat) : Fld := ⟨0x1C020080 + 4 * w, 1, 2⟩
def F.CLK_WCLKOUT.INV (w : Nat) : Fld := ⟨0x1C020080 + 4 * w, 3, 1⟩
def F.CLK_WCLKOUT.DIV (w : Nat) : Fld := ⟨0x1C020080 + 4 * w, 4, 4⟩
def F.CLK_PPSOUT.EN : Fld := ⟨0x1C020090, 0, 1⟩
def F.CLK_PPSOUT.WIDTH : Fld := ⟨0x1C020090, 8, 18⟩
def F.TIME_CTL.REFSEL : Fld := ⟨0x1C0C0000, 0, 3⟩
def F.TIME_CTL.WDOM : Fld := ⟨0x1C0C0000, 4, 2⟩
def F.TIME_CTL.KP : Fld := ⟨0x1C0C0000, 8, 5⟩
def F.TIME_CTL.KI : Fld := ⟨0x1C0C0000, 16, 5⟩
def F.TIME_LOCKPAR.LOCKW : Fld := ⟨0x1C0C0004, 0, 16⟩
def F.TIME_LOCKPAR.LOCKN : Fld := ⟨0x1C0C0004, 16, 12⟩
def F.TIME_STAT.STATE : Fld := ⟨0x1C0C0008, 0, 2⟩
def F.TIME_STAT.LOCKED : Fld := ⟨0x1C0C0008, 2, 1⟩
def F.TIME_STAT.TSRCLOST : Fld := ⟨0x1C0C0008, 3, 1⟩
def F.TIME_STAT.TSRC : Fld := ⟨0x1C0C0008, 4, 2⟩
def F.TIME_STAT.REFLOSS : Fld := ⟨0x1C0C0008, 16, 16⟩
def F.TIME_PHERR.E : Fld := ⟨0x1C0C000C, 0, 32⟩
def F.TIME_TOD.NS : Fld := ⟨0x1C0C0010, 0, 64⟩
def F.TIME_TODFRAC.FRAC : Fld := ⟨0x1C0C0018, 0, 32⟩
def F.TIME_STEP.NS : Fld := ⟨0x1C0C0020, 0, 64⟩
def F.TIME_FREQ.EPS : Fld := ⟨0x1C0C0028, 0, 32⟩
def F.TIME_REFOFS.NS : Fld := ⟨0x1C0C002C, 0, 32⟩
def F.TIME_SC.COUNT (k : Nat) : Fld := ⟨0x1C0C0030 + 8 * k, 0, 64⟩
def F.TIME_AON.COUNT : Fld := ⟨0x1C0C0050, 0, 48⟩
def F.TIME_AONCAL.PERIOD : Fld := ⟨0x1C0C0058, 0, 32⟩
def F.TIME_AONQ.SPREAD : Fld := ⟨0x1C0C005C, 0, 16⟩
def F.TIME_AONQ.TOL : Fld := ⟨0x1C0C005C, 16, 16⟩
def F.TIME_WAKE_UNC.NS : Fld := ⟨0x1C0C0060, 0, 32⟩
def F.TIME_WAKEDELTA.AON : Fld := ⟨0x1C0C0068, 0, 48⟩
def F.S_LINK.CTL.EN (r : Nat) : Fld := ⟨0x1F000000 + 0x1000 * r + 0x40, 0, 1⟩
def F.S_LINK.CTL.R12G (r : Nat) : Fld := ⟨0x1F000000 + 0x1000 * r + 0x40, 1, 1⟩
def F.S_LINK.CTL.R6 (r : Nat) : Fld := ⟨0x1F000000 + 0x1000 * r + 0x40, 2, 1⟩
def F.S_LINK.CTL.WAKE (r : Nat) : Fld := ⟨0x1F000000 + 0x1000 * r + 0x40, 3, 1⟩
def F.S_LINK.CTL.DOMAIN (r : Nat) : Fld := ⟨0x1F000000 + 0x1000 * r + 0x40, 4, 2⟩
def F.S_LINK.CTL.NGRP (r : Nat) : Fld := ⟨0x1F000000 + 0x1000 * r + 0x40, 8, 8⟩
def F.S_LINK.EQ.PRE (r : Nat) : Fld := ⟨0x1F000000 + 0x1000 * r + 0x44, 0, 4⟩
def F.S_LINK.EQ.POST (r : Nat) : Fld := ⟨0x1F000000 + 0x1000 * r + 0x44, 4, 4⟩
def F.S_LINK.EQ.SWING (r : Nat) : Fld := ⟨0x1F000000 + 0x1000 * r + 0x44, 8, 4⟩
def F.S_LINK.MAXDLY.D10NS (r : Nat) : Fld := ⟨0x1F000000 + 0x1000 * r + 0x48, 0, 16⟩
def F.LINK_CTL.RETRAIN (n : Nat) : Fld := ⟨0x1C0B0000 + 0x100 * n, 0, 1⟩
def F.LINK_STAT.STATE (n : Nat) : Fld := ⟨0x1C0B0004 + 0x100 * n, 0, 4⟩
def F.LINK_STAT.UP (n : Nat) : Fld := ⟨0x1C0B0004 + 0x100 * n, 4, 1⟩
def F.LINK_STAT.RATE (n : Nat) : Fld := ⟨0x1C0B0004 + 0x100 * n, 5, 1⟩
def F.LINK_STAT.MISMATCH (n : Nat) : Fld := ⟨0x1C0B0004 + 0x100 * n, 6, 1⟩
def F.LINK_STAT.HIBER (n : Nat) : Fld := ⟨0x1C0B0004 + 0x100 * n, 7, 1⟩
def F.LINK_STAT.DLYVALID (n : Nat) : Fld := ⟨0x1C0B0004 + 0x100 * n, 8, 1⟩
def F.LINK_STAT.DLYERR (n : Nat) : Fld := ⟨0x1C0B0004 + 0x100 * n, 9, 1⟩
def F.LINK_STAT.TUP (n : Nat) : Fld := ⟨0x1C0B0004 + 0x100 * n, 10, 1⟩
def F.LINK_STAT.TRAINFAIL (n : Nat) : Fld := ⟨0x1C0B0004 + 0x100 * n, 16, 16⟩
def F.LINK_ERR.CRC (n : Nat) : Fld := ⟨0x1C0B0008 + 0x100 * n, 0, 12⟩
def F.LINK_ERR.BLK (n : Nat) : Fld := ⟨0x1C0B0008 + 0x100 * n, 12, 8⟩
def F.LINK_ERR.CELL (n : Nat) : Fld := ⟨0x1C0B0008 + 0x100 * n, 20, 6⟩
def F.LINK_ERR.DUP (n : Nat) : Fld := ⟨0x1C0B0008 + 0x100 * n, 26, 6⟩
def F.LINK_MISS.MISS (n : Nat) : Fld := ⟨0x1C0B000C + 0x100 * n, 0, 16⟩
def F.LINK_MISS.SEQ (n : Nat) : Fld := ⟨0x1C0B000C + 0x100 * n, 16, 16⟩
def F.LINK_DELAY.DELAY (n : Nat) : Fld := ⟨0x1C0B0010 + 0x100 * n, 0, 32⟩
def F.LINK_PARTNER.ADDR (n : Nat) : Fld := ⟨0x1C0B0014 + 0x100 * n, 0, 10⟩
def F.LINK_PARTNER.EPOCH (n : Nat) : Fld := ⟨0x1C0B0014 + 0x100 * n, 16, 16⟩
def F.LINK_MAPIDX.SLOT (n : Nat) : Fld := ⟨0x1C0B0020 + 0x100 * n, 0, 12⟩
def F.LINK_MAPIDX.MAP (n : Nat) : Fld := ⟨0x1C0B0020 + 0x100 * n, 12, 1⟩
def F.LINK_MAPIDX.AUTOINC (n : Nat) : Fld := ⟨0x1C0B0020 + 0x100 * n, 16, 1⟩
def F.LINK_MAPDATA.SRCCHAN (n : Nat) : Fld := ⟨0x1C0B0024 + 0x100 * n, 0, 16⟩
def F.LINK_MAPDATA.EN (n : Nat) : Fld := ⟨0x1C0B0024 + 0x100 * n, 16, 1⟩
def F.LINK_MAPDATA.KIND (n : Nat) : Fld := ⟨0x1C0B0024 + 0x100 * n, 18, 2⟩
def F.S_FAB.NODE.PRIO (r : Nat) : Fld := ⟨0x1F000000 + 0x1000 * r + 0x200, 0, 8⟩
def F.S_FAB.NODE.PREFADDR (r : Nat) : Fld := ⟨0x1F000000 + 0x1000 * r + 0x200, 8, 10⟩
def F.S_FAB.NODE.CREF (r : Nat) : Fld := ⟨0x1F000000 + 0x1000 * r + 0x200, 18, 3⟩
def F.S_FAB.NODE.TFOLLOW (r : Nat) : Fld := ⟨0x1F000000 + 0x1000 * r + 0x200, 21, 1⟩
def F.S_FAB.NODE.GATE (r : Nat) : Fld := ⟨0x1F000000 + 0x1000 * r + 0x200, 22, 1⟩
def F.S_FAB.TIMERS.HELLOINT (r : Nat) : Fld := ⟨0x1F000000 + 0x1000 * r + 0x204, 0, 8⟩
def F.S_FAB.TIMERS.DEADINT (r : Nat) : Fld := ⟨0x1F000000 + 0x1000 * r + 0x204, 8, 12⟩
def F.S_FAB.TOMB.FRAMES (r : Nat) : Fld := ⟨0x1F000000 + 0x1000 * r + 0x208, 0, 24⟩
def F.S_FAB.UQ.RXQ (r : Nat) : Fld := ⟨0x1F000000 + 0x1000 * r + 0x20C, 0, 8⟩
def F.S_FAB.UQ.TXQ (r : Nat) : Fld := ⟨0x1F000000 + 0x1000 * r + 0x20C, 8, 8⟩
def F.FAB_CTL.REJOIN : Fld := ⟨0x1C0B8000, 0, 1⟩
def F.FAB_STAT.STATE : Fld := ⟨0x1C0B8004, 0, 3⟩
def F.FAB_STAT.CAPT : Fld := ⟨0x1C0B8004, 3, 1⟩
def F.FAB_STAT.GATED : Fld := ⟨0x1C0B8004, 4, 1⟩
def F.FAB_STAT.NOCAPT : Fld := ⟨0x1C0B8004, 5, 1⟩
def F.FAB_STAT.NOADDR : Fld := ⟨0x1C0B8004, 6, 1⟩
def F.FAB_STAT.DIAMERR : Fld := ⟨0x1C0B8004, 7, 1⟩
def F.FAB_STAT.TDIST : Fld := ⟨0x1C0B8004, 8, 8⟩
def F.FAB_STAT.ADDR : Fld := ⟨0x1C0B8004, 16, 10⟩
def F.FAB_EPOCH.EPOCH : Fld := ⟨0x1C0B8008, 0, 16⟩
def F.FAB_EPOCH.REJOINS : Fld := ⟨0x1C0B8008, 16, 16⟩
def F.FAB_CAPTUID.UID : Fld := ⟨0x1C0B8010, 0, 64⟩
def F.FAB_CAPT.ADDR : Fld := ⟨0x1C0B8018, 0, 10⟩
def F.FAB_CAPT.GEN : Fld := ⟨0x1C0B8018, 16, 16⟩
def F.FAB_NODES.NODES : Fld := ⟨0x1C0B801C, 0, 10⟩
def F.FAB_NODES.DIAM : Fld := ⟨0x1C0B801C, 16, 5⟩
def F.FAB_ROUTEIDX.DST : Fld := ⟨0x1C0B8020, 0, 10⟩
def F.FAB_ROUTE.LINK : Fld := ⟨0x1C0B8024, 0, 3⟩
def F.FAB_ROUTE.VALID : Fld := ⟨0x1C0B8024, 3, 1⟩
def F.FAB_ROUTE.HOPS : Fld := ⟨0x1C0B8024, 4, 5⟩
def F.FAB_STALE.FRAMES : Fld := ⟨0x1C0B8028, 0, 16⟩
def F.FAB_STALE.CELLS : Fld := ⟨0x1C0B8028, 16, 16⟩
def F.FAB_CELLERR.DROP : Fld := ⟨0x1C0B802C, 0, 16⟩
def F.FAB_CELLERR.BAD : Fld := ⟨0x1C0B802C, 16, 16⟩
def F.FAB_RUNCMD.RUN : Fld := ⟨0x1C0B8040, 0, 8⟩
def F.FAB_RUNCMD.DST : Fld := ⟨0x1C0B8040, 8, 10⟩
def F.FAB_RUNCMD.OCHAN : Fld := ⟨0x1C0B8040, 18, 14⟩
def F.FAB_RUNCMD.DCHAN : Fld := ⟨0x1C0B8040, 32, 14⟩
def F.FAB_RUNCMD.COUNT : Fld := ⟨0x1C0B8040, 46, 9⟩
def F.FAB_RUNCMD.OP : Fld := ⟨0x1C0B8040, 56, 2⟩
def F.FAB_RUNSEL.RUN : Fld := ⟨0x1C0B8048, 0, 8⟩
def F.FAB_RUNSTAT.STATE : Fld := ⟨0x1C0B804C, 0, 3⟩
def F.FAB_RUNSTAT.REASON : Fld := ⟨0x1C0B804C, 4, 4⟩
def F.FAB_RUNSTAT.HOPS : Fld := ⟨0x1C0B804C, 8, 5⟩
def F.FAB_TRANSIT.RECORDS : Fld := ⟨0x1C0B8050, 0, 12⟩
def F.EVT_LATCH.LATCH (k : Nat) : Fld := ⟨0x1C040000 + 4 * k, 0, 32⟩
def F.EVT_SWTRIG.TRIG : Fld := ⟨0x1C040100, 0, 16⟩
def F.EVT_CNTSEL.EVENT : Fld := ⟨0x1C040104, 0, 9⟩
def F.EVT_CNT.COUNT : Fld := ⟨0x1C040108, 0, 16⟩
def F.EVT_MSIXACK.ACK : Fld := ⟨0x1C04010C, 0, 32⟩
def F.EVT_ROUTE.LEV (v c : Nat) : Fld := ⟨0x1C040800 + 4 * v, 0 + 5 * c, 4⟩
def F.EVT_ROUTE.EN (v c : Nat) : Fld := ⟨0x1C040800 + 4 * v, 4 + 5 * c, 1⟩
def F.EVT_ROUTE.MSIX (v : Nat) : Fld := ⟨0x1C040800 + 4 * v, 20, 5⟩
def F.EVT_ROUTE.MSIEN (v : Nat) : Fld := ⟨0x1C040800 + 4 * v, 25, 1⟩
def F.EVT_ROUTE.FAULT (v : Nat) : Fld := ⟨0x1C040800 + 4 * v, 26, 1⟩
def F.EVT_ROUTE.ATTN (v : Nat) : Fld := ⟨0x1C040800 + 4 * v, 27, 1⟩
def F.CC_CTL.RUN (c : Nat) : Fld := ⟨0x1C042000 + 0x100 * c, 0, 1⟩
def F.CC_CTL.RESET (c : Nat) : Fld := ⟨0x1C042000 + 0x100 * c, 1, 1⟩
def F.CC_RESETVEC.ADDR (c : Nat) : Fld := ⟨0x1C042004 + 0x100 * c, 0, 32⟩
def F.CC_VBASE.ADDR (c : Nat) : Fld := ⟨0x1C042008 + 0x100 * c, 0, 32⟩
def F.CC_STAT.HALT (c : Nat) : Fld := ⟨0x1C04200C + 0x100 * c, 0, 1⟩
def F.CC_STAT.WAIT (c : Nat) : Fld := ⟨0x1C04200C + 0x100 * c, 1, 1⟩
def F.CC_STAT.ACT (c : Nat) : Fld := ⟨0x1C04200C + 0x100 * c, 2, 1⟩
def F.CC_STAT.CUR (c : Nat) : Fld := ⟨0x1C04200C + 0x100 * c, 4, 4⟩
def F.WDOG_CTL.EN : Fld := ⟨0x1C043000, 0, 1⟩
def F.WDOG_CTL.LIMIT : Fld := ⟨0x1C043000, 8, 24⟩
def F.WDOG_KICK.KEY : Fld := ⟨0x1C043004, 0, 32⟩
def F.WDOG_STAT.EXPIRED : Fld := ⟨0x1C043008, 0, 1⟩
def F.WDOG_STAT.KICKED : Fld := ⟨0x1C043008, 1, 1⟩
def F.WDOG_STAT.BADKICK : Fld := ⟨0x1C043008, 16, 16⟩
def F.QUE_PORT.PAYLOAD (q : Nat) : Fld := ⟨0x1C080000 + 8 * q, 0, 32⟩
def F.QUE_PORT.TAG (q : Nat) : Fld := ⟨0x1C080000 + 8 * q, 32, 4⟩
def F.QUE_PUSH.PAYLOAD (q : Nat) : Fld := ⟨0x1C080800 + 4 * q, 0, 32⟩
def F.QUE_CFG.HI (q : Nat) : Fld := ⟨0x1C081000 + 0x10 * q, 0, 14⟩
def F.QUE_CFG.LO (q : Nat) : Fld := ⟨0x1C081000 + 0x10 * q, 16, 14⟩
def F.QUE_EV.FCMASK (q : Nat) : Fld := ⟨0x1C081004 + 0x10 * q, 0, 8⟩
def F.QUE_EV.LINE (q : Nat) : Fld := ⟨0x1C081004 + 0x10 * q, 8, 5⟩
def F.QUE_EV.WMRISE (q : Nat) : Fld := ⟨0x1C081004 + 0x10 * q, 16, 1⟩
def F.QUE_EV.WMFALL (q : Nat) : Fld := ⟨0x1C081004 + 0x10 * q, 17, 1⟩
def F.QUE_EV.NEMPTY (q : Nat) : Fld := ⟨0x1C081004 + 0x10 * q, 18, 1⟩
def F.QUE_EV.OVF (q : Nat) : Fld := ⟨0x1C081004 + 0x10 * q, 19, 1⟩
def F.QUE_EV.PAR (q : Nat) : Fld := ⟨0x1C081004 + 0x10 * q, 20, 1⟩
def F.QUE_EV.UNDER (q : Nat) : Fld := ⟨0x1C081004 + 0x10 * q, 21, 1⟩
def F.QUE_LEVEL.LEVEL (q : Nat) : Fld := ⟨0x1C081008 + 0x10 * q, 0, 14⟩
def F.QUE_LEVEL.WM (q : Nat) : Fld := ⟨0x1C081008 + 0x10 * q, 14, 1⟩
def F.QUE_LEVEL.DRAIN (q : Nat) : Fld := ⟨0x1C081008 + 0x10 * q, 16, 13⟩
def F.QUE_STAT.PAR (q : Nat) : Fld := ⟨0x1C08100C + 0x10 * q, 0, 8⟩
def F.QUE_STAT.OVF (q : Nat) : Fld := ⟨0x1C08100C + 0x10 * q, 8, 12⟩
def F.QUE_STAT.UNDER (q : Nat) : Fld := ⟨0x1C08100C + 0x10 * q, 20, 12⟩
def F.QUE_CTL.QUEUE : Fld := ⟨0x1C083000, 0, 8⟩
def F.QUE_CTL.FLUSH : Fld := ⟨0x1C083000, 8, 1⟩
def F.QUE_WMSTAT.WM (k : Nat) : Fld := ⟨0x1C083010 + 4 * k, 0, 32⟩
def F.QUE_FCSTAT.FC : Fld := ⟨0x1C083030, 0, 8⟩
def F.PWR_MODE.VOTE : Fld := ⟨0x1C030000, 0, 1⟩
def F.PWR_CTL.TARGET : Fld := ⟨0x1C030004, 0, 2⟩
def F.PWR_CTL.ENTER : Fld := ⟨0x1C030004, 2, 1⟩
def F.PWR_CTL.MS : Fld := ⟨0x1C030004, 12, 20⟩
def F.PWR_STAT.STATE : Fld := ⟨0x1C030008, 0, 3⟩
def F.PWR_STAT.VOTE : Fld := ⟨0x1C030008, 3, 1⟩
def F.PWR_STAT.LAST : Fld := ⟨0x1C030008, 4, 3⟩
def F.PWR_CFG.SLEEPVLOW : Fld := ⟨0x1C03000C, 0, 1⟩
def F.PWR_CFG.DEEPVLOW : Fld := ⟨0x1C03000C, 1, 1⟩
def F.PWR_DOMCFG.IDLEUS (d : Nat) : Fld := ⟨0x1C030020 + 4 * d, 0, 16⟩
def F.PWR_DOMCFG.DOWNUS (d : Nat) : Fld := ⟨0x1C030020 + 4 * d, 16, 15⟩
def F.PWR_DOMCFG.DOWNEN (d : Nat) : Fld := ⟨0x1C030020 + 4 * d, 31, 1⟩
def F.PWR_DOMSTAT.STATE (d : Nat) : Fld := ⟨0x1C030060, 0 + 2 * d, 2⟩
def F.PWR_HOLD.VOTER : Fld := ⟨0x1C030064, 0, 32⟩
def F.PWR_VOTE.MASK (k : Nat) : Fld := ⟨0x1C030080 + 4 * k, 0, 16⟩
def F.PWR_REFUSE_CNT.REFUSED : Fld := ⟨0x1C030100, 0, 16⟩
def F.PWR_REFUSE_CNT.ABORTED : Fld := ⟨0x1C030100, 16, 16⟩
def F.PWR_REFUSE_WHO.VOTER : Fld := ⟨0x1C030104, 0, 5⟩
def F.PWR_REFUSE_WHO.CAUSE : Fld := ⟨0x1C030104, 8, 3⟩
def F.PWR_REFUSE_WHO.TARGET : Fld := ⟨0x1C030104, 12, 2⟩
def F.PWR_BANKRET.RET (k : Nat) : Fld := ⟨0x1C030110 + 4 * k, 0, 32⟩
def F.PWR_RETLOST.LOST (k : Nat) : Fld := ⟨0x1C030120 + 4 * k, 0, 32⟩
def F.PWR_PADHOLD.SAP : Fld := ⟨0x1C030130, 0, 32⟩
def F.PWR_PADHOLD.GPIOL : Fld := ⟨0x1C030130, 32, 1⟩
def F.PWR_PADHOLD.GPIOH : Fld := ⟨0x1C030130, 33, 1⟩
def F.PWR_PADHOLD.FC : Fld := ⟨0x1C030130, 34, 1⟩
def F.PWR_PADHOLD.FAULT : Fld := ⟨0x1C030130, 35, 1⟩
def F.PWR_PADREL.SAP : Fld := ⟨0x1C030138, 0, 32⟩
def F.PWR_PADREL.GPIOL : Fld := ⟨0x1C030138, 32, 1⟩
def F.PWR_PADREL.GPIOH : Fld := ⟨0x1C030138, 33, 1⟩
def F.PWR_PADREL.FC : Fld := ⟨0x1C030138, 34, 1⟩
def F.PWR_PADREL.FAULT : Fld := ⟨0x1C030138, 35, 1⟩
def F.PWR_SENSE.THR (k : Nat) : Fld := ⟨0x1C030140 + 4 * k, 0, 12⟩
def F.PWR_SENSE.HYST (k : Nat) : Fld := ⟨0x1C030140 + 4 * k, 12, 4⟩
def F.PWR_SENSE.DEB (k : Nat) : Fld := ⟨0x1C030140 + 4 * k, 16, 8⟩
def F.PWR_SENSE.POL (k : Nat) : Fld := ⟨0x1C030140 + 4 * k, 24, 1⟩
def F.PWR_SENSE.OUT (k : Nat) : Fld := ⟨0x1C030140 + 4 * k, 31, 1⟩
def F.PWR_WAKECFG.SENSE : Fld := ⟨0x1C030150, 0, 4⟩
def F.PWR_WAKECFG.WAKEPIN : Fld := ⟨0x1C030150, 4, 1⟩
def F.PWR_WAKECFG.LINK : Fld := ⟨0x1C030150, 5, 1⟩
def F.PWR_WAKECFG.HOST : Fld := ⟨0x1C030150, 6, 1⟩
def F.PWR_WAKECFG.ALARM : Fld := ⟨0x1C030150, 7, 1⟩
def F.PWR_WAKECFG.PMBALERT : Fld := ⟨0x1C030150, 8, 1⟩
def F.PWR_WAKESRC.SEEN : Fld := ⟨0x1C030154, 0, 9⟩
def F.PWR_WAKESRC.LAST : Fld := ⟨0x1C030154, 16, 4⟩
def F.PWR_ALARM.AT : Fld := ⟨0x1C030158, 0, 48⟩
def F.PWR_ALARM.EN : Fld := ⟨0x1C030158, 63, 1⟩
def F.PWR_DVFSREQ.LEVEL : Fld := ⟨0x1C030160, 0, 2⟩
def F.PWR_DVFSREQ.KIND : Fld := ⟨0x1C030160, 4, 2⟩
def F.PWR_DVFSREQ.GO : Fld := ⟨0x1C030160, 8, 1⟩
def F.PWR_DVFSSTAT.FIDX : Fld := ⟨0x1C030164, 0, 2⟩
def F.PWR_DVFSSTAT.VIDX : Fld := ⟨0x1C030164, 2, 2⟩
def F.PWR_DVFSSTAT.BUSY : Fld := ⟨0x1C030164, 4, 1⟩
def F.PWR_DVFSSTAT.FAIL : Fld := ⟨0x1C030164, 5, 1⟩
def F.PWR_DVFSSTAT.ORDERERR : Fld := ⟨0x1C030164, 16, 16⟩
def F.PWR_VOPP.MV (n : Nat) : Fld := ⟨0x1C030170 + 4 * n, 0, 12⟩
def F.PWR_PMBCFG.ADDR : Fld := ⟨0x1C030180, 0, 7⟩
def F.PWR_PMBCFG.SPEED : Fld := ⟨0x1C030180, 7, 2⟩
def F.PWR_PMBCFG.PEC : Fld := ⟨0x1C030180, 9, 1⟩
def F.PWR_PMBCFG.VEXP : Fld := ⟨0x1C030180, 10, 5⟩
def F.PWR_PMBCFG.SETTLE : Fld := ⟨0x1C030180, 16, 12⟩
def F.PWR_PMBCFG.TOL : Fld := ⟨0x1C030180, 28, 4⟩
def F.PWR_PMBSTAT.STATUS : Fld := ⟨0x1C030184, 0, 16⟩
def F.PWR_PMBSTAT.VOUT : Fld := ⟨0x1C030184, 16, 12⟩
def F.PWR_PMBSTAT.NACK : Fld := ⟨0x1C030184, 28, 1⟩
def F.PWR_PMBSTAT.TIMEOUT : Fld := ⟨0x1C030184, 29, 1⟩
def F.PWR_PMBSTAT.ALERT : Fld := ⟨0x1C030184, 30, 1⟩
def F.S_COACH.CTL.SETDOM (r : Nat) : Fld := ⟨0x1F000000 + 0x1000 * r + 0x40, 0, 2⟩
def F.S_COACH.CTL.FLOOR (r : Nat) : Fld := ⟨0x1F000000 + 0x1000 * r + 0x40, 2, 2⟩
def F.S_COACH.CTL.SETLEN (r : Nat) : Fld := ⟨0x1F000000 + 0x1000 * r + 0x40, 16, 16⟩
def F.S_COACH.THERM.TBASE (r : Nat) : Fld := ⟨0x1F000000 + 0x1000 * r + 0x44, 0, 8⟩
def F.S_COACH.THERM.TSTEP (r : Nat) : Fld := ⟨0x1F000000 + 0x1000 * r + 0x44, 8, 4⟩
def F.S_COACH.THERM.THYST (r : Nat) : Fld := ⟨0x1F000000 + 0x1000 * r + 0x44, 12, 4⟩
def F.S_COACH.THERM.DWELL (r : Nat) : Fld := ⟨0x1F000000 + 0x1000 * r + 0x44, 16, 8⟩
def F.S_COACH.OPPCAP.CAP (r l : Nat) : Fld := ⟨0x1F000000 + 0x1000 * r + 0x48, 0 + 2 * l, 2⟩
def F.S_COACH.LEVMAP.MAXT (r g l : Nat) : Fld := ⟨0x1F000000 + 0x1000 * r + 0x4C + 4 * g, 0 + 2 * l, 2⟩
def F.COACH_CTL.MODE : Fld := ⟨0x1C110000, 0, 2⟩
def F.COACH_CTL.FLEV : Fld := ⟨0x1C110000, 4, 4⟩
def F.COACH_BUDGET.PBUDGET : Fld := ⟨0x1C110004, 0, 16⟩
def F.COACH_BUDGET.PHYST : Fld := ⟨0x1C110004, 16, 16⟩
def F.COACH_TCRIT.C : Fld := ⟨0x1C110008, 0, 7⟩
def F.COACH_STAT.LEVEL : Fld := ⟨0x1C110010, 0, 4⟩
def F.COACH_STAT.TL : Fld := ⟨0x1C110010, 4, 4⟩
def F.COACH_STAT.PL : Fld := ⟨0x1C110010, 8, 4⟩
def F.COACH_STAT.DWELL : Fld := ⟨0x1C110010, 12, 8⟩
def F.COACH_STAT.TARGET : Fld := ⟨0x1C110010, 20, 2⟩
def F.COACH_STAT.WDEF : Fld := ⟨0x1C110010, 22, 1⟩
def F.COACH_STAT.HOT : Fld := ⟨0x1C110010, 23, 1⟩
def F.COACH_STAT.ACTIVE : Fld := ⟨0x1C110010, 24, 1⟩
def F.COACH_GRP.MAXT (g : Nat) : Fld := ⟨0x1C110014, 0 + 2 * g, 2⟩
def F.COACH_GRP.FADING (g : Nat) : Fld := ⟨0x1C110014, 16 + g, 1⟩
def F.COACH_PWR.P : Fld := ⟨0x1C110018, 0, 16⟩
def F.COACH_PWR.PLEAK : Fld := ⟨0x1C110018, 16, 16⟩
def F.COACH_THOT.T : Fld := ⟨0x1C11001C, 0, 16⟩
def F.COACH_THOT.SENSOR : Fld := ⟨0x1C11001C, 16, 4⟩
def F.COACH_REFUSE.BUSY : Fld := ⟨0x1C110020, 0, 16⟩
def F.COACH_REFUSE.FIT : Fld := ⟨0x1C110020, 16, 16⟩
def F.COACH_TS.T (n : Nat) : Fld := ⟨0x1C110040 + 4 * n, 0, 16⟩
def F.FSPI_CFG.DIV : Fld := ⟨0x1C0E8000, 0, 5⟩
def F.FSPI_CFG.LAT : Fld := ⟨0x1C0E8000, 8, 5⟩
def F.FSPI_CFG.QCMD : Fld := ⟨0x1C0E8000, 16, 8⟩
def F.SYS_READY.FUSE : Fld := ⟨0x1C000040, 0, 1⟩
def F.SYS_READY.HSPI : Fld := ⟨0x1C000040, 1, 1⟩
def F.SYS_READY.PCIE : Fld := ⟨0x1C000040, 2, 1⟩
def F.SYS_READY.CLOCKS : Fld := ⟨0x1C000040, 3, 1⟩
def F.SYS_READY.SECURE : Fld := ⟨0x1C000040, 4, 1⟩
def F.SYS_READY.GUARD : Fld := ⟨0x1C000040, 5, 1⟩
def F.SYS_READY.DELAY : Fld := ⟨0x1C000040, 6, 1⟩
def F.SYS_READY.SLOT : Fld := ⟨0x1C000040, 7, 1⟩
def F.SYS_READY.KICK : Fld := ⟨0x1C000040, 8, 1⟩
def F.SYS_READY.CORES : Fld := ⟨0x1C000040, 9, 1⟩
def F.SYS_READY.LOADED : Fld := ⟨0x1C000040, 10, 1⟩
def F.SYS_READY.VERIFIED : Fld := ⟨0x1C000040, 11, 1⟩
def F.SYS_READY.OUTPUTS : Fld := ⟨0x1C000040, 12, 1⟩
def F.SYS_READY.TIME : Fld := ⟨0x1C000040, 13, 1⟩
def F.SYS_READY.FABRIC : Fld := ⟨0x1C000040, 14, 1⟩
def F.SYS_READY.RECOVERY : Fld := ⟨0x1C000040, 31, 1⟩
def F.BOOT_STAT.SRC : Fld := ⟨0x1C010000, 0, 2⟩
def F.BOOT_STAT.PHASE : Fld := ⟨0x1C010000, 2, 2⟩
def F.BOOT_STAT.SLOT : Fld := ⟨0x1C010000, 4, 1⟩
def F.BOOT_STAT.TIE : Fld := ⟨0x1C010000, 5, 1⟩
def F.BOOT_STAT.AVALID : Fld := ⟨0x1C010000, 6, 1⟩
def F.BOOT_STAT.BVALID : Fld := ⟨0x1C010000, 7, 1⟩
def F.BOOT_STAT.AFAIL : Fld := ⟨0x1C010000, 8, 1⟩
def F.BOOT_STAT.BFAIL : Fld := ⟨0x1C010000, 9, 1⟩
def F.BOOT_STAT.RETRIED : Fld := ⟨0x1C010000, 10, 1⟩
def F.BOOT_STAT.VARIANT : Fld := ⟨0x1C010000, 11, 1⟩
def F.BOOT_STAT.BSDEF : Fld := ⟨0x1C010000, 12, 1⟩
def F.BOOT_POS.BLOCK : Fld := ⟨0x1C010004, 0, 10⟩
def F.BOOT_SEQA.SEQ : Fld := ⟨0x1C010008, 0, 32⟩
def F.BOOT_SEQB.SEQ : Fld := ⟨0x1C01000C, 0, 32⟩
def F.BOOT_FAIL.BLOCK : Fld := ⟨0x1C010010, 0, 10⟩
def F.BOOT_FAIL.SLOT : Fld := ⟨0x1C010010, 10, 1⟩
def F.BOOT_FAIL.CAUSE : Fld := ⟨0x1C010010, 12, 4⟩
def F.BOOT_FAIL.CODE : Fld := ⟨0x1C010010, 16, 8⟩
def F.BOOT_T.KICK : Fld := ⟨0x1C010014, 0, 16⟩
def F.BOOT_T.OPEN : Fld := ⟨0x1C010014, 16, 16⟩
def F.JRN_COUNT.COUNT : Fld := ⟨0x1C000200, 0, 64⟩
def F.JRN_ADDR.ADDR (i : Nat) : Fld := ⟨0x1C001000 + 8 * i, 0, 32⟩
def F.JRN_INFO.PATH (i : Nat) : Fld := ⟨0x1C001004 + 8 * i, 0, 4⟩
def F.JRN_INFO.NOEFFECT (i : Nat) : Fld := ⟨0x1C001004 + 8 * i, 4, 1⟩
def F.JRN_INFO.SEQ (i : Nat) : Fld := ⟨0x1C001004 + 8 * i, 8, 24⟩
def F.SUB_CMD.ROLE : Fld := ⟨0x1C000A00, 0, 6⟩
def F.SUB_CMD.BENCH : Fld := ⟨0x1C000A00, 8, 6⟩
def F.SUB_CMD.NEXT : Fld := ⟨0x1C000A00, 14, 1⟩
def F.SUB_CMD.STRICT : Fld := ⟨0x1C000A00, 15, 1⟩
def F.SUB_CMD.MIRROR : Fld := ⟨0x1C000A00, 16, 16⟩
def F.SUB_CMD.SNAPKO : Fld := ⟨0x1C000A00, 32, 32⟩
def F.SUB_CTL.ABORT : Fld := ⟨0x1C000A08, 0, 1⟩
def F.SUB_CTL.READMIT : Fld := ⟨0x1C000A08, 1, 1⟩
def F.SUB_CTL.PHYS : Fld := ⟨0x1C000A08, 8, 6⟩
def F.SUB_CTL.BROLE : Fld := ⟨0x1C000A08, 16, 6⟩
def F.SUB_STAT.PHASE : Fld := ⟨0x1C000A0C, 0, 3⟩
def F.SUB_STAT.LATE : Fld := ⟨0x1C000A0C, 3, 1⟩
def F.SUB_STAT.SUBFAULT : Fld := ⟨0x1C000A0C, 4, 1⟩
def F.SUB_STAT.MISMATCH : Fld := ⟨0x1C000A0C, 16, 16⟩
def F.SUB_SNAP.KICKOFF : Fld := ⟨0x1C000A10, 0, 32⟩
def F.ENG_HOLDER.PHYS (n : Nat) : Fld := ⟨0x1C000B00 + 4 * n, 0, 6⟩
def F.ENG_HOLDER.VACANT (n : Nat) : Fld := ⟨0x1C000B00 + 4 * n, 8, 1⟩
def F.ENG_GEN.GEN (n : Nat) : Fld := ⟨0x1C000C00 + 4 * n, 0, 8⟩
def F.ENG_FENCE.FENCED (n : Nat) : Fld := ⟨0x10060230 + 0x100000 * n, 0, 1⟩
def F.ENG_FENCE.GENID (n : Nat) : Fld := ⟨0x10060230 + 0x100000 * n, 8, 8⟩
def F.ENG_FENCE.DROP (n : Nat) : Fld := ⟨0x10060230 + 0x100000 * n, 16, 16⟩
def F.FSPI_XCMD.OP : Fld := ⟨0x1C0E8010, 0, 8⟩
def F.FSPI_XCMD.ADDR : Fld := ⟨0x1C0E8010, 8, 1⟩
def F.FSPI_XCMD.DIR : Fld := ⟨0x1C0E8010, 9, 1⟩
def F.FSPI_XCMD.NBYTES : Fld := ⟨0x1C0E8010, 10, 9⟩
def F.FSPI_XCMD.PROTO : Fld := ⟨0x1C0E8010, 19, 2⟩
def F.FSPI_XCMD.DUMMY : Fld := ⟨0x1C0E8010, 21, 5⟩
def F.FSPI_XCMD.GO : Fld := ⟨0x1C0E8010, 31, 1⟩
def F.FSPI_XADDR.ADDR : Fld := ⟨0x1C0E8014, 0, 32⟩
def F.FSPI_XSTAT.BUSY : Fld := ⟨0x1C0E8018, 0, 1⟩
def F.FSPI_BUF.DATA (i : Nat) : Fld := ⟨0x1C0E8100 + 4 * i, 0, 32⟩
def F.BOOT_ACT.GO : Fld := ⟨0x1C010020, 0, 1⟩
def F.BOOT_ACT.CORES : Fld := ⟨0x1C010020, 1, 1⟩
def F.BOOT_ACT.SLOT : Fld := ⟨0x1C010020, 2, 1⟩
def F.BOOT_ACTSTAT.PASS : Fld := ⟨0x1C010024, 0, 2⟩
def F.BOOT_ACTSTAT.RESULT : Fld := ⟨0x1C010024, 2, 2⟩
def F.BOOT_ACTSTAT.BLOCK : Fld := ⟨0x1C010024, 4, 10⟩
def F.LC_STATE.STATE : Fld := ⟨0x1E000000, 0, 2⟩
def F.LC_STATE.TAMPER : Fld := ⟨0x1E000000, 2, 1⟩
def F.LC_STATE.WIPING : Fld := ⟨0x1E000000, 3, 1⟩
def F.LC_ADVANCE.KEY : Fld := ⟨0x1E000004, 0, 32⟩
def F.HSPI_CFG.WLEN : Fld := ⟨0x1C0E0000, 0, 6⟩
def F.HSPI_CFG.DUMMY : Fld := ⟨0x1C0E0000, 8, 8⟩
def F.HSPI_STAT.ALIVE : Fld := ⟨0x1C0E0004, 0, 1⟩
def F.HSPI_STAT.WBUSY : Fld := ⟨0x1C0E0004, 1, 1⟩
def F.HSPI_STAT.WPEND : Fld := ⟨0x1C0E0004, 2, 1⟩
def F.HSPI_STAT.QPEND : Fld := ⟨0x1C0E0004, 3, 1⟩
def F.HSPI_STAT.LATE : Fld := ⟨0x1C0E0004, 4, 1⟩
def F.HSPI_STAT.FRAMEERR : Fld := ⟨0x1C0E0004, 5, 1⟩
def F.HSPI_STAT.ATTN : Fld := ⟨0x1C0E0004, 6, 1⟩
def F.HSPI_STAT.RECOVERY : Fld := ⟨0x1C0E0004, 7, 1⟩
def F.HSPI_STAT.RDAVAIL : Fld := ⟨0x1C0E0004, 16, 9⟩
def F.HSPI_ERR.FRAME : Fld := ⟨0x1C0E0008, 0, 16⟩
def F.HSPI_ERR.LATE : Fld := ⟨0x1C0E0008, 16, 16⟩
def F.CSPI_CFG.CPOL (s : Nat) : Fld := ⟨0x1C0E4000 + 4 * s, 0, 1⟩
def F.CSPI_CFG.CPHA (s : Nat) : Fld := ⟨0x1C0E4000 + 4 * s, 1, 1⟩
def F.CSPI_CFG.LSBF (s : Nat) : Fld := ⟨0x1C0E4000 + 4 * s, 2, 1⟩
def F.CSPI_CFG.WLEN (s : Nat) : Fld := ⟨0x1C0E4000 + 4 * s, 8, 6⟩
def F.CSPI_CFG.DIV (s : Nat) : Fld := ⟨0x1C0E4000 + 4 * s, 16, 8⟩
def F.CSPI_DLY.CSSCK (s : Nat) : Fld := ⟨0x1C0E4020 + 4 * s, 0, 10⟩
def F.CSPI_DLY.SCKCS (s : Nat) : Fld := ⟨0x1C0E4020 + 4 * s, 10, 10⟩
def F.CSPI_DLY.BETWEEN (s : Nat) : Fld := ⟨0x1C0E4020 + 4 * s, 20, 10⟩
def F.CSPI_CMD.SEL : Fld := ⟨0x1C0E4040, 0, 3⟩
def F.CSPI_CMD.KEEP : Fld := ⟨0x1C0E4040, 3, 1⟩
def F.CSPI_CMD.GO : Fld := ⟨0x1C0E4040, 4, 1⟩
def F.CSPI_CMD.NWORDS : Fld := ⟨0x1C0E4040, 8, 7⟩
def F.CSPI_TX.DATA : Fld := ⟨0x1C0E4044, 0, 32⟩
def F.CSPI_RX.DATA : Fld := ⟨0x1C0E4048, 0, 32⟩
def F.CSPI_STAT.BUSY : Fld := ⟨0x1C0E404C, 0, 1⟩
def F.CSPI_STAT.KEPT : Fld := ⟨0x1C0E404C, 1, 1⟩
def F.CSPI_STAT.KSEL : Fld := ⟨0x1C0E404C, 2, 3⟩
def F.CSPI_STAT.TXLVL : Fld := ⟨0x1C0E404C, 8, 7⟩
def F.CSPI_STAT.RXLVL : Fld := ⟨0x1C0E404C, 16, 7⟩
def F.CSPI_STAT.OVF : Fld := ⟨0x1C0E404C, 24, 8⟩
def F.PCIE_STAT.LINKUP : Fld := ⟨0x1C100000, 0, 1⟩
def F.PCIE_STAT.SPEED : Fld := ⟨0x1C100000, 1, 2⟩
def F.PCIE_STAT.WIDTH : Fld := ⟨0x1C100000, 3, 2⟩
def F.PCIE_STAT.PSTATE : Fld := ⟨0x1C100000, 5, 2⟩
def F.PCIE_STAT.D3 : Fld := ⟨0x1C100000, 7, 1⟩
def F.PCIE_ERR.UR : Fld := ⟨0x1C100004, 0, 16⟩
def F.PCIE_ERR.POIS : Fld := ⟨0x1C100004, 16, 16⟩
def F.GPIO_OUT.OUT : Fld := ⟨0x1C0F0000, 0, 32⟩
def F.GPIO_OE.OE : Fld := ⟨0x1C0F0004, 0, 32⟩
def F.GPIO_IN.IN : Fld := ⟨0x1C0F0008, 0, 32⟩
def F.GPIO_SENSE.OUT : Fld := ⟨0x1C0F000C, 0, 4⟩
/-- MSI-X table entry x (R501): message address, data and the vector mask. -/
def Adr.PCIE_MSIX (x : Nat) : Nat := 0x1C101000 + 16 * x
def F.PCIE_MSIX.MASK (x : Nat) : Fld := ⟨0x1C10100C + 16 * x, 0, 1⟩
/-- MSI-X pending bits (R501). -/
def Adr.PCIE_PBA : Nat := 0x1C102000
def F.PCIE_PBA.PEND (x : Nat) : Fld := ⟨0x1C102000, x, 1⟩


/-! ### The rows of each block -/

/-- Registers of block SYS. -/
def rowsSYS : List RegRow := [
  ⟨0x1C000100, 4, 1, 4, 1, false, 0, 0, 0, 0, 0, 0xFFFF0000, 0⟩,
  ⟨0x1C000104, 4, 1, 4, 1, false, 0, 0, 0, 0, 0, 0, 0⟩,
  ⟨0x1C000010, 4, 1, 4, 1, false, 0, 0, 0, 0, 0, 0, 0⟩,
  ⟨0x1C000020, 4, 1, 4, 1, false, 0, 0, 0, 0, 0, 0, 0⟩,
  ⟨0x1C000024, 4, 1, 4, 1, false, 0, 0, 0, 0, 0, 0, 0⟩,
  ⟨0x1C000028, 4, 1, 4, 1, false, 0, 0, 0, 0, 0, 0, 0⟩,
  ⟨0x1C00002C, 4, 1, 4, 1, false, 0, 0, 0, 0, 0, 0, 0⟩,
  ⟨0x1C000030, 4, 1, 4, 1, false, 0, 0, 0, 0, 0, 0, 0⟩,
  ⟨0x1C000038, 8, 1, 8, 1, true, 0, 0, 0, 0, 0, 0, 0⟩,
  ⟨0x1C000110, 4, 1, 4, 1, false, 0, 0, 0, 0, 0, 0xFFFF0000, 0⟩,
  ⟨0x1C000114, 4, 1, 4, 1, false, 0, 0, 0, 0, 0, 0, 0⟩,
  ⟨0x1C000800, 8, 64, 8, 1, true, 0, 0xFFFFFFFFFFFFFFFF, 0, 0, 0, 0, 0⟩,
  ⟨0x1C000040, 4, 1, 4, 1, false, 0, 0, 0, 0, 0, 0, 0⟩,
  ⟨0x1C000200, 8, 1, 8, 1, true, 0, 0, 0, 0, 0, 0, 0⟩,
  ⟨0x1C001000, 8, 256, 4, 1, false, 0, 0, 0, 0, 0, 0, 0⟩,
  ⟨0x1C001004, 8, 256, 4, 1, false, 0, 0, 0, 0, 0, 0, 0⟩,
  ⟨0x1C000A00, 8, 1, 8, 1, true, 0, 0xFFFFFFFFFFFFFF3F, 0, 0, 0, 0, 0⟩,
  ⟨0x1C000A08, 4, 1, 4, 1, false, 0, 0x3F3F00, 3, 0, 0, 0, 0⟩,
  ⟨0x1C000A0C, 4, 1, 4, 1, false, 0, 0, 0, 0, 0, 0, 0⟩,
  ⟨0x1C000A10, 4, 1, 4, 1, false, 0, 0, 0, 0, 0, 0, 0⟩,
  ⟨0x1C000B00, 4, 64, 4, 1, false, 0, 0, 0, 0, 0, 0, 0⟩,
  ⟨0x1C000C00, 4, 64, 4, 1, false, 0, 0, 0, 0, 0, 0, 0⟩ ]

/-- Registers of block BOOT. -/
def rowsBOOT : List RegRow := [
  ⟨0x1C010400, 4, 1, 4, 1, false, 0x100, 0x104, 3, 0, 0, 0, 0⟩,
  ⟨0x1C010404, 4, 1, 4, 1, false, 0, 0xFFFFFFFF, 0, 0, 0, 0, 0⟩,
  ⟨0x1C010408, 4, 1, 4, 1, false, 0, 0xFFFFFF, 0, 0, 0, 0, 0⟩,
  ⟨0x1C01040C, 4, 1, 4, 1, false, 2, 0, 0, 0, 0, 0, 0⟩,
  ⟨0x1C010410, 4, 1, 4, 1, false, 0, 0, 0, 0, 0, 0, 0⟩,
  ⟨0x1C010414, 4, 1, 4, 1, false, 0x2710, 0xFFFF, 0, 0, 0, 0, 0⟩,
  ⟨0x1C010418, 4, 1, 4, 1, false, 0, 0, 0, 0, 0, 0, 0⟩,
  ⟨0x1C01041C, 4, 1, 4, 1, false, 0, 0, 0, 0xFF, 0, 0, 0⟩,
  ⟨0x1C010000, 4, 1, 4, 1, false, 0, 0, 0, 0, 0, 0, 0⟩,
  ⟨0x1C010004, 4, 1, 4, 1, false, 0, 0, 0, 0, 0, 0, 0⟩,
  ⟨0x1C010008, 4, 1, 4, 1, false, 0, 0, 0, 0, 0, 0, 0⟩,
  ⟨0x1C01000C, 4, 1, 4, 1, false, 0, 0, 0, 0, 0, 0, 0⟩,
  ⟨0x1C010010, 4, 1, 4, 1, false, 0, 0, 0, 0, 0, 0, 0⟩,
  ⟨0x1C010014, 4, 1, 4, 1, false, 0, 0, 0, 0, 0, 0, 0⟩,
  ⟨0x1C010020, 4, 1, 4, 1, false, 0, 6, 1, 0, 0, 0, 0⟩,
  ⟨0x1C010024, 4, 1, 4, 1, false, 0, 0, 0, 0, 0, 0, 0⟩ ]

/-- Registers of block DLY. -/
def rowsDLY : List RegRow := [
  ⟨0x1C120000, 4, 1, 4, 1, false, 1, 1, 0, 0, 0, 0, 0⟩,
  ⟨0x1C120010, 4, 8, 4, 1, false, 0, 0xFFFFFFFF, 0, 0, 0, 0, 0⟩,
  ⟨0x1C120030, 4, 4, 4, 1, false, 0, 0, 0, 0, 0, 0, 0⟩,
  ⟨0x1C120040, 4, 1, 4, 1, false, 0, 0, 0, 0, 0, 0, 0⟩,
  ⟨0x1C120044, 4, 1, 4, 1, false, 0xF, 0, 0, 0, 0, 0, 0⟩,
  ⟨0x1C120050, 4, 1, 4, 1, false, 0, 0, 0, 1, 0, 0xFFFF0000, 0⟩,
  ⟨0x1C120054, 4, 1, 4, 1, false, 0, 0, 0, 0, 0, 0, 0⟩,
  ⟨0x1C120060, 4, 1, 4, 1, false, 0, 0, 0, 0, 0, 0xFFFF0000, 0⟩,
  ⟨0x1C120064, 4, 1, 4, 1, false, 0, 0, 0, 0, 0, 0, 0⟩,
  ⟨0x1C120070, 4, 1, 4, 1, false, 0, 0, 0, 0, 0, 0xFFFF0000, 0⟩,
  ⟨0x1C120074, 4, 1, 4, 1, false, 0, 0, 0, 0, 0, 0xFFFF0000, 0⟩ ]

/-- Registers of block SPIN. -/
def rowsSPIN : List RegRow := [
  ⟨0x1C0D0000, 0x100, 16, 4, 1, false, 0, 0, 0, 0xFFF, 0, 0, 0⟩,
  ⟨0x1C0D0004, 0x100, 16, 4, 1, false, 0, 0x1FFF, 0, 0, 0, 0, 0⟩,
  ⟨0x1C0D0008, 0x100, 16, 4, 1, false, 0, 0, 0, 0, 0, 0, 0⟩,
  ⟨0x1C0D000C, 0x100, 16, 4, 1, false, 0xF, 0, 0, 0, 0, 0, 0⟩ ]

/-- Registers of block ROUTE. -/
def rowsROUTE : List RegRow := [
  ⟨0x1C050000, 4, 1, 4, 1, false, 0, 0x307, 0x18, 0, 0, 0, 0⟩,
  ⟨0x1C050004, 4, 1, 4, 1, false, 0, 0xFFFFFFFF, 0, 0, 0, 0, 0⟩,
  ⟨0x1C050008, 4, 1, 4, 1, false, 0, 0, 0xFFFFFFFF, 0, 0, 0, 0⟩,
  ⟨0x1C05000C, 4, 1, 4, 1, false, 0, 0, 0, 0x20000, 0, 0, 0⟩,
  ⟨0x1C050010, 4, 1, 4, 1, false, 0, 0x7FFF, 0, 0, 0, 0, 0⟩,
  ⟨0x1C050014, 4, 1, 4, 1, false, 0x3FFF3FFF, 0, 0, 0, 0, 0, 0⟩,
  ⟨0x1C050018, 4, 1, 4, 1, false, 0, 0, 0, 0, 0, 0, 0⟩,
  ⟨0x1C050020, 4, 4, 4, 1, false, 0x32, 0x33FF, 0, 0, 0, 0, 0⟩,
  ⟨0x1C050030, 4, 1, 4, 1, false, 0, 0x10FFF, 0, 0, 0, 0, 0⟩,
  ⟨0x1C050034, 4, 1, 4, 1, false, 0x8000, 0xFFFF, 0, 0, 0, 0, 0⟩,
  ⟨0x1C050040, 4, 1, 4, 1, false, 0, 0x3FF, 0, 0, 0, 0, 0⟩,
  ⟨0x1C050044, 4, 1, 4, 1, false, 0, 0, 0, 0, 0, 0, 0⟩,
  ⟨0x1C050048, 4, 1, 4, 1, false, 0, 0, 0, 0, 0, 0, 0⟩,
  ⟨0x1C05004C, 4, 1, 4, 1, false, 0xF, 0, 0, 0, 0, 0, 0⟩,
  ⟨0x1C050100, 8, 32, 8, 1, true, 0, 0x3FFFFFFFF, 0, 0, 0, 0, 0⟩,
  ⟨0x1C050200, 8, 16, 8, 1, true, 0, 0x7FFFFFFFFFFFFFFF, 0, 0, 0, 0, 0⟩,
  ⟨0x1C050280, 8, 16, 8, 1, true, 1, 0x7FFFFFFFFFFFFFFF, 0, 0, 0, 0, 0⟩ ]

/-- Registers of block MIX. -/
def rowsMIX : List RegRow := [
  ⟨0x1C060000, 0x1000, 16, 4, 1, false, 0, 2, 5, 0, 0, 0, 0⟩,
  ⟨0x1C060004, 0x1000, 16, 4, 1, false, 0, 0xFFFFFFFF, 0, 0, 0, 0, 0⟩,
  ⟨0x1C060008, 0x1000, 16, 8, 1, true, 0, 0, 0xFFFFFFFFFFFFFFFF, 0, 0, 0, 0⟩,
  ⟨0x1C060010, 0x1000, 16, 4, 1, false, 0, 0, 0, 0x20000, 0, 0xFFF00000, 0⟩,
  ⟨0x1C060014, 0x1000, 16, 4, 1, false, 0, 0x3FFF, 0, 0, 0, 0, 0⟩,
  ⟨0x1C060018, 0x1000, 16, 4, 1, false, 0, 0, 0, 0, 0, 0, 0⟩,
  ⟨0x1C06001C, 0x1000, 16, 4, 1, false, 0, 0, 0, 0, 0, 0, 0⟩,
  ⟨0x1C060020, 0x1000, 16, 4, 4, false, 0x64, 0x7FFF, 0, 0, 0, 0, 0⟩,
  ⟨0x1C060100, 0x1000, 16, 8, 64, true, 0x10A7FFFFFFF, 0x11F7FFFFFFF, 0, 0, 0, 0, 0⟩,
  ⟨0x1C060300, 0x1000, 16, 4, 64, false, 0x80000000, 0, 0, 0, 0, 0, 0⟩ ]

/-- Registers of block SAP. -/
def rowsSAP : List RegRow := [
  ⟨0x1C090000, 0x800, 32, 4, 1, false, 0, 0, 1, 0, 0, 0, 0⟩,
  ⟨0x1C090004, 0x800, 32, 4, 1, false, 0, 0, 0, 0xE, 0, 0xFFFF0000, 0⟩,
  ⟨0x1C090008, 0x800, 32, 4, 1, false, 0, 0, 0, 0, 0, 0, 0⟩,
  ⟨0x1C09000C, 0x800, 32, 4, 1, false, 0, 0, 0, 0, 0, 0xFFFFFFFF, 0⟩ ]

/-- Registers of block ASRC. -/
def rowsASRC : List RegRow := [
  ⟨0x1C0A0000, 0x10, 8, 4, 1, false, 0, 0, 0, 0, 0, 0xFFFF0000, 0⟩,
  ⟨0x1C0A0004, 0x10, 8, 4, 1, false, 0, 0, 0, 0, 0, 0, 0⟩ ]

/-- Registers of block GUARD. -/
def rowsGUARD : List RegRow := [
  ⟨0x1C070000, 0x20, 1024, 4, 1, false, 0x7FFFFFFF, 0, 0, 0, 0, 0, 0x7FFFFFFF⟩,
  ⟨0x1C070004, 0x20, 1024, 4, 1, false, 0xFFFFFFFF, 0, 0, 0, 0, 0, 0xFFFFFFFF⟩,
  ⟨0x1C070008, 0x20, 1024, 4, 1, false, 0xFFFFFFFF, 0, 0, 0, 0, 0, 0xFFFFFFFF⟩,
  ⟨0x1C07000C, 0x20, 1024, 4, 1, false, 0xFFFFFFFF, 0, 0, 0, 0, 0, 0xFFFFFFFF⟩,
  ⟨0x1C070010, 0x20, 1024, 4, 1, false, 0, 0, 0, 0, 0, 0, 0xFFFFFFFF⟩,
  ⟨0x1C070014, 0x20, 1024, 4, 1, false, 0x101810, 0, 0, 0, 0, 0, 0⟩,
  ⟨0x1C078000, 0x10, 1024, 4, 1, false, 0, 0, 0, 0x3C, 0, 0, 0⟩,
  ⟨0x1C078004, 0x10, 1024, 4, 1, false, 0x80000000, 0, 0, 0, 0, 0, 0⟩,
  ⟨0x1C078008, 0x10, 1024, 8, 1, true, 0, 0, 0, 0, 0, 0, 0⟩,
  ⟨0x1C07C000, 4, 1, 4, 1, false, 0, 0, 1, 0, 0, 0, 0⟩,
  ⟨0x1C07C004, 4, 1, 4, 1, false, 0x96012C0, 0, 0, 0, 0, 0, 0xFFFFFFFF⟩,
  ⟨0x1C07C008, 4, 1, 4, 1, false, 0, 0, 0, 0x10, 0, 0, 0⟩,
  ⟨0x1C07C00C, 4, 1, 4, 1, false, 0, 0, 0, 0, 0, 0, 0⟩,
  ⟨0x1C07C010, 4, 1, 4, 1, false, 0, 0, 0, 0, 0, 0xFFFFFFFF, 0⟩ ]

/-- Registers of block CLK. -/
def rowsCLK : List RegRow := [
  ⟨0x1C020000, 4, 6, 4, 1, false, 2, 0, 0, 8, 0, 0xFFFF0000, 0⟩,
  ⟨0x1C020020, 4, 4, 4, 1, false, 0, 1, 0, 0, 0, 0, 0⟩,
  ⟨0x1C020030, 4, 4, 4, 1, false, 0, 0xFFFFFFFF, 0, 0, 0, 0, 0⟩,
  ⟨0x1C020040, 8, 4, 8, 1, true, 0, 0x4007FFFFFFFFFF03, 0x8000000000000000, 0, 0, 0, 0⟩,
  ⟨0x1C020060, 4, 4, 4, 1, false, 0, 0xFFFFFFFF, 0, 0, 0, 0, 0⟩,
  ⟨0x1C020070, 4, 1, 4, 1, false, 0, 0, 0, 0xFF00, 0, 0, 0⟩,
  ⟨0x1C020080, 4, 4, 4, 1, false, 0, 0xFF, 0, 0, 0, 0, 0⟩,
  ⟨0x1C020090, 4, 1, 4, 1, false, 0x186A000, 0x3FFFF01, 0, 0, 0, 0, 0⟩ ]

/-- Registers of block TIME. -/
def rowsTIME : List RegRow := [
  ⟨0x1C0C0000, 4, 1, 4, 1, false, 0x161000, 0x1F1F37, 0, 0, 0, 0, 0⟩,
  ⟨0x1C0C0004, 4, 1, 4, 1, false, 0x100064, 0xFFFFFFF, 0, 0, 0, 0, 0⟩,
  ⟨0x1C0C0008, 4, 1, 4, 1, false, 0, 0, 0, 0, 0, 0xFFFF0000, 0⟩,
  ⟨0x1C0C000C, 4, 1, 4, 1, false, 0, 0, 0, 0, 0, 0, 0⟩,
  ⟨0x1C0C0010, 8, 1, 8, 1, true, 0, 0, 0, 0, 0, 0, 0⟩,
  ⟨0x1C0C0018, 4, 1, 4, 1, false, 0, 0, 0, 0, 0, 0, 0⟩,
  ⟨0x1C0C0020, 8, 1, 8, 1, true, 0, 0, 0xFFFFFFFFFFFFFFFF, 0, 0, 0, 0⟩,
  ⟨0x1C0C0028, 4, 1, 4, 1, false, 0, 0xFFFFFFFF, 0, 0, 0, 0, 0⟩,
  ⟨0x1C0C002C, 4, 1, 4, 1, false, 0, 0xFFFFFFFF, 0, 0, 0, 0, 0⟩,
  ⟨0x1C0C0030, 8, 4, 8, 1, true, 0, 0, 0, 0, 0, 0, 0⟩,
  ⟨0x1C0C0050, 8, 1, 8, 1, true, 0, 0, 0, 0, 0, 0, 0⟩,
  ⟨0x1C0C0058, 4, 1, 4, 1, false, 0x77359400, 0, 0, 0, 0, 0, 0⟩,
  ⟨0x1C0C005C, 4, 1, 4, 1, false, 0x4E20FFFF, 0xFFFF0000, 0, 0, 0, 0, 0⟩,
  ⟨0x1C0C0060, 4, 1, 4, 1, false, 0, 0, 0, 0, 0, 0, 0⟩,
  ⟨0x1C0C0068, 8, 1, 8, 1, true, 0, 0, 0, 0, 0, 0, 0⟩ ]

/-- Registers of block LINK. -/
def rowsLINK : List RegRow := [
  ⟨0x1C0B0000, 0x100, 8, 4, 1, false, 0, 0, 1, 0, 0, 0, 0⟩,
  ⟨0x1C0B0004, 0x100, 8, 4, 1, false, 0, 0, 0, 0x2C0, 0, 0xFFFF0000, 0⟩,
  ⟨0x1C0B0008, 0x100, 8, 4, 1, false, 0, 0, 0, 0, 0, 0xFFFFFFFF, 0⟩,
  ⟨0x1C0B000C, 0x100, 8, 4, 1, false, 0, 0, 0, 0, 0, 0xFFFFFFFF, 0⟩,
  ⟨0x1C0B0010, 0x100, 8, 4, 1, false, 0, 0, 0, 0, 0, 0, 0⟩,
  ⟨0x1C0B0014, 0x100, 8, 4, 1, false, 0x3FF, 0, 0, 0, 0, 0, 0⟩,
  ⟨0x1C0B0020, 0x100, 8, 4, 1, false, 0, 0x11FFF, 0, 0, 0, 0, 0⟩,
  ⟨0x1C0B0024, 0x100, 8, 4, 1, false, 0, 0xDFFFF, 0, 0, 0, 0, 0⟩,
  ⟨0x1C0B8000, 4, 1, 4, 1, false, 0, 0, 1, 0, 0, 0, 0⟩,
  ⟨0x1C0B8004, 4, 1, 4, 1, false, 0x3FFFF00, 0, 0, 0, 0, 0, 0⟩,
  ⟨0x1C0B8008, 4, 1, 4, 1, false, 1, 0, 0, 0, 0, 0xFFFF0000, 0⟩,
  ⟨0x1C0B8010, 8, 1, 8, 1, true, 0, 0, 0, 0, 0, 0, 0⟩,
  ⟨0x1C0B8018, 4, 1, 4, 1, false, 0x3FF, 0, 0, 0, 0, 0, 0⟩,
  ⟨0x1C0B801C, 4, 1, 4, 1, false, 1, 0, 0, 0, 0, 0, 0⟩,
  ⟨0x1C0B8020, 4, 1, 4, 1, false, 0, 0x3FF, 0, 0, 0, 0, 0⟩,
  ⟨0x1C0B8024, 4, 1, 4, 1, false, 0, 0, 0, 0, 0, 0, 0⟩,
  ⟨0x1C0B8028, 4, 1, 4, 1, false, 0, 0, 0, 0, 0, 0xFFFFFFFF, 0⟩,
  ⟨0x1C0B802C, 4, 1, 4, 1, false, 0, 0, 0, 0, 0, 0xFFFFFFFF, 0⟩,
  ⟨0x1C0B8040, 8, 1, 8, 1, true, 0, 0, 0xFFFFFFFFFFFFFFFF, 0, 0, 0, 0⟩,
  ⟨0x1C0B8048, 4, 1, 4, 1, false, 0, 0xFF, 0, 0, 0, 0, 0⟩,
  ⟨0x1C0B804C, 4, 1, 4, 1, false, 0, 0, 0, 0, 0, 0, 0⟩,
  ⟨0x1C0B8050, 4, 1, 4, 1, false, 0, 0, 0, 0, 0, 0, 0⟩ ]

/-- Registers of block EVT. -/
def rowsEVT : List RegRow := [
  ⟨0x1C040000, 4, 16, 4, 1, false, 0, 0, 0, 0xFFFFFFFF, 0, 0, 0⟩,
  ⟨0x1C040100, 4, 1, 4, 1, false, 0, 0, 0, 0, 0xFFFF, 0, 0⟩,
  ⟨0x1C040104, 4, 1, 4, 1, false, 0, 0x1FF, 0, 0, 0, 0, 0⟩,
  ⟨0x1C040108, 4, 1, 4, 1, false, 0, 0, 0, 0, 0, 0xFFFF, 0⟩,
  ⟨0x1C04010C, 4, 1, 4, 1, false, 0, 0, 0xFFFFFFFF, 0, 0, 0, 0⟩,
  ⟨0x1C040800, 4, 512, 4, 1, false, 0, 0xFFFFFFF, 0, 0, 0, 0, 0⟩,
  ⟨0x1C042000, 0x100, 4, 4, 1, false, 0, 1, 2, 0, 0, 0, 0⟩,
  ⟨0x1C042004, 0x100, 4, 4, 1, false, 0x18000000, 0xFFFFFFFF, 0, 0, 0, 0, 0⟩,
  ⟨0x1C042008, 0x100, 4, 4, 1, false, 0x18000000, 0xFFFFFFFF, 0, 0, 0, 0, 0⟩,
  ⟨0x1C04200C, 0x100, 4, 4, 1, false, 0, 0, 0, 0, 0, 0, 0⟩,
  ⟨0x1C043000, 4, 1, 4, 1, false, 0x100000, 0xFFFFFF00, 0, 0, 1, 0, 0⟩,
  ⟨0x1C043004, 4, 1, 4, 1, false, 0, 0, 0xFFFFFFFF, 0, 0, 0, 0⟩,
  ⟨0x1C043008, 4, 1, 4, 1, false, 0, 0, 0, 1, 0, 0xFFFF0000, 0⟩ ]

/-- Registers of block QUE. -/
def rowsQUE : List RegRow := [
  ⟨0x1C080000, 8, 256, 8, 1, true, 0, 0xFFFFFFFFF, 0, 0, 0, 0, 0⟩,
  ⟨0x1C080800, 4, 256, 4, 1, false, 0, 0, 0xFFFFFFFF, 0, 0, 0, 0⟩,
  ⟨0x1C081000, 0x10, 256, 4, 1, false, 0, 0x3FFF3FFF, 0, 0, 0, 0, 0⟩,
  ⟨0x1C081004, 0x10, 256, 4, 1, false, 0, 0x3F1FFF, 0, 0, 0, 0, 0⟩,
  ⟨0x1C081008, 0x10, 256, 4, 1, false, 0, 0, 0, 0, 0, 0, 0⟩,
  ⟨0x1C08100C, 0x10, 256, 4, 1, false, 0, 0, 0, 0, 0, 0xFFFFFFFF, 0⟩,
  ⟨0x1C083000, 4, 1, 4, 1, false, 0, 0xFF, 0x100, 0, 0, 0, 0⟩,
  ⟨0x1C083010, 4, 8, 4, 1, false, 0, 0, 0, 0, 0, 0, 0⟩,
  ⟨0x1C083030, 4, 1, 4, 1, false, 0, 0, 0, 0, 0, 0, 0⟩ ]

/-- Registers of block PWR. -/
def rowsPWR : List RegRow := [
  ⟨0x1C030000, 4, 1, 4, 1, false, 1, 1, 0, 0, 0, 0, 0⟩,
  ⟨0x1C030004, 4, 1, 4, 1, false, 0, 0xFFFFF003, 4, 0, 0, 0, 0⟩,
  ⟨0x1C030008, 4, 1, 4, 1, false, 8, 0, 0, 0, 0, 0, 0⟩,
  ⟨0x1C03000C, 4, 1, 4, 1, false, 0, 3, 0, 0, 0, 0, 0⟩,
  ⟨0x1C030020, 4, 13, 4, 1, false, 0x3E80064, 0xFFFFFFFF, 0, 0, 0, 0, 0⟩,
  ⟨0x1C030060, 4, 1, 4, 1, false, 0, 0, 0, 0, 0, 0, 0⟩,
  ⟨0x1C030064, 4, 1, 4, 1, false, 0x3F, 0, 0, 0, 0, 0, 0⟩,
  ⟨0x1C030080, 4, 32, 4, 1, false, 0xFFFF, 0xFFFF, 0, 0, 0, 0, 0⟩,
  ⟨0x1C030100, 4, 1, 4, 1, false, 0, 0, 0, 0, 0, 0xFFFFFFFF, 0⟩,
  ⟨0x1C030104, 4, 1, 4, 1, false, 0, 0, 0, 0, 0, 0, 0⟩,
  ⟨0x1C030110, 4, 4, 4, 1, false, 0xFFFFFFFF, 0xFFFFFFFF, 0, 0, 0, 0, 0⟩,
  ⟨0x1C030120, 4, 4, 4, 1, false, 0, 0, 0, 0xFFFFFFFF, 0, 0, 0⟩,
  ⟨0x1C030130, 8, 1, 8, 1, true, 0, 0, 0, 0, 0, 0, 0⟩,
  ⟨0x1C030138, 8, 1, 8, 1, true, 0, 0, 0xFFFFFFFFF, 0, 0, 0, 0⟩,
  ⟨0x1C030140, 4, 4, 4, 1, false, 0x1000000, 0x1FFFFFF, 0, 0, 0, 0, 0⟩,
  ⟨0x1C030150, 4, 1, 4, 1, false, 0xF0, 0x1FF, 0, 0, 0, 0, 0⟩,
  ⟨0x1C030154, 4, 1, 4, 1, false, 0xF0000, 0, 0, 0x1FF, 0, 0, 0⟩,
  ⟨0x1C030158, 8, 1, 8, 1, true, 0, 0x8000FFFFFFFFFFFF, 0, 0, 0, 0, 0⟩,
  ⟨0x1C030160, 4, 1, 4, 1, false, 3, 0x33, 0x100, 0, 0, 0, 0⟩,
  ⟨0x1C030164, 4, 1, 4, 1, false, 0xF, 0, 0, 0x20, 0, 0xFFFF0000, 0⟩,
  ⟨0x1C030170, 4, 4, 4, 1, false, 0, 0xFFF, 0, 0, 0, 0, 0⟩,
  ⟨0x1C030180, 4, 1, 4, 1, false, 0x51F452C0, 0xFFFF7FFF, 0, 0, 0, 0, 0⟩,
  ⟨0x1C030184, 4, 1, 4, 1, false, 0, 0, 0, 0x30000000, 0, 0, 0⟩ ]

/-- Registers of block COACH. -/
def rowsCOACH : List RegRow := [
  ⟨0x1C110000, 4, 1, 4, 1, false, 0, 0xF3, 0, 0, 0, 0, 0⟩,
  ⟨0x1C110004, 4, 1, 4, 1, false, 0x1F4FFFF, 0xFFFFFFFF, 0, 0, 0, 0, 0⟩,
  ⟨0x1C110008, 4, 1, 4, 1, false, 0x6E, 0x7F, 0, 0, 0, 0, 0⟩,
  ⟨0x1C110010, 4, 1, 4, 1, false, 0x300000, 0, 0, 0, 0, 0, 0⟩,
  ⟨0x1C110014, 4, 1, 4, 1, false, 0xFFFF, 0, 0, 0, 0, 0, 0⟩,
  ⟨0x1C110018, 4, 1, 4, 1, false, 0, 0, 0, 0, 0, 0, 0⟩,
  ⟨0x1C11001C, 4, 1, 4, 1, false, 0, 0, 0, 0, 0, 0, 0⟩,
  ⟨0x1C110020, 4, 1, 4, 1, false, 0, 0, 0, 0, 0, 0xFFFFFFFF, 0⟩,
  ⟨0x1C110040, 4, 12, 4, 1, false, 0, 0, 0, 0, 0, 0, 0⟩ ]

/-- Registers of block SPI. -/
def rowsSPI : List RegRow := [
  ⟨0x1C0E8000, 4, 1, 4, 1, false, 0xEC1410, 0xFF1F1F, 0, 0, 0, 0, 0⟩,
  ⟨0x1C0E8010, 4, 1, 4, 1, false, 0, 0x3FFFFFF, 0x80000000, 0, 0, 0, 0⟩,
  ⟨0x1C0E8014, 4, 1, 4, 1, false, 0, 0xFFFFFFFF, 0, 0, 0, 0, 0⟩,
  ⟨0x1C0E8018, 4, 1, 4, 1, false, 0, 0, 0, 0, 0, 0, 0⟩,
  ⟨0x1C0E8100, 4, 64, 4, 1, false, 0, 0xFFFFFFFF, 0, 0, 0, 0, 0⟩,
  ⟨0x1C0E0000, 4, 1, 4, 1, false, 0x1020, 0xFF3F, 0, 0, 0, 0, 0⟩,
  ⟨0x1C0E0004, 4, 1, 4, 1, false, 0, 0, 0, 0x30, 0, 0, 0⟩,
  ⟨0x1C0E0008, 4, 1, 4, 1, false, 0, 0, 0, 0, 0, 0xFFFFFFFF, 0⟩,
  ⟨0x1C0E4000, 4, 8, 4, 1, false, 0x102000, 0xFF3F07, 0, 0, 0, 0, 0⟩,
  ⟨0x1C0E4020, 4, 8, 4, 1, false, 0x802008, 0x3FFFFFFF, 0, 0, 0, 0, 0⟩,
  ⟨0x1C0E4040, 4, 1, 4, 1, false, 0, 0x7F0F, 0x10, 0, 0, 0, 0⟩,
  ⟨0x1C0E4044, 4, 1, 4, 1, false, 0, 0, 0xFFFFFFFF, 0, 0, 0, 0⟩,
  ⟨0x1C0E4048, 4, 1, 4, 1, false, 0, 0, 0, 0, 0, 0, 0⟩,
  ⟨0x1C0E404C, 4, 1, 4, 1, false, 0, 0, 0, 0, 0, 0xFF000000, 0⟩ ]

/-- Registers of block LC. -/
def rowsLC : List RegRow := [
  ⟨0x1E000000, 4, 1, 4, 1, false, 0, 0, 0, 0, 0, 0, 0⟩,
  ⟨0x1E000004, 4, 1, 4, 1, false, 0, 0, 0xFFFFFFFF, 0, 0, 0, 0⟩ ]

/-- Registers of block PCIE. -/
def rowsPCIE : List RegRow := [
  ⟨0x1C100000, 4, 1, 4, 1, false, 0, 0, 0, 0, 0, 0, 0⟩,
  ⟨0x1C100004, 4, 1, 4, 1, false, 0, 0, 0, 0, 0, 0xFFFFFFFF, 0⟩,
  ⟨0x1C101000, 16, 32, 8, 1, true, 0, 0xFFFFFFFFFFFFFFFC, 0, 0, 0, 0, 0⟩,
  ⟨0x1C101008, 16, 32, 4, 1, false, 0, 0xFFFFFFFF, 0, 0, 0, 0, 0⟩,
  ⟨0x1C10100C, 16, 32, 4, 1, false, 1, 1, 0, 0, 0, 0, 0⟩,
  ⟨0x1C102000, 4, 1, 4, 1, false, 0, 0, 0, 0, 0, 0, 0⟩ ]

/-- Registers of block GPIO. -/
def rowsGPIO : List RegRow := [
  ⟨0x1C0F0000, 4, 1, 4, 1, false, 0, 0xFFFFFFFF, 0, 0, 0, 0, 0⟩,
  ⟨0x1C0F0004, 4, 1, 4, 1, false, 0, 0xFFFFFFFF, 0, 0, 0, 0, 0⟩,
  ⟨0x1C0F0008, 4, 1, 4, 1, false, 0, 0, 0, 0, 0, 0, 0⟩,
  ⟨0x1C0F000C, 4, 1, 4, 1, false, 0, 0, 0, 0, 0, 0, 0⟩ ]

/-- The rows of the 64 KiB block an address lies in (R504). -/
def blockRows (a : Nat) : List RegRow :=
  match a / 0x10000 with
  | 0x1C00 => rowsSYS
  | 0x1C01 => rowsBOOT
  | 0x1C12 => rowsDLY
  | 0x1C0D => rowsSPIN
  | 0x1C05 => rowsROUTE
  | 0x1C06 => rowsMIX
  | 0x1C09 => rowsSAP
  | 0x1C0A => rowsASRC
  | 0x1C07 => rowsGUARD
  | 0x1C02 => rowsCLK
  | 0x1C0C => rowsTIME
  | 0x1C0B => rowsLINK
  | 0x1C04 => rowsEVT
  | 0x1C08 => rowsQUE
  | 0x1C03 => rowsPWR
  | 0x1C11 => rowsCOACH
  | 0x1C0E => rowsSPI
  | 0x1E00 => rowsLC
  | 0x1C10 => rowsPCIE
  | 0x1C0F => rowsGPIO
  | _ => []

/-- The fields of a region's SRS block that records write (R78, R79), by class code (R76): byte offset in the block,
stride, count and reset value. -/
structure SrsRow where
  off : Nat
  stride : Nat
  count : Nat
  reset : Nat
  deriving DecidableEq, Repr

def srsEng : List SrsRow := [⟨0x40, 4, 1, 0⟩, ⟨0x44, 4, 1, 0⟩, ⟨0x48, 4, 1, 0⟩, ⟨0x4C, 4, 1, 0⟩, ⟨0x50, 4, 1, 0⟩, ⟨0x54, 4, 1, 0xBF80⟩, ⟨0x58, 4, 1, 1⟩]
def srsDly : List SrsRow := [⟨0x40, 4, 1, 0x100⟩, ⟨0x80, 4, 128, 0⟩]
def srsSap : List SrsRow := [⟨0x40, 4, 1, 0x62008⟩, ⟨0x44, 4, 1, 0x200000⟩, ⟨0x48, 4, 1, 3⟩, ⟨0x4C, 4, 1, 3⟩, ⟨0x50, 4, 1, 0x3E⟩, ⟨0x54, 4, 1, 1⟩, ⟨0x58, 4, 1, 0⟩]
def srsLink : List SrsRow := [⟨0x40, 4, 1, 0xFF06⟩, ⟨0x44, 4, 1, 0xC52⟩, ⟨0x48, 4, 1, 0x32⟩]
def srsMix : List SrsRow := [⟨0x40, 4, 1, 0⟩]
def srsRoute : List SrsRow := [⟨0x40, 4, 1, 0x400⟩, ⟨0x44, 4, 1, 0⟩, ⟨0x48, 4, 4, 0⟩, ⟨0x60, 4, 8, 0xF0⟩, ⟨0x58, 4, 1, 0⟩, ⟨0x80, 4, 256, 0⟩, ⟨0x480, 4, 720, 0⟩]
def srsQue : List SrsRow := [⟨0x80, 4, 512, 0⟩]
def srsClk : List SrsRow := [⟨0x40, 4, 1, 25000⟩, ⟨0x44, 4, 1, 400⟩, ⟨0x48, 4, 1, 0⟩, ⟨0x50, 4, 6, 0x100140A4⟩, ⟨0x68, 4, 4, 0⟩, ⟨0x78, 8, 4, 0x8002000⟩, ⟨0x7C, 8, 4, 0xBB80⟩]
def srsCoach : List SrsRow := [⟨0x40, 4, 1, 0x40000C⟩, ⟨0x44, 4, 1, 0x43255⟩, ⟨0x48, 4, 1, 0xFFFFFFFF⟩, ⟨0x4C, 4, 8, 0xFFFFFFFF⟩]
def srsAsrc : List SrsRow := [⟨0x40, 8, 8, 0⟩, ⟨0x44, 8, 8, 0⟩]
def srsEvt : List SrsRow := [⟨0x40, 4, 1, 1⟩, ⟨0x80, 4, 512, 0⟩]
def srsFab : List SrsRow := [⟨0x200, 4, 1, 0x43FF00⟩, ⟨0x204, 4, 1, 0x10040⟩, ⟨0x208, 4, 1, 0x10000⟩, ⟨0x20C, 4, 1, 0⟩]

def srsRows (cls : Nat) : List SrsRow :=
  match cls with
  | 0 => srsEng
  | 1 => srsDly
  | 2 => srsSap
  | 3 => srsLink
  | 4 => srsMix
  | 6 => srsRoute
  | 7 => srsQue
  | 8 => srsClk
  | 9 => srsCoach
  | 10 => srsAsrc
  | 11 => srsEvt
  | 15 => srsFab
  | _ => []

end Sys2Proof.Machine
end

