-- ==== Sys2Proof/Machine/Sparse.lean ====
section
/-! DEFINITION. Sparse storage: a list of (key, value) pairs in one canonical form, keys strictly rising and no
entry equal to what an unlisted key reads as. Memories, tables and register files are held in it, so that equal
contents are equal data. -/

namespace Sys2Proof.Machine

/-- Sparse contents by key. -/
abbrev Sparse (α : Type) := List (Nat × α)

/-- The value listed for a key. -/
def sparseFind {α : Type} : Sparse α → Nat → Option α
  | [], _ => none
  | (k, v) :: m, a => if k = a then some v else sparseFind m a

/-- The value of a key; an unlisted key reads as `dflt a`. -/
def sparseGet {α : Type} (dflt : Nat → α) (m : Sparse α) (a : Nat) : α :=
  (sparseFind m a).getD (dflt a)

/-- The contents without a key. -/
def sparseErase {α : Type} : Sparse α → Nat → Sparse α
  | [], _ => []
  | (k, v) :: m, a => if k = a then sparseErase m a else (k, v) :: sparseErase m a

/-- The contents with a key listed at its place in the order. -/
def sparseInsert {α : Type} : Sparse α → Nat → α → Sparse α
  | [], a, x => [(a, x)]
  | (k, v) :: m, a, x =>
    if a < k then (a, x) :: (k, v) :: m
    else if k = a then (a, x) :: m
    else (k, v) :: sparseInsert m a x

/-- A write: the value an unlisted key reads as removes the entry. -/
def sparsePut {α : Type} [DecidableEq α] (dflt : Nat → α) (m : Sparse α) (a : Nat) (x : α) : Sparse α :=
  if x = dflt a then sparseErase m a else sparseInsert m a x

/-- The keys rise strictly. -/
def sparseSorted {α : Type} : Sparse α → Bool
  | [] => true
  | [_] => true
  | (k, _) :: (k', v') :: m => decide (k < k') && sparseSorted ((k', v') :: m)

/-- The canonical form. -/
def sparseWf {α : Type} [DecidableEq α] (dflt : Nat → α) (m : Sparse α) : Bool :=
  sparseSorted m && m.all (fun e => decide (e.2 ≠ dflt e.1))

/-- Writes `n` consecutive keys from `a` with the values of `f`. -/
def sparseFill {α : Type} [DecidableEq α] (dflt : Nat → α) (f : Nat → α) : Nat → Nat → Sparse α → Sparse α
  | _, 0, m => m
  | a, n + 1, m => sparseFill dflt f (a + 1) n (sparsePut dflt m a (f a))

/-- The contents without the keys from `lo` up to but not including `hi`: those keys read as unlisted. -/
def sparseClear {α : Type} (m : Sparse α) (lo hi : Nat) : Sparse α :=
  m.filter (fun e => decide (¬ (lo ≤ e.1 ∧ e.1 < hi)))

end Sys2Proof.Machine
end

