-- ==== Sys2Proof/Machine/State.lean ====
section
/-! DEFINITION. The state of the device as plain data, and its value right after reset. -/

namespace Sys2Proof.Machine

/-- Why the device stops. The spec names no event after which it stops: no meaning raises this fault, and it stands
for the host's interface alone (safe). -/
inductive Fault where
  | unreachable
  deriving DecidableEq, Repr

/-- Why a command has no meaning in the model. `notModelled` is raised by an arm of exec that has no meaning yet (safe). -/
inductive Refusal where
  | notModelled (mnemonic : String)
  deriving DecidableEq, Repr

/-! ### Engines and control cores -/

/-- An accumulator (R94): 80 bits and one tag. -/
structure QReg where
  v : BitVec 80
  t : Tag
  deriving DecidableEq, Repr

/-- The working registers of one processor (R93 to R96). -/
structure Work where
  d : Vector TWord 16
  q : Vector QReg 4
  a : Vector Word 8
  ap : Vector Bool 8
  m : Vector Word 8
  l : Vector Word 8
  e : Vector Word 8
  deriving DecidableEq, Repr

/-- A stored word that a reservation can name (R141, R374): local data of an engine, delay memory, or the
control-core memories by word. -/
inductive Loc where
  | localData (n : Nat) (w : Nat)
  | delay (w : Nat)
  | ccMem (w : Nat)
  deriving DecidableEq, Repr

/-- A load issued and not yet landed (R123): register, value, and the cycle from which the register holds it. -/
structure PendLoad where
  reg : GReg
  val : TWord
  due : Nat
  deriving DecidableEq, Repr

/-- A division in progress (R146): its destination and result, and the cycle that ends it. -/
structure DivPend where
  gd : GReg
  val : TWord
  dz : Bool
  v : Bool
  sat : Bool
  fail : Bool
  last : Nat
  deriving DecidableEq, Repr

/-- The kinds of access of one cycle that another engine of the role can see (R193, R215, R398, R475). -/
inductive AccKind where
  | delayRead | delayWrite | queuePop | spinGet | bitTas | bitWrite
  deriving DecidableEq, Repr

/-- One access of a processor's latest cycle. -/
structure AccRec where
  kind : AccKind
  addr : Nat
  val : TWord
  deriving DecidableEq, Repr

/-- The status and fault bits, the loads and the reservation as they stood before the X half: an illegal Y half takes X's
back (R117). -/
structure PairMarks where
  v : Bool
  sat : Bool
  tag : Bool
  addr : Bool
  par : Bool
  warn : Bool
  pend : List PendLoad
  resv : Option Loc
  deriving DecidableEq, Repr

/-- What the Y half of a paired word reads: everything as it stood before the X half (R121). -/
structure PairCtx where
  old : Work
  flags : Sparse Word
  team : Sparse Word
  undo : Sparse Cell
  marks : PairMarks
  deriving DecidableEq, Repr

/-- Where a processor is in its rally (R109, R169): not rallying, in the overhead of a kickoff, issuing words, or
ended and padding. -/
inductive Phase where
  | idle | overhead | rallying | ended
  deriving DecidableEq, Repr

/-- How the engine stands to its role in the current rally (R471, R475): holder, substitute in mirror mode, fenced. -/
inductive Own where
  | owner | mirror | fenced
  deriving DecidableEq, Repr

/-- One processor: an engine, or the engine-like part of a control core (R371). -/
structure Engine where
  w : Work
  rs : Vector Word 8
  rsDepth : Nat
  rsTop : Nat
  lc : BitVec 16
  repLeft : Nat
  repN : Nat
  repCur : Nat
  pc : Nat
  npc : Nat
  cur : Nat
  cyc : Nat
  statV : Bool
  statSat : Bool
  statDz : Bool
  statRsw : Bool
  fOvr : Bool
  fRs : Bool
  fIll : Bool
  fTag : Bool
  fAddr : Bool
  fPar : Bool
  fpc : Nat
  chk : Bool
  chkPend : Option Bool
  flags : Sparse Word
  resv : Option Loc
  captured : Sparse Word
  maxt : Nat
  curt : Nat
  fading : Bool
  opp : Nat
  ident : Nat
  kocnt : Nat
  runs : BitVec 4
  limit : Nat
  tierStk : List (Nat × Nat)
  phase : Phase
  cut : Bool
  warn : Bool
  stored : Bool
  role : Nat
  genid : Nat
  mirror : Bool
  bench : Bool
  fenced : Bool
  own : Own
  former : List Nat
  pend : List PendLoad
  div : Option DivPend
  pair : Option PairCtx
  acc : List AccRec
  loc : Sparse Cell
  io : Sparse Cell
  shadow : Sparse Cell
  prog : Sparse Word
  progShadow : Sparse Word
  spin : Vector TWord 8
  deriving DecidableEq, Repr

/-- What a control core has beside the engine-like part (R371 to R381). -/
structure CoreX where
  run : Bool
  halt : Bool
  wait : Bool
  ls : Nat
  le : Nat
  ie : Bool
  curLev : Nat
  act : Bool
  istk : List (Nat × Nat × Bool)
  deriving DecidableEq, Repr

/-! ### Delay memory, Spin units, queues -/

/-- The power state of one delay bank (R207, R209, R210): ready, powering up, sweeping, retained, off. -/
inductive BankSt where
  | on | waking | starting | sweeping | ret | off
  deriving DecidableEq, Repr

/-- A Spin result on its way (R217): unit slot, program, result and status, the engines it is delivered to, and the
rally cycle from which a GET returns it. -/
structure SpinFly where
  slot : Fin 4
  prog : Fin 8
  val : TWord
  v : Bool
  sat : Bool
  dest : List (Fin 68)
  due : Nat
  deriving DecidableEq, Repr

/-- One Spin unit: active and shadow program banks and tables, and the results in flight, oldest first (R217, R226). -/
structure SpinUnit where
  prog : Sparse Word
  progShadow : Sparse Word
  tab : Sparse Cell
  tabShadow : Sparse Cell
  fly : List SpinFly
  deriving DecidableEq, Repr

/-- One hardware queue (R389, R400, R402): the words held, head first, the index of the head in the circular store,
the watermark state, the item positions and pending skips, and the items still in a crossing, oldest first (R395). -/
structure Queue where
  words : List Cell
  head : Nat
  wm : Bool
  ppos : Nat
  cpos : Nat
  popSkip : Nat
  pushSkip : Nat
  crossing : List (List TWord)
  deriving DecidableEq, Repr

/-! ### Structure regions and the loader -/

/-- The state of a present region (the table of S_RGN_STATE). -/
inductive RgnState where
  | empty | running | quiescing | quiesced | incomplete | pending
  deriving DecidableEq, Repr

/-- A region's fade in one rate domain (R82, R83, R85): none; requested, beginning at the next kickoff; fading out at
step i; stopped; resuming at the next kickoff; fading in at step i. -/
inductive Fade where
  | none | req | out (i : Nat) | stopped | resume | into (i : Nat)
  deriving DecidableEq, Repr

/-- One structure region: its state, the state a PENDING region came from (R527), its flags and counts, the targets
marked incomplete (R64), whether its next applied record resets it (R80), and its fades by rate domain. -/
structure Region where
  st : RgnState
  from_ : RgnState
  late : Bool
  lastCode : Nat
  applied : Nat
  rejected : Nat
  resumed : Nat
  marks : List Nat
  resetDue : Bool
  stopMode : Bool
  fades : Vector Fade 4
  deriving DecidableEq, Repr

/-- A region after power-on reset. -/
def Region.reset : Region :=
  ⟨.empty, .empty, false, 0, 0, 0, 0, [], false, true, Vector.replicate 4 .none⟩

/-- The regions by region ID. -/
abbrev Regions := Sparse Region

/-- A region. -/
def Regions.at_ (m : Regions) (r : Nat) : Region := sparseGet (fun _ => Region.reset) m r

/-- The state whose behaviour a region shows: PENDING behaves as the state it came from (R527). -/
def Regions.eff (m : Regions) (r : Nat) : RgnState :=
  let x := Regions.at_ m r
  if x.st = .pending then x.from_ else x.st

/-- Whether a region is QUIESCED or INCOMPLETE, or PENDING from there (R84, R527). -/
def Regions.stopped (m : Regions) (r : Nat) : Bool :=
  decide (Regions.eff m r = .quiesced) || decide (Regions.eff m r = .incomplete)

/-- Whether a region is in service: RUNNING or QUIESCING. -/
def Regions.live (m : Regions) (r : Nat) : Bool :=
  decide (Regions.eff m r = .running) || decide (Regions.eff m r = .quiescing)

/-! ### The device -/

/-- What the fuses and the package fix (R36 to R42). -/
structure Variant where
  engines : Nat
  memH : Bool
  pkgB : Bool
  groups : List Nat
  uid : BitVec 64
  fuseErr : Bool
  deriving DecidableEq, Repr

/-! ### Clocks and time -/

/-- A target kickoff (R69, R158): the count, or none for the next kickoff, and whether it is already late. -/
structure Target where
  at_ : Option Nat
  late : Bool
  deriving DecidableEq, Repr

/-- A write whose handshake into the MEDIA or AON domain has not completed (R19): its data, its address, and its
requester. -/
structure PendWr where
  v : BitVec 64
  addr : Nat
  req : Req
  deriving DecidableEq, Repr

/-- The anchor of a rate domain (R303): count n_k and instant t_k = num / den in ns of time of day. -/
structure Anchor where
  n : Nat
  num : Nat
  den : Nat
  deriving DecidableEq, Repr

/-- An armed handover of a rate domain (R306): its target, the new settings, and the consecutive shadow kickoffs that
fell within one media clock period of their ideal instants. -/
structure Handover where
  target : Target
  pll : Nat
  mdiv : Nat
  kdiv : Nat
  fs : Nat
  aligned : Nat
  deriving DecidableEq, Repr

/-- A word clock output (R317): the settings in effect, the number of its rising edges, and the time left of its high phase,
in 2^-32 ns. -/
structure Wclk where
  en : Bool
  dom : Nat
  inv : Bool
  div : Nat
  rises : Nat
  left : Nat
  deriving DecidableEq, Repr

/-- The device power states (the table of power states): RUN, IDLE, SLEEP, DEEP and OFF. -/
inductive PState where
  | run | idle | sleep | deep | off
  deriving DecidableEq, Repr

/-- The time servo (R312 to R314): its integrator, the last 64 values of the correction, newest first, and the
consecutive events within the lock window. -/
structure Servo where
  i : Int
  hist : List Int
  lockRun : Nat
  deriving DecidableEq, Repr

/-! ### Route frame, mix units, meters -/

/-- One staged route change (R238): sink, source, crossfade profile, and the path it was written through. -/
structure RtChange where
  sink : Nat
  src : Nat
  prof : Nat
  path : Nat
  deriving DecidableEq, Repr

/-- A sink multiplexer (R232, R241): its selects, the fade in progress with position, length and law, the position of
the resolution last completed, and a deferred change. -/
structure Sink where
  sel : Nat
  old : Nat
  fading : Bool
  pos : Nat
  n : Nat
  linear : Bool
  done : Nat
  deferred : Option RtChange
  deriving DecidableEq, Repr

/-- An armed list of route changes (R239). -/
structure RtArmed where
  target : Target
  list : List RtChange
  deriving DecidableEq, Repr

/-- The position of a tier of an engine group in a rate domain (R172, R245): running, fading out, off, fading in. -/
inductive TierMode where
  | run | out | off | into
  deriving DecidableEq, Repr

/-- A tier's position j_t and mode. -/
structure TierFade where
  j : Nat
  mode : TierMode
  deriving DecidableEq, Repr

/-- One crosspoint command (R253). -/
structure XpCmd where
  i : Nat
  o : Nat
  gain : Int
  prof : Nat
  deriving DecidableEq, Repr

/-- A crosspoint (R254): its gain, the ramp's start, target and length, and the resolutions done. -/
structure Xp where
  cur : Int
  g0 : Int
  tgt : Int
  r : Nat
  k : Nat
  deriving DecidableEq, Repr

/-- The limiter of a mix output (R252): past values of a with their tags and of n, newest first, and the gain g. -/
structure Lim where
  a : List (Int × Tag)
  n : List Nat
  g : Nat
  deriving DecidableEq, Repr

/-- One mix unit: crosspoints by 256 × output + input, the staged and the armed list, and the limiters. -/
structure MixUnit where
  xp : Sparse Xp
  staged : List XpCmd
  armed : Option (Target × List XpCmd)
  lim : Sparse Lim
  fill : Tag
  deriving DecidableEq, Repr

/-- A meter tap (R255): the block in progress and the latest results. -/
structure Tap where
  n : Nat
  peak : Nat
  sum : Nat
  worst : Tag
  excl : Nat
  block : Nat
  lPeak : Word
  lRms : Word
  lTag : Tag
  lExcl : Nat
  deriving DecidableEq, Repr

/-! ### Serial audio ports and the Guard -/

/-- The concealment of a transmit slot (R268, R269): its previous output h, h before a run of INVALID samples and the
run's length, the next fade-in index (0: none), and whether the next valid sample starts a fade-in. -/
structure Conc where
  h : Int
  h0 : Int
  run : Nat
  fade : Nat
  due : Bool
  deriving DecidableEq, Repr

/-- A Guard channel (the table after R279), with the value captured at a watchdog expiry and the frames since (R290). -/
structure GuardCh where
  m : Int
  trip : Bool
  gdc : Nat
  gth : Nat
  thc : Int
  thm : Int
  zprev : Int
  hold : Option (Int × Nat)
  deriving DecidableEq, Repr

/-- The frame a port is sending (R260, R292): the values of its enabled slots in ascending order, whether it is muted or gated,
whether WHISTLE_N was asserted at its boundary, and whether it is the first after the bit clock started or the pads were
released. -/
structure SapFrame where
  vals : List TWord
  muted : Bool
  gate : Bool
  whistle : Bool
  fresh : Bool
  deriving DecidableEq, Repr

/-- A serial audio port: frames waiting to be sent and received frames not yet taken, oldest first; whether a receive
frame has completed since the resumption; whether the previous period delivered good input (SAP_OK); the mute's release
request and count; the dither register; the frame being sent; whether the Whistle zeroed a slot of the frame before; whether
it was seen during the present one; whether the next frame is the first after a stop of the bit clock; and, for a master,
the time of day at which its next boundary is due, in 2^-32 ns (R262). -/
structure Sap where
  tx : List (List TWord)
  rx : List (List TWord)
  rxSeen : Bool
  ok : Bool
  unmute : Bool
  clean : Nat
  dith : Word
  frame : Option SapFrame
  zeroed : Bool
  whSeen : Bool
  fresh : Bool
  due : Option Nat
  deriving DecidableEq, Repr

/-- What the register file, the requesters and the events hold. -/
structure DevBus where
  variant : Variant
  free : Nat
  regs : Sparse Word
  readHold : Sparse Word
  writeHold : Sparse Word
  resp : Sparse (BitVec 68)
  wrNone : Bool
  handshake : Sparse (Option PendWr)
  eff : Sparse Word
  evPend : Sparse Nat
  evCnt : Sparse Nat
  msixPend : BitVec 32
  msixSent : Sparse Nat
  pcieFnMask : Bool
  deriving DecidableEq, Repr

/-- Processors, their memories and team bits, and the structure regions. -/
structure DevProc where
  ag : Vector Engine 68
  ccx : Vector CoreX 4
  ccMem : Sparse Cell
  team : Vector (Sparse Word) 8
  regions : Regions
  deriving DecidableEq, Repr

/-- A host-side access that waits at a delay bank (R196, R197): requester, address, bytes, the data of a write, the words
done, whether they had no effect, and the data and tag read so far. -/
structure HostAcc where
  req : Req
  addr : Nat
  n : Nat
  v : Option (BitVec 64)
  done : Nat
  inert : Bool
  got : Nat
  tag : Tag
  deriving DecidableEq, Repr

/-- An access of a requester as it reaches the device, by the command that brings it: a write or a read of some bytes, a W register
written whole, either in the MEDIA domain, a delay access placed in a bank cycle, or a PCIe request. -/
inductive BusOp where
  | write (q : Req) (a n v : Nat)
  | read (q : Req) (a n : Nat)
  | pair (q : Req) (a v : Nat)
  | mediaPair (q : Req) (a v : Nat)
  | mediaWrite (q : Req) (a v : Nat)
  | placed (q : Req) (a n : Nat) (v : Option (BitVec 64)) (p : Place)
  | pcieWrite (addr : Word) (ws : List (Word × BitVec 4))
  | pcieRead (addr : Word) (len : Nat)
  deriving DecidableEq, Repr

/-- Delay memory, with the spare canary cells of its banks by 4 × bank + canary (R211) and the host-side accesses that wait at its banks in the
order they reached them; the accesses that stall until a wake completes (R411); Spin units and hardware queues. -/
structure DevMem where
  delay : Sparse Cell
  banks : Vector BankSt 128
  oldAtomic : Sparse TWord
  memBusy : Bool
  canary : Sparse Cell
  waits : List HostAcc
  stalled : List BusOp
  spin : Vector SpinUnit 16
  que : Vector Queue 256
  deriving DecidableEq, Repr

/-- PLLs, rate domains and time: the band tables as written and as the PLLs take them (R84, R296); `gap` is the time of day,
in 2^-32 ns, from which a domain's next count is found (R304); `ppsDue` says that the latest edge of the time tap passed a whole
second, and `ppsLeft` is what is left of PPS_OUT's high time in 2^-32 ns (R318); `timeWait` is the AON count at A1 while
TIME waits for the lock of its source (R319); `entry` is the target of an entry into a low-power state that has begun (R416), `halted`
the domains that have made their last kickoff in it. -/
structure DevClk where
  bands : Sparse Word
  bandsEff : Sparse Word
  anchors : Vector Anchor 4
  gap : Vector (Option Nat) 4
  started : Vector Bool 4
  ho : Vector (Option Handover) 4
  wclk : Vector Wclk 4
  ppsOut : Bool
  ppsDue : Bool
  ppsLeft : Nat
  timeWait : Option Nat
  marked : Vector (List Nat) 4
  seen : Vector Nat 4
  pstate : PState
  entry : Option Nat
  halted : Vector Bool 4
  servo : Servo
  aonWins : List Nat
  winStart : Nat
  winBad : Bool
  todFrac : Sparse Word
  deriving DecidableEq, Repr

/-- The route frame, its sinks, staged changes, tiers, mix units and meters. -/
structure DevRoute where
  rtCur : Sparse Cell
  rtPrev : Sparse Cell
  engRaw : Sparse TWord
  inVals : Sparse TWord
  bypVals : Sparse TWord
  bypSel : Sparse Nat
  genVals : Sparse Cell
  sinePhase : Sparse Nat
  noiseReg : Sparse Word
  sinks : Sparse Sink
  sinkLast : Sparse TWord
  rtStage : Vector (List RtChange) 4
  rtArmed : Vector (Option RtArmed) 4
  rtLate : Vector Bool 4
  tiers : Sparse TierFade
  resolve : Vector (Option Nat) 4
  fabRx : Sparse Nat
  fabTx : Sparse Nat
  mix : Vector MixUnit 16
  taps : Sparse Tap
  asrcSpan : Sparse (List TWord)
  asrcLast : Sparse TWord
  deriving DecidableEq, Repr

/-- Serial audio ports and the Guard. -/
structure DevPort where
  sap : Vector Sap 32
  conc : Sparse Conc
  guard : Sparse GuardCh
  dout : Sparse Word
  whistle : Bool
  wdHold : Option (Nat × Nat)
  wdRestarted : Bool
  gated : Bool
  deriving DecidableEq, Repr

/-! ### Lyath links and the fabric -/

/-- A frame being received: D1 to D7 of its start block, its data blocks so far, latest first, and its local stamp (R323, R329). -/
structure LyOpen where
  head : BitVec 56
  blocks : List (BitVec 64)
  stamp : Nat
  deriving DecidableEq, Repr

/-- A link (R322 to R343): the last 58 bits of its receive lane, the frame being received and whether one has arrived since the
latest kickoff; training (the latest set and its run, TS2 received and sent, whether EXCHANGE was reached,
the rate a RATE change goes to), the two slot maps in effect and as they will be at the next kickoff (transmit entries
at s, receive entries at 4096 + s), frames received since the latest kickoff and the content taken there, the partner
frame to echo, the last four frames sent, the delay measurements, the cells received and the cells to send, and the
latest frame sent. -/
structure LinkX where
  rxScr : BitVec 58
  rxOpen : Option LyOpen
  arrived : Bool
  lastSet : Option (Nat × Nat × Nat)
  setRun : Nat
  ts2rx : Nat
  ts2tx : Nat
  reached : Bool
  slow : Bool
  map : Sparse Nat
  mapNext : Sparse Nat
  frames : List (Nat × List (BitVec 36))
  content : Sparse TWord
  echo : Option (Nat × Nat)
  sent : List (Nat × Nat)
  delays : List Int
  measured : Nat
  since : Nat
  rxCells : List LyCell
  txCells : List LyCell
  txFrame : Option LyFrame
  deriving DecidableEq, Repr

/-- An adjacency (R351 to R354, R367): FULL or not, the UID, epoch, Captain flag, distance and lock the partner last
gave, whether a HELLO came in the current exchange, the epoch to ask for, and the frames of the last acceptance and the
last HELLO sent. -/
structure Adj where
  full : Bool
  uid : Option Nat
  recEpoch : Nat
  seen : Bool
  last : Nat
  req : Nat
  capt : Bool
  tdist : Nat
  tlock : Bool
  accAt : Nat
  helloAt : Nat
  deriving DecidableEq, Repr

/-- The part 0 of an LSA (R346). -/
structure Part0 where
  prio : Nat
  pref : Nat
  addr : Nat
  full : Nat
  tlock : Bool
  deriving DecidableEq, Repr

/-- A node of the database (R355): its UID and epoch, part 0, its neighbours by link (UID and epoch), and the frame
from which it has been unreachable. -/
structure DbNode where
  uid : Nat
  epoch : Nat
  p0 : Option Part0
  nb : Sparse (Nat × Nat)
  lost : Option Nat
  deriving DecidableEq, Repr

/-- The identity of a flooded cell (R348). -/
structure CellId where
  ctype : Nat
  a : Nat
  b : Nat
  c : Nat
  deriving DecidableEq, Repr

/-- A tombstone (R352). -/
structure Tomb where
  uid : Nat
  epoch : Nat
  at_ : Nat
  addr : Nat
  deriving DecidableEq, Repr

/-- A run of this node (R361): state 0 IDLE, 1 SETUP, 2 ACTIVE, 3 FAILED. -/
structure OwnRun where
  st : Nat
  reason : Nat
  hops : Nat
  dst : Nat
  ochan : Nat
  count : Nat
  link : Nat
  slot : Nat
  at_ : Nat
  deriving DecidableEq, Repr

/-- A run record of a transit or destination node (R362, R363): out is the next link and its first slot. -/
structure RunRec where
  orig : Nat
  epoch : Nat
  run : Nat
  dst : Nat
  inLink : Nat
  inSlot : Nat
  out : Option (Nat × Nat)
  count : Nat
  dchan : Nat
  hops : Nat
  deriving DecidableEq, Repr

/-- The fabric node (R346 to R369): fabric frames counted, adjacencies, database, seen and own sequence numbers,
tombstones, own runs and run records, the frame of the latest database change and whether its quiet has ended, the chosen
and the confirmed Captain (UID, epoch), the last GEN flooded, the frame of the latest CAPTAIN whose GEN is being granted, whether a GRANT
of it or a later one named this node, and the GEN of the latest that did, the part 0 last flooded, the time link, the isolation (whether an adjacency was held, since when none, and
whether the join of this period took place), the frame of the last re-flood, and whether FAB_STALE counted this period. -/
structure FabNode where
  frame : Nat
  adj : Vector Adj 8
  db : List DbNode
  seen : List (CellId × Nat)
  seqs : List (CellId × Nat)
  tombs : List Tomb
  runs : Sparse OwnRun
  recs : List RunRec
  dbAt : Nat
  quiet : Bool
  choice : Option Nat
  capt : Option (Nat × Nat)
  genSent : Nat
  genAt : Option Nat
  genMine : Bool
  mineGen : Nat
  lastP0 : Option Part0
  tup : Option Nat
  held : Bool
  aloneAt : Nat
  rejoined : Bool
  refloodAt : Nat
  staleNow : Bool
  deriving DecidableEq, Repr

/-- Lyath links and the fabric node. -/
structure DevFab where
  link : Vector LinkX 8
  fab : FabNode
  deriving DecidableEq, Repr

/-! ### The loader -/

/-- An accepted COMMIT (R66): its target, the swaps with their masks, the regions it resumes, the load path it came by
(0 boot, 1 commanded, 2 queue 0), and whether it waits for its batch's END (R74). -/
structure Commit where
  target : Target
  coef : Bool
  prog : Bool
  spin : Bool
  egMask : Nat
  spinMask : Nat
  rlist : List Nat
  path : Nat
  held : Bool
  deriving DecidableEq, Repr

/-- A load path (R87 to R91): the words taken of the record in progress; the words supplied and not yet taken (a boot
block's, or a flash source's); for TABLE and PROGRAM the code of the header checks (0 passed) once they are made, and
whether a payload word broke a field rule; whether a batch is open, its running CRC, whether the latest batch passed, the regions it applied records to
(with whether each kept running), the targets it wrote that R64 handles as shadow banks, the regions it left INCOMPLETE
itself; and the regions a boot slot has applied records to (R463). -/
structure LdrPath where
  got : List Word
  feed : List Word
  judged : Option Nat
  badField : Bool
  batch : Bool
  crc : Word
  passed : Bool
  applied : List (Nat × Bool)
  shadows : List (Nat × Nat)
  broken : List Nat
  load : List Nat
  deriving DecidableEq, Repr

/-- The load paths and the pending COMMITs by rate domain; the words left of a commanded load, the path served last (R90) and the ABORT request; the words left of a boot image. -/
structure DevLdr where
  ldr : Vector LdrPath 3
  commits : Vector (List Commit) 4
  cmdLeft : Option Nat
  lastPath : Option (Fin 3)
  cmdAbort : Bool
  imgLeft : Nat
  deriving DecidableEq, Repr

/-! ### The Coach, the voltage and frequency sequencer, substitution -/

/-- A step of the voltage and frequency sequencer (R432): to a frequency index, or to a voltage index. -/
inductive DvfsStep where
  | freq (n : Nat)
  | volt (n : Nat)
  deriving DecidableEq, Repr

/-- A substitution in COPY or MIRROR (R472 to R477): the roles, the original and the substitute by physical number, the
target of its snapshot, STRICT, the mirror rallies asked for, the count of the snapshot kickoff, whether the copy has ended, and whether it
mirrors. -/
structure Subst where
  role : Nat
  bench : Nat
  orig : Fin 68
  phys : Fin 68
  target : Target
  strict : Bool
  mirror : Nat
  at_ : Nat
  copied : Bool
  mirroring : Bool
  deriving DecidableEq, Repr

/-- The Coach (R437 to R446): activity counts by class, its operating-point request for the next set, whether sets are counted and the decision of the present set is taken, the domains in which a set begins at the next kickoff, the tiers allowed in the current set by domain and group, and the roles whose next rally is the first after a resumption that reads SET_FIRST; the sequencer's steps and whether the Coach asked for them; the substitution in progress and the readmissions that wait, physical engine and bench role. -/
structure DevCoach where
  act : Sparse Nat
  coachReq : Option Nat
  counting : Bool
  decided : Bool
  setDue : Vector Bool 4
  setMaxt : Sparse Nat
  firstRally : List Nat
  dvfs : List DvfsStep
  dvfsCoach : Bool
  sub : Option Subst
  readmits : List (Fin 68 × Nat)
  deriving DecidableEq, Repr

/-- The secure partition by word, and its contents as the latest reset sequence read them (R286, R482); the life-cycle
fuses: 0 BLANK, 1 MANUFACTURE, 2 DEPLOYED, 3 RETURNED (R483); a wipe in progress, and whether one took place since the
latest reset (R484). -/
structure DevSec where
  part : Sparse Word
  partAt : Sparse Word
  lc : Nat
  wiping : Bool
  tampered : Bool
  deriving DecidableEq, Repr

/-- A valid slot header (R454): SEQ, NBLK, IMGLEN and FSPIBLK. -/
structure SlotHdr where
  seq : Nat
  nblk : Nat
  imglen : Nat
  fspiblk : Nat
  deriving DecidableEq, Repr

/-- The reading of a slot (R458): its blocks and bytes, the blocks read, the words of them, whether the next block has
been read once and failed, the words of a pushed block so far, the blocks in the buffers, oldest first, with whether a
RECORDS block's payload has been handed to the records, the blocks and the words applied, whether the latest record ended
a batch, the cores its START blocks name, and for a verify pass the CRC of its open batch (R481). -/
structure SlotRd where
  slot : Nat
  nblk : Nat
  imglen : Nat
  next : Nat
  words : Nat
  retried : Bool
  got : List Word
  bufs : List (List Word)
  fed : Bool
  applied : Nat
  done : Nat
  lastEnd : Bool
  cores : Nat
  crc : Option Word
  deriving DecidableEq, Repr

/-- The boot (R449 to R468): RESET_N low, VDD_AON present, PERST_N high; ns since the boot began and whether a kickoff has
occurred since; the slot headers read, with those that are valid; the slot being loaded; a host push
failure whose words are being discarded, and one without a header since, with the boot's time at that failure; and the slot
being activated (R481). -/
structure DevBoot where
  rstLow : Bool
  powered : Bool
  perst : Bool
  bootNs : Nat
  kicked : Bool
  hdrs : Vector (Option (Option SlotHdr)) 2
  boot : Option SlotRd
  pushFail : Bool
  pushWait : Bool
  pushNs : Nat
  pushHdr : List Word
  live : Option SlotRd
  deriving DecidableEq, Repr

/-- An operation of HSPI that waits (R490 to R492): a posted word to write, with whether it is the last of its frame; a
posted word to read; or a READ word that came too late for its frame, with whether it was shifted out whole. -/
inductive HspiOp where
  | write (addr : Nat) (v : Word) (last : Bool)
  | read (addr : Nat)
  | peek (addr : Nat) (whole : Bool)
  deriving DecidableEq, Repr

/-- The CSPI FIFOs and the command that runs (select, words, KEEP) (R494 to R498); HSPI's posted operations, oldest first,
its read buffer (none: not completed), and the byte and the data words its latest frame shifted out (R488 to R492); the PCIe function's MSI-X
enable, BAR0 base, payload size code and the words of its latest completion (R499 to R502); the levels at the GPIO pads
used as inputs (R507); the watchdog's count, in cycles of CTRL times 1,000 (R382); and, in ns, the counts of the power domains'
timers (R410) and of the device timer (R414), the time since
the servo's latest reference event (R313) and the time since queue 0's latest word (R87). -/
structure DevHost where
  cspiTx : List Word
  cspiRx : List Word
  cspiRun : Option (Nat × Nat × Bool)
  hspiOps : List HspiOp
  hspiBuf : List (Option Word)
  hspiByte : Nat
  hspiOut : List Word
  pcieMsixEn : Bool
  pcieBar : Nat
  pcieMps : Nat
  pcieCpl : List Word
  gpioPads : Word
  wdCycles : Nat
  domNs : Vector Nat 13
  devNs : Nat
  refNs : Nat
  q0Ns : Nat
  deriving DecidableEq, Repr

/-- Power (R414 to R429): an exit in progress; the wake that came during an entry; T0 and A0 (R319); what the held pads
were latched at (GPIO levels and drivers, FC levels, FAULT_N driven, the ports whose clocks were outputs); the consecutive samples at 1 of each comparator (R422); the SAP releases that wait for a frame boundary;
and the STATUS_WORD to be read when the bus runs again. -/
structure DevPwr where
  exiting : Bool
  wakePend : Option Nat
  restT0 : Nat
  restA0 : Nat
  padOut : Word
  padOe : Word
  padFc : Nat
  padFault : Bool
  padMaster : BitVec 32
  senseRun : Vector Nat 4
  sapRel : BitVec 32
  pmbDue : Option Nat
  deriving DecidableEq, Repr

/-- The device: everything but the queue of commands. -/
structure Device extends DevBus, DevProc, DevMem, DevClk, DevRoute, DevPort, DevFab, DevLdr, DevCoach, DevSec, DevBoot, DevHost, DevPwr where
  deriving DecidableEq, Repr

/-- The state: the queue of waiting commands, first in first out, and the device. -/
structure State where
  pending : List Instr
  dev : Device
  deriving DecidableEq, Repr

/-! ### Reset -/

/-- What an unlisted word of tagged storage reads as: never written since reset, tag UNINIT (R22); payload 0. -/
def cellUninit (_ : Nat) : Cell := ⟨⟨0, .uninit⟩, false⟩

/-- What an unlisted word of the exchange buffers reads as: payload 0 with tag INVALID (R166, R167). -/
def cellInvalid (_ : Nat) : Cell := ⟨⟨0, .invalid⟩, false⟩

/-- What an unlisted untagged word reads as. -/
def wordZero (_ : Nat) : Word := 0

/-- What an unlisted count reads as. -/
def natZero (_ : Nat) : Nat := 0

/-- The working registers after power-on reset or a region reload (R103). -/
def Work.reset : Work where
  d := Vector.replicate 16 (TWord.zero .uninit)
  q := Vector.replicate 4 ⟨0, .uninit⟩
  a := Vector.replicate 8 0
  ap := Vector.replicate 8 false
  m := Vector.replicate 8 0
  l := Vector.replicate 8 0
  e := Vector.replicate 8 0

/-- A processor after power-on reset (R103). -/
def Engine.reset (n : Nat) : Engine where
  w := Work.reset
  rs := Vector.replicate 8 0
  rsDepth := 0
  rsTop := 0
  lc := 0
  repLeft := 0
  repN := 0
  repCur := 0
  pc := 0
  npc := 0
  cur := 0
  cyc := 0
  statV := false
  statSat := false
  statDz := false
  statRsw := false
  fOvr := false
  fRs := false
  fIll := false
  fTag := false
  fAddr := false
  fPar := false
  fpc := 0
  chk := false
  chkPend := none
  flags := []
  resv := none
  captured := []
  maxt := 3
  curt := 0
  fading := false
  opp := 3
  ident := n % 64 * 0x101 + 2 ^ 16 * (n % 64 / 8)
  kocnt := 0
  runs := 0
  limit := 0
  tierStk := []
  phase := .idle
  cut := false
  warn := false
  stored := false
  role := n
  genid := 0
  mirror := false
  bench := false
  fenced := false
  own := .owner
  former := []
  pend := []
  div := none
  pair := none
  acc := []
  loc := []
  io := []
  shadow := []
  prog := []
  progShadow := []
  spin := Vector.replicate 8 (TWord.zero .uninit)

/-- A control core held after reset (R376). -/
def CoreX.reset : CoreX where
  run := false
  halt := false
  wait := false
  ls := 0
  le := 0
  ie := false
  curLev := 0
  act := false
  istk := []

/-- A Spin unit after reset. -/
def SpinUnit.reset : SpinUnit where
  prog := []
  progShadow := []
  tab := []
  tabShadow := []
  fly := []

/-- An empty queue. -/
def Queue.reset : Queue where
  words := []
  head := 0
  wm := false
  ppos := 0
  cpos := 0
  popSkip := 0
  pushSkip := 0
  crossing := []

/-- The part the model describes when its fuses are as manufactured for a TSD64FL (a log entry names the choice). -/
def Variant.full : Variant where
  engines := 64
  memH := false
  pkgB := false
  groups := []
  uid := 0x0123456789ABCDEF
  fuseErr := false

/-- No pending handshake write. -/
def noPend (_ : Nat) : Option PendWr := none

/-- A sink after power-on reset or a route graph reload (R232). -/
def Sink.reset : Sink := ⟨0x3FFF, 0x3FFF, false, 0, 0, false, 0, none⟩

/-- A mix unit after reset. -/
def MixUnit.reset : MixUnit := ⟨[], [], none, [], .sample⟩

/-- A meter tap after reset. -/
def Tap.reset : Tap := ⟨0, 0, 0, .sample, 0, 0, 0, 0, .uninit, 0⟩

/-- A transmit slot's concealment after reset (R268). -/
def Conc.reset : Conc := ⟨0, 0, 0, 0, false⟩

/-- A Guard channel after power-on reset (R281). -/
def GuardCh.reset : GuardCh := ⟨0, false, 2 ^ 31, 2 ^ 31, 0, 0, 0, none⟩

/-- A serial audio port after reset. -/
def Sap.reset : Sap := ⟨[], [], false, false, false, 0, 0, none, false, false, true, none⟩

/-- A link after reset. -/
def LinkX.reset : LinkX where
  rxScr := 0
  rxOpen := none
  arrived := false
  lastSet := none
  setRun := 0
  ts2rx := 0
  ts2tx := 0
  reached := false
  slow := false
  map := []
  mapNext := []
  frames := []
  content := []
  echo := none
  sent := []
  delays := []
  measured := 0
  since := 0
  rxCells := []
  txCells := []
  txFrame := none

/-- An adjacency after reset. -/
def Adj.reset : Adj := ⟨false, none, 0, false, 0, 0, false, 0xFF, false, 0, 0⟩

/-- The fabric node after reset. -/
def FabNode.reset : FabNode where
  frame := 0
  adj := Vector.replicate 8 Adj.reset
  db := []
  seen := []
  seqs := []
  tombs := []
  runs := []
  recs := []
  dbAt := 0
  quiet := true
  choice := none
  capt := none
  genSent := 0
  genAt := none
  genMine := false
  mineGen := 0
  lastP0 := none
  tup := none
  held := false
  aloneAt := 0
  rejoined := true
  refloodAt := 0
  staleNow := false

/-- The CRC register at the start of a message (R59). -/
def crcInit : Word := 0xFFFFFFFF

/-- A load path with nothing in progress. -/
def LdrPath.reset : LdrPath := ⟨[], [], none, false, false, crcInit, false, [], [], [], []⟩

/-- The device right after reset (R9, R103, R207, R210, R376). -/
def Device.reset : Device where
  variant := Variant.full
  free := 0
  regs := []
  readHold := []
  writeHold := []
  resp := []
  evPend := []
  evCnt := []
  msixPend := 0
  ag := Vector.ofFn (fun n => Engine.reset n.val)
  ccx := Vector.replicate 4 CoreX.reset
  ccMem := []
  team := Vector.replicate 8 []
  delay := []
  banks := Vector.replicate 128 .sweeping
  oldAtomic := []
  memBusy := false
  canary := []
  waits := []
  stalled := []
  spin := Vector.replicate 16 SpinUnit.reset
  que := Vector.replicate 256 Queue.reset
  msixSent := []
  pcieFnMask := false
  regions := []
  wrNone := false
  handshake := []
  eff := []
  bands := []
  bandsEff := []
  anchors := Vector.replicate 4 ⟨0, 0, 1⟩
  gap := Vector.replicate 4 none
  started := Vector.replicate 4 false
  ho := Vector.replicate 4 none
  wclk := Vector.replicate 4 ⟨false, 0, false, 0, 0, 0⟩
  ppsOut := false
  ppsDue := false
  ppsLeft := 0
  timeWait := none
  marked := Vector.replicate 4 []
  seen := Vector.replicate 4 0
  pstate := .run
  entry := none
  halted := Vector.replicate 4 false
  servo := ⟨0, [], 0⟩
  aonWins := []
  winStart := 0
  winBad := false
  todFrac := []
  rtCur := []
  rtPrev := []
  engRaw := []
  inVals := []
  bypVals := []
  bypSel := []
  genVals := []
  sinePhase := []
  noiseReg := []
  sinks := []
  sinkLast := []
  rtStage := Vector.replicate 4 []
  rtArmed := Vector.replicate 4 none
  rtLate := Vector.replicate 4 false
  tiers := []
  resolve := Vector.replicate 4 none
  fabRx := []
  fabTx := []
  mix := Vector.replicate 16 MixUnit.reset
  taps := []
  asrcSpan := []
  asrcLast := []
  sap := Vector.replicate 32 Sap.reset
  conc := []
  guard := []
  dout := []
  whistle := false
  wdHold := none
  wdRestarted := false
  gated := true
  link := Vector.replicate 8 LinkX.reset
  fab := FabNode.reset
  ldr := Vector.replicate 3 LdrPath.reset
  commits := Vector.replicate 4 []
  cmdLeft := none
  lastPath := none
  cmdAbort := false
  imgLeft := 0
  act := []
  coachReq := none
  counting := false
  decided := false
  setDue := Vector.replicate 4 false
  setMaxt := []
  firstRally := []
  dvfs := []
  dvfsCoach := false
  sub := none
  readmits := []
  part := []
  partAt := []
  lc := 0
  wiping := false
  tampered := false
  rstLow := false
  powered := true
  perst := false
  bootNs := 0
  kicked := false
  hdrs := Vector.replicate 2 none
  boot := none
  pushFail := false
  pushWait := false
  pushNs := 0
  pushHdr := []
  live := none
  cspiTx := []
  cspiRx := []
  cspiRun := none
  hspiOps := []
  hspiBuf := []
  hspiByte := 0
  hspiOut := []
  pcieMsixEn := false
  pcieBar := 0
  pcieMps := 0
  pcieCpl := []
  gpioPads := 0
  wdCycles := 0
  domNs := Vector.replicate 13 0
  devNs := 0
  refNs := 0
  q0Ns := 0
  exiting := false
  wakePend := none
  restT0 := 0
  restA0 := 0
  padOut := 0
  padOe := 0
  padFc := 0
  padFault := false
  padMaster := 0
  senseRun := Vector.replicate 4 0
  sapRel := 0
  pmbDue := none

/-- The state right after reset: an empty queue and the device as reset leaves it. -/
def State.reset : State where
  pending := []
  dev := Device.reset

end Sys2Proof.Machine
end

