-- ==== Sys2Proof/Machine/Ops.lean ====
section
/-! DEFINITION. The named operations every family shares: presence of units (R36 to R38), the register file, raising
and delivering events (R18, R384 to R386), rejections (R35), absent accesses (R43, R48), the journal (R485), and the
tagged storages. -/

namespace Sys2Proof.Machine

/-! ### Presence of units -/

/-- Engines present (R36, R42). -/
def engCount (d : Device) : Nat := if d.variant.fuseErr then 0 else d.variant.engines

/-- Delay bank groups present (R36, R42). -/
def groupCount (d : Device) : Nat := if d.variant.fuseErr then 0 else if d.variant.memH then 8 else 16

/-- Logical delay banks present (R36). -/
def bankCount (d : Device) : Nat := 8 * groupCount d

/-- Serial audio ports present (R36). -/
def sapCount (d : Device) : Nat := if d.variant.pkgB then 16 else 32

/-- Links present (R36). -/
def linkCount (d : Device) : Nat := if d.variant.pkgB then 4 else 8

/-- Whether the part has the PCIe endpoint (R36). -/
def hasPcie (d : Device) : Bool := !d.variant.pkgB

/-- Spin units present: one for every four engines. -/
def spinCount (d : Device) : Nat := engCount d / 4

/-- The class code of a region ID (R76); none is a reserved ID. -/
def regionClass (r : Nat) : Option Nat :=
  if r < 0x40 then some 0
  else if r < 0x50 then some 1
  else if r < 0x70 then some 2
  else if r < 0x78 then some 3
  else if r < 0x80 then none
  else if r < 0x90 then some 4
  else if r < 0xA0 then some 5
  else if r < 0xA6 then some (6 + (r - 0xA0))
  else if r = 0xFF then some 15
  else none

/-- Whether a region exists in the variant (R37, R76). -/
def regionPresent (d : Device) (r : Nat) : Bool :=
  match regionClass r with
  | none => false
  | some 0 => decide (r < engCount d)
  | some 1 => decide (r - 0x40 < groupCount d)
  | some 2 => decide (r - 0x50 < sapCount d)
  | some 3 => decide (r - 0x70 < linkCount d)
  | some 5 => decide (r - 0x90 < spinCount d)
  | some _ => true

/-! ### The register file -/

/-- The row a word address lies in, and whether it is the high half of a W register. -/
def rowOf : List RegRow → Nat → Option (RegRow × Bool)
  | [], _ => none
  | r :: rs, a =>
    let o := a - r.base
    let t := o % r.s1 % r.s2
    if r.base ≤ a ∧ o / r.s1 < r.n1 ∧ o % r.s1 / r.s2 < r.n2 ∧ (t = 0 ∨ (r.wide ∧ t = 4)) then
      some (r, decide (t = 4))
    else rowOf rs a

/-- The register at a word address of the register blocks (R504). -/
def regRow (a : Nat) : Option (RegRow × Bool) := rowOf (blockRows a) a

/-- Registers whose instances have reset values of their own: CLK_MCTL0 and CLK_MTGT0 (S_CLK.MPLL0), PWR_VOPP0 to 3,
ENG_HOLDERn, CC_RESETVEC and CC_VBASE of each core. -/
def ownReset (a : Nat) : Option Nat :=
  if a = 0x1C020020 then some 1
  else if a = 0x1C020030 then some 0xBB800000
  else if a = 0x1C030170 then some 600
  else if a = 0x1C030174 then some 680
  else if a = 0x1C030178 then some 750
  else if a = 0x1C03017C then some 850
  else if 0x1C000B00 ≤ a ∧ a < 0x1C000C00 then some ((a - 0x1C000B00) / 4)
  else if 0x1C042000 ≤ a ∧ a < 0x1C042400 ∧ (a % 0x100 = 4 ∨ a % 0x100 = 8) then
    some (0x18000000 + 0x40000 * ((a - 0x1C042000) / 0x100))
  else none

/-- The row of a region's field block a byte offset lies in. -/
def srsRowOf : List SrsRow → Nat → Option SrsRow
  | [], _ => none
  | r :: rs, o =>
    if r.off ≤ o ∧ (o - r.off) / r.stride < r.count ∧ (o - r.off) % r.stride < 4 then some r else srsRowOf rs o

/-- The reset value of a word of the SRS window (R79, R80): S_RGN_POLICY, S_CLK.MPLL0, and the class's fields. -/
def srsReset (a : Nat) : Nat :=
  let r := (a - 0x1F000000) / 0x1000
  let o := a % 0x1000
  if o = 0xC then 0x1F01
  else if r = 0xA2 ∧ o = 0x68 then 0xBB800000
  else if r = 0xA1 ∧ o = 0x80 then 0x10007E00
  else
    match regionClass r with
    | none => 0
    | some c =>
      match srsRowOf (srsRows c) o with
      | none => 0
      | some row => row.reset

/-- The reset value of a word of the register file, by byte address (R9). -/
def regResetNat (a : Nat) : Nat :=
  if 0x1F000000 ≤ a then srsReset a
  else
    match ownReset a with
    | some v => v
    | none =>
      match regRow a with
      | none => 0
      | some (r, hi) => if hi then r.reset / 2 ^ 32 else r.reset % 2 ^ 32

/-- What an unlisted word of the register file reads as: its reset value. -/
def regReset (a : Nat) : Word := BitVec.ofNat 32 (regResetNat a)

/-- A word of the register file. -/
def reg (d : Device) (a : Nat) : Word := sparseGet regReset d.regs a

/-- A write of a word of the register file. -/
def setReg (d : Device) (a : Nat) (v : Word) : Device := { d with regs := sparsePut regReset d.regs a v }

/-- The bits `lo` to `lo + len - 1` of a number. -/
def bitsOf (x lo len : Nat) : Nat := x / 2 ^ lo % 2 ^ len

/-- A number with the bits `lo` to `lo + len - 1` replaced. -/
def withBits (x lo len v : Nat) : Nat := x - bitsOf x lo len * 2 ^ lo + v % 2 ^ len * 2 ^ lo

/-- A W register as one number, low half first (R29). -/
def reg64 (d : Device) (a : Nat) : Nat := (reg d a).toNat + (reg d (a + 4)).toNat * 2 ^ 32

/-- Both halves of a W register. -/
def setReg64 (d : Device) (a : Nat) (v : Nat) : Device :=
  setReg (setReg d a (BitVec.ofNat 32 v)) (a + 4) (BitVec.ofNat 32 (v / 2 ^ 32))

/-- The value of a field. -/
def getF (d : Device) (f : Fld) : Nat :=
  if f.lo + f.len ≤ 32 then bitsOf (reg d f.addr).toNat f.lo f.len else bitsOf (reg64 d f.addr) f.lo f.len

/-- A field replaced. -/
def setF (d : Device) (f : Fld) (v : Nat) : Device :=
  if f.lo + f.len ≤ 32 then setReg d f.addr (BitVec.ofNat 32 (withBits (reg d f.addr).toNat f.lo f.len v))
  else setReg64 d f.addr (withBits (reg64 d f.addr) f.lo f.len v)

/-- A one-bit field. -/
def getB (d : Device) (f : Fld) : Bool := getF d f = 1

/-- A one-bit field replaced. -/
def setB (d : Device) (f : Fld) (b : Bool) : Device := setF d f (if b then 1 else 0)

/-- A saturating count advanced. -/
def incF (d : Device) (f : Fld) (k : Nat := 1) : Device := setF d f (Nat.min (getF d f + k) (2 ^ f.len - 1))

/-- A free value: a value the spec leaves open, different at each use (the counter only names the use). -/
def fresh (d : Device) : Nat × Device := (d.free, { d with free := d.free + 1 })

/-- `n` more of activity class `k` (R440): 0 ISSUE, 1 MAC, 2 DLY, 3 SPIN, 4 MIX, 7 CTRL. -/
def tally (d : Device) (k n : Nat) : Device := { d with act := sparsePut natZero d.act k (sparseGet natZero d.act k + n) }

/-- Whether the device runs in RUN or IDLE, where kickoffs occur. -/
def awake (d : Device) : Bool := decide (d.pstate = .run ∨ d.pstate = .idle)

/-! ### Events -/

/-- Whether an event's unit exists (R37, R383). -/
def evPresent (d : Device) (v : Nat) : Bool :=
  if v < 0xC0 then decide (v % 0x40 < engCount d)
  else if v < 0x120 then decide ((v - 0xC0) % 0x20 < sapCount d)
  else if v < 0x150 then decide ((v - 0x120) % 8 < linkCount d)
  else if v < 0x178 then true
  else if v < 0x188 then decide (v % 8 < 6)
  else if v < 0x1A6 then true
  else if v < 0x1C0 then false
  else if v = 0x1CE ∨ v = 0x1CF then hasPcie d
  else decide (v < 0x200)

/-- The latch of event v as a field. -/
def latchF (v : Nat) : Fld := ⟨Adr.EVT_LATCH (v / 32), v % 32, 1⟩

/-- Whether the latch of event v is set. -/
def latched (d : Device) (v : Nat) : Bool := getB d (latchF v)

/-- The events whose latch is set, in ascending number. -/
def latchedEvents (d : Device) : List Nat :=
  (List.range 16).flatMap (fun k =>
    if reg d (Adr.EVT_LATCH k) = 0 then []
    else ((List.range 32).filter (fun b => (reg d (Adr.EVT_LATCH k)).getLsbD b)).map (fun b => 32 * k + b))

/-- The MSI-X vectors with a latched event routed to them (R386); the B package ignores MSIX and MSIEN. -/
def msixLevel (d : Device) : BitVec 32 :=
  if hasPcie d then
    (latchedEvents d).foldl (fun m v =>
      if getB d (F.EVT_ROUTE.MSIEN v) then m ||| (1#32 <<< getF d (F.EVT_ROUTE.MSIX v)) else m) 0
  else 0

/-- Whether FAULT_N is driven low by a latched event (R387). -/
def faultDriven (d : Device) : Bool := (latchedEvents d).any (fun v => getB d (F.EVT_ROUTE.FAULT v))

/-- Whether ATTN_N is driven low (R387). -/
def attnDriven (d : Device) : Bool := (latchedEvents d).any (fun v => getB d (F.EVT_ROUTE.ATTN v))

/-- One MSI-X message of a vector (R501): sent, or, while the vector or the function is masked or MSI-X is not enabled,
its pending bit set. -/
def sendMsix (d : Device) (x : Nat) : Device :=
  if getB d (F.PCIE_MSIX.MASK x) || d.pcieFnMask || !d.pcieMsixEn then setB d (F.PCIE_PBA.PEND x) true
  else { d with msixSent := sparsePut natZero d.msixSent x (sparseGet natZero d.msixSent x + 1) }

/-- The destinations of the latches settle: a vector whose pending state rises sends its message (R385, R386). -/
def evtSettle (d : Device) : Device :=
  let now := msixLevel d
  let rise := now &&& ~~~ d.msixPend
  (List.range 32).foldl (fun d x => if rise.getLsbD x then sendMsix d x else d) { d with msixPend := now }

/-- `k` occurrences of event v arrive at the Scoreboard (R384): the latch is set and the counter advances, saturating
at 0xFFFF. -/
def deliverEv (d : Device) (v k : Nat) : Device :=
  if evPresent d v then
    evtSettle (setB { d with
      evCnt := sparsePut natZero d.evCnt v (Nat.min (sparseGet natZero d.evCnt v + k) 0xFFFF) } (latchF v) true)
  else d

/-- An occurrence of event v outside the CTRL domain: it counts in its source domain until it is delivered (R18). -/
def raiseEv (d : Device) (v : Nat) : Device :=
  if evPresent d v then { d with evPend := sparsePut natZero d.evPend v (sparseGet natZero d.evPend v + 1) } else d

/-- An occurrence of event v in the CTRL domain takes no crossing (R18). -/
def raiseCtrl (d : Device) (v : Nat) : Device := deliverEv d v 1

/-! ### Rejections, absent accesses, journal -/

/-- The PATH code of a requester (R35). -/
def reqPath : Req → Nat
  | .hspi => 1
  | .pcie => 2
  | .cc c => 3 + c.val
  | .loader => 7

/-- The index of a requester's own holding registers and responses. -/
def reqIdx : Req → Nat
  | .loader => 0
  | .cc c => 1 + c.val
  | .pcie => 5
  | .hspi => 6

/-- Whether an address is decoded in CTRL: the SYS, BOOT and EVT blocks (the table of clock domains, R18). -/
def ctrlDecoded (a : Nat) : Bool := a / 0x10000 = 0x1C00 || a / 0x10000 = 0x1C01 || a / 0x10000 = 0x1C04

/-- The write in progress has no effect: its journal entry carries NOEFFECT (R485). -/
def ignored (d : Device) : Device := { d with wrNone := true }

/-- A rejected transaction (R35): code, path and address together, the count, and EVT_REJECT. -/
def reject (d : Device) (code path addr : Nat) : Device :=
  let d := ignored d
  let d := setF (setF d F.SYS_REJECT.CODE code) F.SYS_REJECT.PATH path
  let d := setF (incF d F.SYS_REJECT.COUNT) F.SYS_REJECT_ADDR.ADDR addr
  if path = 7 ∨ path = 8 ∨ ctrlDecoded addr then raiseCtrl d 0x188 else raiseEv d 0x188

/-- An access to an absent unit (R43, R48): SYS_ABSENT and SYS_ABSENT_ADDR together, and EVT_ABSENT. -/
def absentAccess (d : Device) (path eng addr : Nat) : Device :=
  let d := ignored d
  let d := setF (setF d F.SYS_ABSENT.PATH path) F.SYS_ABSENT.ENG eng
  let d := setF (incF d F.SYS_ABSENT.COUNT) F.SYS_ABSENT_ADDR.ADDR addr
  if ctrlDecoded addr then raiseCtrl d 0x189 else raiseEv d 0x189

/-- A rejection by a requester. -/
def rejectReq (d : Device) (code : Nat) (q : Req) (addr : Nat) : Device := reject d code (reqPath q) addr

/-- Whether a write of a requester is recorded in the journal (R485): every HSPI and PCIe write, and a control core's
writes to the register blocks, the secure partition and the SRS window; the journal's own registers are left out. -/
def journalled (q : Req) (a : Nat) : Bool :=
  if (0x1C000200 ≤ a ∧ a < 0x1C000208) ∨ (0x1C001000 ≤ a ∧ a < 0x1C001800) then false
  else
    match q with
    | .hspi => true
    | .pcie => true
    | .cc _ =>
      decide ((0x1C000000 ≤ a ∧ a < 0x1C130000) ∨ (0x1E000000 ≤ a ∧ a < 0x1E010000) ∨ (0x1F000000 ≤ a ∧ a < 0x20000000))
    | .loader => false

/-- The entry of the n-th journalled write, entry n mod 256: its address, its path, NOEFFECT and the count (R485).
DEDUCED (log 85): JRN_COUNT in the entry's number is the count after the write. -/
def journalPut (d : Device) (q : Req) (a : Nat) (noeffect : Bool) (n : Nat) : Device :=
  setReg (setReg (setReg64 d Adr.JRN_COUNT n) (Adr.JRN_ADDR (n % 256)) (BitVec.ofNat 32 a)) (Adr.JRN_INFO (n % 256))
    (BitVec.ofNat 32 (reqPath q + (if noeffect then 16 else 0) + n % 2 ^ 24 * 256))

/-- One journal entry (R485): the count advances and the entry it names is written. -/
def journal (d : Device) (q : Req) (a : Nat) (noeffect : Bool) : Device :=
  if journalled q a then journalPut d q a noeffect ((reg64 d Adr.JRN_COUNT + 1) % 2 ^ 64) else d

/-- A write access of a requester at an address: `f` carries it out, and its journal entry follows (R485). -/
def writeOp (d : Device) (q : Req) (a : Nat) (f : Device → Device) : Device :=
  let d := f { d with wrNone := false }
  journal { d with wrNone := false } q a d.wrNone

/-- The data returned to a requester by its latest read: 64 bits of payload and the 4 tag bits of a tagged read. -/
def respond (d : Device) (q : Req) (v : Nat) (t : Tag := .int) : Device :=
  { d with resp := sparsePut (fun _ => 0) d.resp (reqIdx q) (BitVec.ofNat 68 (v % 2 ^ 64 + t.code * 2 ^ 64)) }

/-! ### Processors -/

/-- A processor's state. -/
def ag (d : Device) (n : Fin 68) : Engine := d.ag[n]

/-- A processor's state replaced. -/
def setAg (d : Device) (n : Fin 68) (e : Engine) : Device := { d with ag := d.ag.set n e }

/-- Whether a processor is a control core. -/
def isCc (n : Fin 68) : Bool := decide (64 ≤ n.val)

/-- The processor that is a control core. -/
def ccProc (c : Fin 4) : Fin 68 := ⟨64 + c.val, by omega⟩

/-- The processor that is an engine. -/
def engProc (n : Fin 64) : Fin 68 := ⟨n.val, by omega⟩

/-- The control core of a processor number from 64. -/
def coreOf (n : Fin 68) : Fin 4 := ⟨n.val % 4, by omega⟩

/-- Every processor changed by a function of its state. -/
def mapAg (d : Device) (f : Engine → Engine) : Device := { d with ag := Vector.ofFn (fun n => f d.ag[n]) }

/-- A reservation on a written word is cleared (R141, R203, R374). -/
def clearResv (d : Device) (l : Loc) : Device :=
  mapAg d (fun e => if e.resv = some l then { e with resv := none } else e)

/-- Reservations on a range of delay words are cleared (R209). -/
def clearDelayResv (d : Device) (lo hi : Nat) : Device :=
  mapAg d (fun e =>
    match e.resv with
    | some (.delay w) => if lo ≤ w ∧ w < hi then { e with resv := none } else e
    | _ => e)

/-- The physical holder of a role (R469). -/
def holder (d : Device) (role : Nat) : Fin 68 := ⟨getF d (F.ENG_HOLDER.PHYS role) % 64, by omega⟩

/-! ### Tagged storages -/

/-- What a reader receives from a stored cell when parity is checked: a failure gives POISON (R22). -/
def cellRead (c : Cell) : TWord := if c.bad then ⟨c.w.p, .poison⟩ else c.w

/-- A stored cell with fresh parity. -/
def cellOf (w : TWord) : Cell := ⟨w, false⟩

/-- A cell of delay memory. -/
def delayCell (d : Device) (w : Nat) : Cell := sparseGet cellUninit d.delay w

/-- The one write of a word of delay memory; any reservation on the word is cleared (R141, R206). -/
def putDelay (d : Device) (w : Nat) (v : TWord) : Device :=
  clearResv { d with delay := sparsePut cellUninit d.delay w (cellOf v) } (.delay w)

/-- A cell of the control-core memories, by word of the device address map. -/
def ccCell (d : Device) (w : Nat) : Cell := sparseGet cellUninit d.ccMem w

/-- A write of a word of the control-core memories. -/
def putCc (d : Device) (w : Nat) (v : TWord) : Device :=
  clearResv { d with ccMem := sparsePut cellUninit d.ccMem w (cellOf v) } (.ccMem w)

/-- A field of the region of an engine's role; a fenced engine keeps its former fields (R478). `k` is the word of the
field block. -/
def engField (d : Device) (n : Fin 68) (k : Nat) : Nat :=
  let e := ag d n
  if e.fenced then (if k = 3 then e.former.getD 0 0 else e.former.getD (k - 15) 0)
  else (reg d (0x1F000000 + 0x1000 * e.role + 4 * k)).toNat

/-- IOBASE.BASE of an engine (R165). -/
def ioBase (d : Device) (n : Fin 68) : Nat := engField d n 0x15 % 2 ^ 16

/-- COEFWIN.BASE of an engine. -/
def coefBase (d : Device) (n : Fin 68) : Nat := engField d n 0x14 % 2 ^ 16

/-- COEFWIN.SIZE of an engine. -/
def coefSize (d : Device) (n : Fin 68) : Nat := engField d n 0x14 / 2 ^ 16 % 2 ^ 14

/-- A cell of an engine's local data: the exchange buffer serves the 128 words at IOBASE (R165). -/
def localCell (d : Device) (n : Fin 68) (w : Nat) : Cell :=
  let b := ioBase d n
  if b ≤ w ∧ w < b + 128 then sparseGet cellInvalid (ag d n).io (w - b) else sparseGet cellUninit (ag d n).loc w

/-- A write of a word of an engine's local data. -/
def putLocal (d : Device) (n : Fin 68) (w : Nat) (v : TWord) : Device :=
  let b := ioBase d n
  let e := ag d n
  let e := if b ≤ w ∧ w < b + 128 then { e with io := sparsePut cellInvalid e.io (w - b) (cellOf v) }
    else { e with loc := sparsePut cellUninit e.loc w (cellOf v) }
  setAg d n (if e.resv = some (.localData n.val w) then { e with resv := none } else e)

end Sys2Proof.Machine
end

