-- ==== Sys2Proof/Machine/Delay.lean ====
section
/-! DEFINITION. Delay memory (R186 to R211): views, engine slots, host-side access, alias atomics, parity, bank power. -/

namespace Sys2Proof.Machine

/-! ### Banks and their schedules -/

/-- The bank of a word (R186). -/
def bankOf (w : Nat) : Fin 128 := ⟨w / 0x20000 % 128, by omega⟩

/-- The region of a bank's group. -/
def groupRegion (b : Fin 128) : Nat := 0x40 + b.val / 8

/-- Whether a word lies in a bank the variant carries (R41, R44). -/
def bankPresent (d : Device) (w : Nat) : Bool := decide (w / 0x20000 < bankCount d)

/-- Whether a bank is ready (R207). -/
def bankReady (d : Device) (b : Fin 128) : Bool := decide (d.banks[b] = .on)

/-- Slot schedule period of a bank's group (S_DLY.CTL.PERIOD). -/
def slotPeriod (d : Device) (b : Fin 128) : Nat := getF d (F.S_DLY.CTL.PERIOD (groupRegion b))

/-- Slot entry `i` of a bank (S_DLY.SLOT). -/
def slotEntry (d : Device) (b : Fin 128) (i : Nat) : Nat :=
  let o := 64 * (b.val % 8) + i
  bitsOf (reg d (Adr.S_DLY.SLOT (groupRegion b) (o / 4))).toNat (8 * (o % 4)) 8

/-- The entry a bank uses in rally cycle `r` (R190), while its group is in service; in an EMPTY group every entry is FREE,
whatever records have written (DESIGN CHOICE, log 79). -/
def slotAt (d : Device) (b : Fin 128) (r : Nat) : Nat :=
  if Regions.live d.regions (groupRegion b) then slotEntry d b (r % Nat.max 1 (slotPeriod d b)) else 0

/-- How an engine's delay access fares (R191 to R193, R208): absent bank, stopped group, slot violation, not the
role's owner, bank not ready, performed. -/
inductive DelayWay where
  | absent | stopped | violation | notOwner | notReady | performed
  deriving DecidableEq, Repr

/-- The way of an engine's access through a port to a word, in its current cycle. An owner's access that violates its slot
on a bank that is not ready is a slot violation alone (DESIGN CHOICE, log 80). -/
def delayWay (d : Device) (n : Fin 68) (port w : Nat) : DelayWay :=
  let e := ag d n
  let b := bankOf w
  if ¬ bankPresent d w then .absent
  else if Regions.stopped d.regions (groupRegion b) then .stopped
  else
    let owned := decide (slotAt d b e.cur = 0x80 + e.role % 64 + 64 * port)
    if e.own ≠ .owner then .notOwner
    else if ¬ owned then .violation
    else if ¬ bankReady d b then .notReady
    else .performed

/-- Whether the current cycle is a slot of the engine's role and port (R193). -/
def slotOwned (d : Device) (n : Fin 68) (port w : Nat) : Bool :=
  let e := ag d n
  decide (slotAt d (bankOf w) e.cur = 0x80 + e.role % 64 + 64 * port)

/-- A slot violation recorded (R192). -/
def slotViolation (d : Device) (n : Fin 68) (port w : Nat) : Device :=
  let d := setF (setF d F.DLY_SLOTERR.ENG n.val) F.DLY_SLOTERR.PORT port
  raiseEv (incF (setF d F.DLY_SLOTERR.BANK (bankOf w).val) F.DLY_SLOTERR.COUNT) 0x18D

/-- An access to a bank that is not ready (R208). -/
def offAccess (d : Device) (w : Nat) : Device :=
  raiseEv (incF (setF d F.DLY_OFFACC.BANK (bankOf w).val) F.DLY_OFFACC.COUNT) 0x190

/-- A parity failure on a read of delay memory (R205). -/
def parityFail (d : Device) (path eng w : Nat) : Device :=
  let d := setF (setF d F.DLY_PARSTAT.PATH path) F.DLY_PARSTAT.ENG eng
  raiseEv (incF (setF d F.DLY_PAR_ADDR.WORD w) F.DLY_PARSTAT.COUNT) 0x18F

/-! ### Host-side access -/

/-- A host-side reader's parity check (R205). -/
def hostParity (d : Device) (q : Req) (w : Nat) : Device :=
  if (delayCell d w).bad then parityFail d (reqPath q) 0 w else d

/-- `n` bytes of `v` replacing those of `old` from byte `o`. -/
def mergeBytes (old : Word) (o n : Nat) (v : Word) : Word :=
  BitVec.ofNat 32 (withBits old.toNat (8 * o) (8 * n) v.toNat)

/-- A payload-view write of `n` bytes at byte `o` of a word (R21, R187, R206): a partial write is a read-modify-write
whose tag is SAMPLE, or POISON when the word's parity has failed. -/
def delayPayloadWrite (d : Device) (q : Req) (w o n : Nat) (v : Word) : Device :=
  if n = 4 then putDelay d w ⟨v, .sample⟩
  else
    let c := delayCell d w
    putDelay (hostParity d q w) w ⟨mergeBytes c.w.p o n v, if c.bad then .poison else .sample⟩

/-- The host's word access preconditions (R43, R208): an absent or unready bank takes no access. -/
def hostDelayBlocked (d : Device) (q : Req) (w addr : Nat) : Option Device :=
  if ¬ bankPresent d w then some (absentAccess d (reqPath q) 0 addr)
  else if ¬ bankReady d (bankOf w) then some (offAccess (ignored d) w)
  else none

/-- What a read answers: `x` where its window does not take the access, and otherwise what the target gives. -/
def deadOr {α : Type} (o : Option Device) (x : α) (r : Device × α) : Device × α :=
  match o with
  | some d => (d, x)
  | none => r

/-- A placed payload-view write (R187, R196). -/
def hostDelayWrite (d : Device) (q : Req) (w addr o n : Nat) (v : Word) : Device :=
  (hostDelayBlocked d q w addr).getD (delayPayloadWrite d q w o n v)

/-- The tag byte of a word in the tag view (R188, R205). -/
def hostTagRead (d : Device) (q : Req) (w : Nat) : Device × Nat := (hostParity d q w, (cellRead (delayCell d w)).t.code)

/-- A tag-view write of one byte (R188, R206, R110): only the tag changes; a failed word takes tag POISON. -/
def hostTagWrite (d : Device) (q : Req) (w code : Nat) : Device :=
  let c := delayCell d w
  putDelay (hostParity d q w) w ⟨c.w.p, if c.bad then .poison else tagOfCode (code % 16)⟩

/-- The four operations of the alias windows (R200). -/
inductive AliasOp where
  | add | swap | set | clear
  deriving DecidableEq, Repr

/-- The operation a group's S_DLY.CTL.ALIAS gives a window (R200). -/
def aliasOp (d : Device) (w : Nat) (windowB : Bool) : AliasOp :=
  if getB d (F.S_DLY.CTL.ALIAS (groupRegion (bankOf w))) then (if windowB then .clear else .set)
  else if windowB then .swap else .add

/-- An alias atomic (R200, R201, R206): the old word goes to the requester's own DLY_OLD. -/
def hostAtomic (d : Device) (q : Req) (w addr : Nat) (op : AliasOp) (v : Word) : Device :=
  (hostDelayBlocked d q w addr).getD
    (let c := delayCell d w
     let d := hostParity d q w
     let d := { d with oldAtomic := sparsePut (fun _ => TWord.zero .uninit) d.oldAtomic (reqIdx q) (cellRead c) }
     let t := (cellRead c).t
     match op with
     | .add => putDelay d w ⟨c.w.p + v, t⟩
     | .swap => putDelay d w ⟨v, .sample⟩
     | .set => putDelay d w ⟨c.w.p ||| v, t⟩
     | .clear => putDelay d w ⟨c.w.p &&& ~~~v, t⟩)

/-- The word the owner of a slot writes in rally cycle `r` on a bank, if it writes one, and whether it accesses the
bank at all (R197). -/
def ownerAccess (d : Device) (b : Fin 128) (r : Nat) : Option (Fin 68 × AccRec) :=
  let s := slotAt d b r
  if s < 0x80 then none
  else
    let n := holder d (s % 64)
    let e := ag d n
    if e.phase = .rallying ∧ e.cur = r then
      (e.acc.find? (fun a =>
        (decide (a.kind = .delayRead) || decide (a.kind = .delayWrite)) && decide (bankOf a.addr = b))).map (fun a => (n, a))
    else none

/-- A collision of a stolen read with an engine write of the same word (R198). -/
def collision (d : Device) (q : Req) (n : Fin 68) (addr : Nat) : Device :=
  let d := setF (setF (setF d F.MEM_STAT.COLL 1) F.MEM_STAT.PATH (reqPath q)) F.MEM_STAT.ENG n.val
  raiseEv { setF (incF d F.MEM_STAT.COUNT) F.MEM_COLL_ADDR.ADDR addr with memBusy := true } 0x18E

/-- Bytes of an access width. -/
def widthBytes : Width → Nat
  | .w8 => 1
  | .w16 => 2
  | .w32 => 4
  | .w64 => 8

/-! ### Bank power -/

/-- Every word of a bank loses its contents and reads UNINIT (R209, R210). -/
def wipeBank (d : Device) (b : Fin 128) : Device :=
  { d with delay := sparseClear d.delay (b.val * 0x20000) ((b.val + 1) * 0x20000) }

/-- A bank's state replaced; when it stops being ready its reservations are cleared (R209). -/
def setBank (d : Device) (b : Fin 128) (s : BankSt) : Device :=
  let d := { d with banks := d.banks.set b s }
  if s = .on then d else clearDelayResv d (b.val * 0x20000) ((b.val + 1) * 0x20000)

/-- The value of a canary word (R211). -/
def canaryWord (i : Fin 4) : Cell :=
  match i with
  | 0 => ⟨⟨0xA5A55A5A, .coef⟩, false⟩
  | 1 => ⟨⟨0x5A5AA5A5, .addr⟩, false⟩
  | 2 => ⟨⟨0xFFFFFFFF, .uninit⟩, false⟩
  | 3 => ⟨⟨0, .sample⟩, false⟩

/-- A cell of a bank's canaries replaced. -/
def putCanary (b : Fin 128) (d : Device) (c : Fin 4 × Cell) : Device :=
  { d with canary := sparsePut cellUninit d.canary (4 * b.val + c.1.val) c.2 }

/-- The four canaries of a bank compare equal, tags and parity included (R211). -/
def canariesOk (d : Device) (b : Fin 128) : Bool :=
  (List.finRange 4).all (fun i => decide (sparseGet cellUninit d.canary (4 * b.val + i.val) = canaryWord i))

/-- A bank enters retention: its canaries are written (R209, R211). -/
def retain (d : Device) (b : Fin 128) : Device :=
  setBank ((List.finRange 4).foldl (fun d i => putCanary b d (i, canaryWord i)) d) b .ret

/-- A bank begins its sweep (R210). -/
def startSweep (d : Device) (b : Fin 128) : Device := setBank (wipeBank d b) b .sweeping

/-- The state after a write of a PWR field (R209): 0b00 ON, 0b01 RET, 0b10 OFF. -/
def bankCommand (d : Device) (b : Fin 128) (v : Nat) : Device :=
  let s := d.banks[b]
  let f := F.DLY_BANKPWR.PWR (b.val / 16) (b.val % 16)
  if bankCount d ≤ b.val then d
  else if v = 0 then
    let d := setF d f 0
    match s with
    | .ret => setBank d b .waking
    | .off => setBank d b .starting
    | _ => d
  else if v = 1 then (if s = .off then d else if s = .ret then setF d f 1 else retain (setF d f 1) b)
  else if v = 2 then setBank (wipeBank (setF d f 2) b) b .off
  else d

/-- A write of DLY_BANKPWRk: its sixteen banks in order. -/
def bankPowerWrite (d : Device) (k : Fin 8) (v : Word) : Device :=
  (List.range 16).foldl (fun d j => bankCommand d ⟨(16 * k.val + j) % 128, by omega⟩ (bitsOf v.toNat (2 * j) 2)) d

/-- Failed canaries (R211): PWR_RETLOST, a sweep, EVT_RET_LOST. -/
def canaryFail (d : Device) (b : Fin 128) : Device :=
  raiseEv (startSweep (setF d ⟨Adr.PWR_RETLOST (b.val / 32), b.val % 32, 1⟩ 1) b) 0x191

end Sys2Proof.Machine
end

