-- ==== Sys2Proof/Machine/Operands.lean ====
section
/-! DEFINITION. Every operand form of the engine instruction set: register operands (R127, R128), address operands
(R96, R98, R134), and bit operands. -/

namespace Sys2Proof.Machine

/-- A G operand read as data: payload and tag (R127). -/
def readG (w : Work) : GReg → TWord
  | .d i => w.d[i]
  | .a i => ⟨w.a[i], if w.ap[i] then .poison else .addr⟩
  | .m i => ⟨w.m[i], .int⟩
  | .l i => ⟨w.l[i], .int⟩
  | .e i => ⟨w.e[i], .int⟩
  | .ql n => ⟨w.q[n].v.extractLsb' 0 32, w.q[n].t⟩
  | .qh n => ⟨w.q[n].v.extractLsb' 32 32, w.q[n].t⟩
  | .qg n => ⟨(w.q[n].v.extractLsb' 64 16).signExtend 32, w.q[n].t⟩

/-- Whether a tagged word written into An sets APn (R96). -/
def poisons (chk : Bool) (t : Tag) : Bool :=
  match t with
  | .poison => true
  | .uninit => true
  | .invalid => true
  | .sample => chk
  | .coef => chk
  | _ => false

/-- A result written to a G register (R95, R96, R128). -/
def writeG (chk : Bool) (w : Work) (g : GReg) (v : TWord) : Work :=
  match g with
  | .d i => { w with d := w.d.set i v }
  | .a i => { w with a := w.a.set i v.p, ap := w.ap.set i (poisons chk v.t) }
  | .m i => { w with m := w.m.set i v.p }
  | .l i => { w with l := w.l.set i v.p }
  | .e i => { w with e := w.e.set i v.p }
  | .ql n => { w with q := w.q.set n ⟨(w.q[n].v.extractLsb' 32 48) ++ v.p, v.t⟩ }
  | .qh n => { w with q := w.q.set n ⟨(w.q[n].v.extractLsb' 64 16) ++ v.p ++ (w.q[n].v.extractLsb' 0 32), v.t⟩ }
  | .qg n => { w with q := w.q.set n ⟨(v.p.extractLsb' 0 16) ++ (w.q[n].v.extractLsb' 0 64), v.t⟩ }

/-- Whether a G register is a part of Qn. -/
def partOfQ (n : Fin 4) : GReg → Bool
  | .ql i => i = n
  | .qh i => i = n
  | .qg i => i = n
  | _ => false

/-- The second operand of an arithmetic operation. -/
def readSrc (w : Work) : Src → TWord
  | .reg g => readG w g
  | .imm k v => ⟨v, kindTag k⟩

/-- A shift count as a signed number from −128 to 127 (R145). -/
def readCount (w : Work) : Count → Int
  | .imm v => v.toInt
  | .reg g => ((readG w g).p.extractLsb' 0 8).toInt

/-- "An updated by Mm" (R134): linear when Ln is 0, otherwise circular over Ln words from En. -/
def updated (w : Work) (n m : Fin 8) : Word :=
  let an : Int := (w.a[n]).toNat
  let mm : Int := (w.m[m]).toInt
  let ln : Int := (w.l[n]).toNat
  let en : Int := (w.e[n]).toNat
  if ln = 0 then BitVec.ofInt 32 (an + mm) else BitVec.ofInt 32 (en + (an - en + mm) % ln)

/-- The address of a memory access (MA). -/
def maAddr (w : Work) (x : Ma) : Nat :=
  match x.mode with
  | .plain => (w.a[x.n]).toNat
  | .post => (w.a[x.n]).toNat
  | .pre => (updated w x.n x.m).toNat
  | .offset => (updated w x.n x.m).toNat

/-- What An takes after a memory access, if the access updates it (MA). -/
def maUpdate (w : Work) (x : Ma) : Option Word :=
  match x.mode with
  | .plain => none
  | .post => some (updated w x.n x.m)
  | .pre => some (updated w x.n x.m)
  | .offset => none

/-- Whether the access goes through a poisoned pointer (R97). -/
def maPoison (w : Work) (x : Ma) : Bool := w.ap[x.n]

/-- Whether Ln is above the largest buffer, so that the access is to an unmapped address (R98). -/
def maUnmapped (w : Work) (x : Ma) : Bool := decide (0x01000000 < (w.l[x.n]).toNat)

/-- A bit address: BA, offset by An[11:0] modulo 4,096 when IX is 1. -/
def bitAddr (w : Work) (b : BitRef) : Nat :=
  match b.ix with
  | none => b.ba.toNat
  | some n => (b.ba + (w.a[n]).extractLsb' 0 12).toNat

/-- Whether a G register is a D register, as the short forms require. -/
def isD : GReg → Bool
  | .d _ => true
  | _ => false

/-- Whether a second operand is a D register, as the short forms require. -/
def srcIsD : Src → Bool
  | .reg g => isD g
  | .imm _ _ => false

end Sys2Proof.Machine
end

