-- ==== Sys2Proof/Machine/Issue.lean ====
section
/-! DEFINITION. Issue of an instruction word: the sequencing every word shares (R121, R123, R152, R175, R377), register
writes and their order (R124), the end of a rally and engine faults (R102, R118, R169, R375). -/

namespace Sys2Proof.Machine

/-- Whether the device is held: RESET_N is low or VDD_AON is absent (R53, R514). -/
def held (d : Device) : Bool := d.rstLow || !d.powered

/-- A meaning that has an effect on the device even while it is held: pins and the resets themselves. -/
def onPins (s : State) (f : Device → Device) : Host.Outcome State Fault Refusal := .next { s with dev := f s.dev }

/-- A meaning that has an effect on the device; a held device does nothing (R53, R514). -/
def onDev (s : State) (f : Device → Device) : Host.Outcome State Fault Refusal :=
  .next { s with dev := if held s.dev then s.dev else f s.dev }

/-! ### Register writes and loads -/

/-- Outstanding loads of a register written by a later word are discarded (R124). -/
def supersede (e : Engine) (p : GReg → Bool) : Engine := { e with pend := e.pend.filter (fun l => !p l.reg) }

/-- A write of a G register by a word in issue (R124, R128). The parts of an accumulator, and the whole of it, are separate
registers for the order of an outstanding load (DESIGN CHOICE, log 73). -/
def wrReg (d : Device) (n : Fin 68) (g : GReg) (v : TWord) : Device :=
  let e := ag d n
  setAg d n (supersede { e with w := writeG e.chk e.w g v } (fun r => decide (r = g)))

/-- A write of a whole accumulator. -/
def wrQ (d : Device) (n : Fin 68) (q : Fin 4) (v : QReg) : Device :=
  let e := ag d n
  setAg d n (supersede { e with w := { e.w with q := e.w.q.set q v } } (partOfQ q))

/-- An address update of An, which leaves APn as it is (R96). -/
def wrPtr (d : Device) (n : Fin 68) (i : Fin 8) (v : Word) : Device :=
  let e := ag d n
  setAg d n (supersede { e with w := { e.w with a := e.w.a.set i v } } (fun r => decide (r = .a i)))

/-- A load lands in its register (R123). -/
def land (e : Engine) (l : PendLoad) : Engine := { e with w := writeG e.chk e.w l.reg l.val }

/-- The loads that have reached their cycle land, oldest first (R123). -/
def landDue (e : Engine) : Engine :=
  (e.pend.filter (fun l => decide (l.due ≤ e.cyc))).foldl land
    { e with pend := e.pend.filter (fun l => decide (e.cyc < l.due)) }

/-- Every outstanding load lands (R104). -/
def landAll (e : Engine) : Engine := e.pend.foldl land { e with pend := [] }

/-- A load issued in the current cycle: its register holds the value from three cycles later (R123). -/
def queueLoad (d : Device) (n : Fin 68) (g : GReg) (v : TWord) : Device :=
  let e := ag d n
  setAg d n { e with pend := e.pend ++ [⟨g, v, e.cur + 3⟩] }

/-- The division in progress writes its destination and its status bits (R146). -/
def finishDiv (e : Engine) : Engine :=
  match e.div with
  | none => e
  | some p =>
    supersede { e with
      w := writeG e.chk e.w p.gd p.val
      statDz := e.statDz || p.dz
      statV := e.statV || p.v
      statSat := e.statSat || p.sat
      fTag := e.fTag || p.fail
      warn := e.warn || p.fail
      div := none } (fun r => decide (r = p.gd))

/-! ### Status bits and faults that do not end a rally -/

/-- Status bits of an operation, combined with those already set (R121, R130). -/
def orStat (d : Device) (n : Fin 68) (v sat : Bool) : Device :=
  let e := ag d n
  setAg d n { e with statV := e.statV || v, statSat := e.statSat || sat }

/-- FAULT.TAG when `b` holds (R97, R133). -/
def tagFault (d : Device) (n : Fin 68) (b : Bool) : Device :=
  let e := ag d n
  setAg d n { e with fTag := e.fTag || b, warn := e.warn || b }

/-- FAULT.ADDR (R100). -/
def addrFault (d : Device) (n : Fin 68) : Device :=
  let e := ag d n
  setAg d n { e with fAddr := true, warn := true }

/-- FAULT.PAR (R101). -/
def parFault (d : Device) (n : Fin 68) : Device :=
  let e := ag d n
  setAg d n { e with fPar := true, warn := true }

/-- A result with its tag written, its status bits and its type-check failure recorded (R128, R130, R133). -/
def putResult (d : Device) (n : Fin 68) (g : GReg) (r : Narrowed) (t : Tag × Bool) : Device :=
  tagFault (orStat (wrReg d n g ⟨BitVec.ofInt 32 r.r, t.1⟩) n r.v r.sat) n t.2

/-! ### The end of a rally -/

/-- The rally of an engine ends (R102, R169): ENG_USED and ENG_USEDMAX take its length, a rally that set TAG, ADDR or
PAR raises EVT_ENG_WARN, and a cut or faulted mirror rally sets SUB_STAT.SUBFAULT (R475). -/
def endRally (d : Device) (n : Fin 68) (cut : Bool) (used : Nat) : Device :=
  let e := ag d n
  let d := tally (setAg d n { e with phase := .ended, cut := cut, div := none, repLeft := 0, pair := none, warn := false }) 0 used
  let d := setB (setF d (F.ENG_USED.CYCLES n.val) used) (F.ENG_USED.CUT n.val) cut
  let d := setF d (F.ENG_USEDMAX.CYCLES n.val) (Nat.max used (getF d (F.ENG_USEDMAX.CYCLES n.val)))
  let d := if e.warn then raiseEv d (0x80 + n.val) else d
  if cut && e.mirror then setB d F.SUB_STAT.SUBFAULT true else d

/-- A word faults (R118, R375): an engine's rally ends at the word with EVT_ENG_FAULT; a control core halts with
EVT_CC_FAULT. `mark` sets the fault bit. -/
def wordFault (d : Device) (n : Fin 68) (fpc : Nat) (mark : Engine → Engine) : Device :=
  let e := mark (ag d n)
  let d := setAg d n { e with fpc := fpc, pair := none, repLeft := 0 }
  if isCc n then
    raiseCtrl { d with ccx := d.ccx.set (coreOf n) { d.ccx[coreOf n] with halt := true } } (0x1A2 + (coreOf n).val)
  else raiseEv (endRally d n true (e.cur + 1)) n.val

/-- An illegal word (R117). -/
def illFault (d : Device) (n : Fin 68) (fpc : Nat) : Device := wordFault d n fpc (fun e => { e with fIll := true })

/-- A return-stack trap (R125). -/
def rsFault (d : Device) (n : Fin 68) : Device := wordFault d n (ag d n).pc (fun e => { e with fRs := true })

/-! ### Issue -/

/-- Event routed to a core with its level, when enabled (R378). -/
def routedLevel (d : Device) (c : Fin 4) (v : Nat) : Option Nat :=
  if getB d (F.EVT_ROUTE.EN v c.val) then some (getF d (F.EVT_ROUTE.LEV v c.val)) else none

/-- The pending event of the highest level, the lowest number among equals (R378). -/
def bestEvent (d : Device) (c : Fin 4) : Option (Nat × Nat) :=
  (latchedEvents d).foldl (fun best v =>
    match routedLevel d c v, best with
    | none, b => b
    | some l, none => some (v, l)
    | some l, some (v', l') => if l' < l then some (v, l) else some (v', l')) none

/-- The event a core would take at a word boundary (R378). -/
def takeable (d : Device) (c : Fin 4) : Option (Nat × Nat) :=
  let x := d.ccx[c]
  match bestEvent d c with
  | none => none
  | some (v, l) => if x.ie ∧ (x.act = false ∨ x.curLev < l) then some (v, l) else none

/-- Whether a control core is at a word boundary at which it takes an event (R378, R380). -/
def eventDue (d : Device) (c : Fin 4) : Bool :=
  let e := ag d (ccProc c)
  decide (e.repLeft = 0) && e.pair.isNone && (takeable d c).isSome

/-- Whether the processor issues a word: an engine in its rally and within its limit (R169), or a core that runs and
neither halts nor waits (R375, R376, R381), its clock running, and that takes no event instead (R378). -/
def canIssue (d : Device) (n : Fin 68) : Bool :=
  if isCc n then
    let x := d.ccx[coreOf n]
    x.run && !x.halt && !x.wait && awake d && !eventDue d (coreOf n)
  else
    let e := ag d n
    decide (e.phase = .rallying) && decide (e.cyc < e.limit)

/-- The tiers whose end is the word at `pc` are left (R175): CURT takes the saved value of each entry popped. -/
def popTiers (pc : Nat) : List (Nat × Nat) → Nat → Nat × List (Nat × Nat)
  | [], t => (t, [])
  | (saved, target) :: st, t => if target = pc then popTiers pc st saved else (t, (saved, target) :: st)

/-- The engine's part of the issue of a word (R123, R152, R175): everything due lands, the program counter takes the
word's address, one cycle passes, and a repetition counts. -/
def fetched (e : Engine) : Engine :=
  let e := landDue (finishDiv e)
  let rep := decide (0 < e.repLeft)
  let left := e.repLeft - 1
  let t := popTiers e.npc e.tierStk e.curt
  { e with
    pc := e.npc
    npc := if 0 < left then e.npc else e.npc + 1
    cur := e.cyc
    cyc := e.cyc + 1
    repLeft := left
    repCur := if rep then e.repN - e.repLeft else 0
    curt := t.1
    tierStk := t.2
    acc := []
    pair := none }

/-- The end of a DO loop (R377): the word at LE has issued. -/
def loopEnd (x : CoreX) (e : Engine) : Engine :=
  if e.pc = x.le ∧ e.repLeft = 0 then
    if 2 ≤ e.lc.toNat then { e with lc := e.lc - 1, npc := x.ls }
    else { e with lc := 0 }
  else e

/-- A whole word issues. -/
def fetchWord (d : Device) (n : Fin 68) : Device :=
  let e := fetched (ag d n)
  if isCc n then tally (setAg d n (loopEnd d.ccx[coreOf n] e)) 7 1 else setAg d n e

/-- The engine group whose team bits a processor reaches (R114). -/
def teamGroup (d : Device) (n : Fin 68) : Fin 8 := ⟨(ag d n).role / 8 % 8, by omega⟩

/-- What the Y half of the word will read is kept (R121). -/
def startPair (d : Device) (n : Fin 68) : Device :=
  let e := ag d n
  setAg d n { e with
    pair := some ⟨e.w, e.flags, d.team[teamGroup d n], [], ⟨e.statV, e.statSat, e.fTag, e.fAddr, e.fPar, e.warn, e.pend, e.resv⟩⟩ }

/-- A cell of the processor's local data, by data address, as it stood before X. -/
def restoreCell (d : Device) (n : Fin 68) (c : Nat × Cell) : Device :=
  if isCc n ∨ 0xC000 ≤ c.1 then d
  else setAg d n { ag d n with loc := sparsePut cellUninit (ag d n).loc c.1 c.2 }

/-- An illegal Y half: the X half of its word does not execute either, so what X changed in the processor, in its local data
and in the team bits is as before the word (R117). -/
def undoPair (d : Device) (n : Fin 68) : Device :=
  let e := ag d n
  match e.pair with
  | none => d
  | some p =>
    let g := teamGroup d n
    let m := p.marks
    let d := setAg { d with team := d.team.set g p.team } n { e with
      w := p.old
      flags := p.flags
      statV := m.v
      statSat := m.sat
      fTag := m.tag
      fAddr := m.addr
      fPar := m.par
      warn := m.warn
      pend := m.pend
      resv := m.resv }
    p.undo.foldl (fun d c => restoreCell d n c) d

/-- The pair is complete. -/
def endPair (d : Device) (n : Fin 68) : Device :=
  let e := ag d n
  setAg d n { e with pair := none }

/-- The working registers the operation reads: for Y, as they stood before X (R121). -/
def srcWork (d : Device) (i : Issue) : Work :=
  let e := ag d i.who
  match i.slot, e.pair with
  | .y, some p => p.old
  | _, _ => e.w

/-- An illegal word issues: it faults and has no effect (R117). -/
def illWord (d : Device) (n : Fin 68) (fpc : Nat) : Device := illFault (setAg d n (fetched (ag d n))) n fpc

/-- Whether the next word of a control core stands at LE of a loop with a count to run (R377). -/
def atLoopEnd (d : Device) (n : Fin 68) : Bool :=
  isCc n && decide ((ag d n).npc = (d.ccx[coreOf n]).le) && decide ((ag d n).lc ≠ 0)

/-- Whether a control core's next word lies in its own local memory or the shared memory (R371, R372). -/
def ccFetchOk (d : Device) (n : Fin 68) : Bool :=
  let a := 8 * (ag d n).npc
  let own := 0x18000000 + 0x40000 * (coreOf n).val
  decide (own ≤ a ∧ a < own + 0x40000) || decide (0x18100000 ≤ a ∧ a < 0x18200000)

/-- Issue of an operation: a processor that issues no word is unchanged. `ok` says the form is defined, `rep` that the
word may be repeated (R126) and may stand at the end of a DO loop (R377); otherwise the word is illegal (R117).
A control core that fetches outside its memories receives payload 0, a NOP, with FAULT.ADDR (R100, R372). -/
def withWord (i : Issue) (ok rep : Bool) (d : Device) (f : Device → Device) : Device :=
  match i.slot with
  | .y =>
    if (ag d i.who).pair.isSome then
      (if ok then endPair (f d) i.who else illFault (undoPair d i.who) i.who (ag d i.who).pc)
    else d
  | .x =>
    if canIssue d i.who then
      if ¬ isCc i.who ∧ 8191 < (ag d i.who).npc then illWord d i.who 8192
      else if isCc i.who ∧ ¬ ccFetchOk d i.who then addrFault (fetchWord d i.who) i.who
      else if ok then f (startPair (fetchWord d i.who) i.who)
      else illWord d i.who (ag d i.who).npc
    else d
  | .long =>
    if canIssue d i.who then
      if ¬ isCc i.who ∧ 8191 < (ag d i.who).npc then illWord d i.who 8192
      else if isCc i.who ∧ ¬ ccFetchOk d i.who then addrFault (fetchWord d i.who) i.who
      else if ok && (rep || (decide ((ag d i.who).repLeft = 0) && !atLoopEnd d i.who)) then f (fetchWord d i.who)
      else illWord d i.who (ag d i.who).npc
    else d

/-- A taken branch: the word and two idle cycles (R154). -/
def jump (d : Device) (n : Fin 68) (target : Nat) : Device :=
  let e := ag d n
  setAg d n { e with npc := target, cyc := e.cyc + 2 }

end Sys2Proof.Machine
end

