-- ==== Sys2Proof/Machine/Queues.lean ====
section
/-! DEFINITION. Hardware queues (R389 to R402): pushes, pops, watermarks, flow control and flush. -/

namespace Sys2Proof.Machine

/-- A queue by number. -/
def que (d : Device) (q : Fin 256) : Queue := d.que[q]

/-- A queue replaced. -/
def setQue (d : Device) (q : Fin 256) (x : Queue) : Device := { d with que := d.que.set q x }

/-- A queue number from a field of eight bits. -/
def queNo (k : Nat) : Fin 256 := ⟨k % 256, by omega⟩

/-- Words per bank (S_QUE); queue 0 has 4,096 at all times (R91). -/
def queSize (d : Device) (q : Fin 256) : Nat :=
  if q = 0 then 4096 else (reg d (0x1F0A1080 + 8 * q.val)).toNat / 2 ^ 16 % 2 ^ 13

/-- Item length of a queue (R402). -/
def queItem (d : Device) (q : Fin 256) : Nat :=
  if q = 0 then 0 else (reg d (0x1F0A1084 + 8 * q.val)).toNat % 2 ^ 13

/-- Words a queue holds when full: both banks. -/
def queCap (d : Device) (q : Fin 256) : Nat := 2 * queSize d q

/-- Whether a queue is created (R389, R392): its map entry gives it words and the map has been resumed. -/
def queCreated (d : Device) (q : Fin 256) : Bool :=
  decide (q = 0) || (decide (queSize d q ≠ 0) && decide (Regions.eff d.regions 0xA1 ≠ .empty))

/-- A queue condition that its QUE_EV enables raises its event line (R401). -/
def queEvent (d : Device) (q : Fin 256) (en : Fld) (b : Bool) : Device :=
  if b && getB d en then raiseEv d (0x1D0 + getF d (F.QUE_EV.LINE q.val)) else d

/-- The watermark state after an access that leaves `n` words (R400). -/
def wmAfter (d : Device) (q : Fin 256) (wm : Bool) (n : Nat) : Bool :=
  let hi := getF d (F.QUE_CFG.HI q.val)
  let lo := getF d (F.QUE_CFG.LO q.val)
  if hi = 0 then false else if hi ≤ n then true else if n ≤ lo then false else wm

/-- The watermark state settles after an access, with the events of its change and of the level leaving 0 (R400, R401). -/
def queSettle (d : Device) (q : Fin 256) (before : Nat) : Device :=
  let x := que d q
  let wm := wmAfter d q x.wm x.words.length
  let d := setQue d q { x with wm := wm }
  let d := queEvent d q (F.QUE_EV.WMRISE q.val) (wm && !x.wm)
  let d := queEvent d q (F.QUE_EV.WMFALL q.val) (!wm && x.wm)
  queEvent d q (F.QUE_EV.NEMPTY q.val) (decide (before = 0) && decide (x.words.length ≠ 0))

/-- The words appended to a queue, and PPOS advanced (R389, R402). -/
def queAppend (d : Device) (q : Fin 256) (ws : List TWord) : Device :=
  let x := que d q
  let item := queItem d q
  let d := setQue { d with q0Ns := if q = 0 then 0 else d.q0Ns } q { x with
    words := x.words ++ ws.map cellOf
    ppos := if item = 0 then 0 else (x.ppos + ws.length) % item }
  queSettle d q x.words.length

/-- A push or item dropped for want of room (R396). -/
def queOverflow (d : Device) (q : Fin 256) : Device :=
  queEvent (incF d (F.QUE_STAT.OVF q.val)) q (F.QUE_EV.OVF q.val) true

/-- Whether a queue takes words: it is created and the queue map runs; queue 0 always does (R84, R91, R392). -/
def queTakes (d : Device) (q : Fin 256) : Bool := decide (q = 0) || (queCreated d q && Regions.live d.regions 0xA1)

/-- A single-word push (R393, R396, R402). -/
def quePush (d : Device) (q : Fin 256) (w : TWord) : Device :=
  if queTakes d q then
    let x := que d q
    if 0 < x.pushSkip then
      setQue d q { x with pushSkip := x.pushSkip - 1, ppos := (x.ppos + 1) % Nat.max 1 (queItem d q) }
    else if queCap d q ≤ x.words.length then queOverflow d q
    else queAppend d q [w]
  else d

/-- An item push: the whole item or nothing (R396); it is never skipped (R402). -/
def quePushItem (d : Device) (q : Fin 256) (ws : List TWord) : Device :=
  if queTakes d q then
    if queCap d q < (que d q).words.length + ws.length then queOverflow d q else queAppend d q ws
  else d

/-- An empty or skipped pop (R397, R402). -/
def queUnder (d : Device) (q : Fin 256) : Device :=
  queEvent (incF d (F.QUE_STAT.UNDER q.val)) q (F.QUE_EV.UNDER q.val) true

/-- The head word taken (R389, R399): a parity failure delivers POISON and counts. -/
def queTake (d : Device) (q : Fin 256) : Device × TWord :=
  let x := que d q
  match x.words with
  | [] => (d, TWord.zero .invalid)
  | c :: cs =>
    let item := queItem d q
    let d := setQue d q { x with
      words := cs
      head := (x.head + 1) % Nat.max 1 (queCap d q)
      cpos := if item = 0 then 0 else (x.cpos + 1) % item }
    let d := if c.bad then queEvent (incF d (F.QUE_STAT.PAR q.val)) q (F.QUE_EV.PAR q.val) true else d
    (queSettle d q x.words.length, cellRead c)

/-- A pop (R393, R397, R399, R402). -/
def quePop (d : Device) (q : Fin 256) : Device × TWord :=
  if queTakes d q then
    let x := que d q
    if 0 < x.popSkip then
      (queUnder (setQue d q { x with popSkip := x.popSkip - 1, cpos := (x.cpos + 1) % Nat.max 1 (queItem d q) }) q,
        TWord.zero .invalid)
    else if x.words = [] then (queUnder d q, TWord.zero .invalid)
    else queTake d q
  else (d, TWord.zero .invalid)

/-- `n` pops one after the other. -/
def quePops (d : Device) (q : Fin 256) : Nat → Device × List TWord
  | 0 => (d, [])
  | n + 1 =>
    let r := quePop d q
    let rest := quePops r.1 q n
    (rest.1, r.2 :: rest.2)

/-- A flush (R402): both banks emptied, and the skips that keep items aligned. -/
def queFlush (d : Device) (q : Fin 256) : Device :=
  let x := que d q
  let item := queItem d q
  let d := setQue d q { x with
    words := []
    head := 0
    popSkip := if x.cpos = 0 then 0 else item - x.cpos
    pushSkip := if x.ppos = 0 then 0 else item - x.ppos }
  queSettle d q x.words.length

/-- QUE_LEVELq.DRAIN (R389): the held words from the head to the end of the drain bank or the tail. -/
def queDrain (d : Device) (q : Fin 256) : Nat :=
  let x := que d q
  let size := queSize d q
  Nat.min x.words.length (size - x.head % Nat.max 1 size)

/-- QUE_LEVELq as it reads. -/
def queLevelWord (d : Device) (q : Fin 256) : Nat :=
  if queTakes d q then (que d q).words.length + 2 ^ 14 * (que d q).wm.toNat + 2 ^ 16 * queDrain d q else 0

/-- Pin FCn (R400). -/
def fcPin (d : Device) (n : Nat) : Bool :=
  (List.range 256).any (fun q => (que d (queNo q)).wm && (reg d (Adr.QUE_EV q)).getLsbD n)

/-- The oldest item of a crossing enters the queue when it leaves it (R395). -/
def queArrive (d : Device) (q : Fin 256) : Device :=
  let x := que d q
  match x.crossing with
  | [] => d
  | ws :: cs => quePushItem (setQue d q { x with crossing := cs }) q ws

/-- An item pushed by a producer outside CORE: it is in the crossing until it enters the queue (R395). -/
def queCross (d : Device) (q : Fin 256) (ws : List TWord) : Device :=
  let x := que d q
  if ws = [] then d else setQue d q { x with crossing := x.crossing ++ [ws] }

end Sys2Proof.Machine
end

