-- ==== Sys2Proof/Machine/RegionOps.lean ====
section
/-! DEFINITION. What the other families read of a structure region: its policy (R79), its fades and the values a fading,
stopped or resuming region gives its outputs (R82 to R85, R527). -/

namespace Sys2Proof.Machine

/-- The S_RGN_POLICY word of a region. -/
def rgnPolicy (d : Device) (r : Nat) : Nat := (reg d (Adr.S_RGN_POLICY r)).toNat

/-- QMODE: whether the policy is ZERO (R79). -/
def rgnZero (d : Device) (r : Nat) : Bool := decide (rgnPolicy d r % 2 = 1)

/-- QFADE: the fade runs over QFADE + 1 kickoffs. -/
def rgnFade (d : Device) (r : Nat) : Nat := rgnPolicy d r / 2 ^ 8 % 64

/-- DOMAIN of a timed region. -/
def rgnDomain (d : Device) (r : Nat) : Fin 4 := ⟨rgnPolicy d r / 2 ^ 16 % 4, by omega⟩

/-- Whether a region is timed (R76). -/
def rgnTimed (r : Nat) : Bool :=
  match regionClass r with
  | some c => decide (c = 0 ∨ c = 2 ∨ c = 4 ∨ c = 5)
  | none => false

/-- A region replaced. -/
def setRgn (d : Device) (r : Nat) (x : Region) : Device :=
  { d with regions := sparsePut (fun _ => Region.reset) d.regions r x }

/-- A region. -/
def rgn (d : Device) (r : Nat) : Region := Regions.at_ d.regions r

/-- A payload scaled by a fraction and truncated (R82, R129). -/
def scaled (v : Word) (num den : Nat) : Word := BitVec.ofInt 32 (v.toInt * num / den)

/-- An output entry of a region in rate domain `k` under its fade: `w` is the value the region forms, `last` the value
of its last frame (R82, R83, R85, R171: a HELD tag stays). -/
def faded (d : Device) (r : Nat) (k : Fin 4) (w last : TWord) : TWord :=
  let q := rgnFade d r
  match (rgn d r).fades[k] with
  | .out i => ⟨scaled w.p (q - i) (q + 1), w.t⟩
  | .into i => ⟨scaled w.p (i + 1) (q + 1), w.t⟩
  | .stopped => if (rgn d r).stopMode then ⟨0, .sample⟩ else ⟨last.p, .held⟩
  | .resume => if (rgn d r).stopMode then ⟨0, .sample⟩ else ⟨last.p, .held⟩
  | .none => w
  | .req => w

end Sys2Proof.Machine
end

