-- ==== Sys2Proof/Machine/Spin.lean ====
section
/-! DEFINITION. Spin units (R212 to R227): programs, stage operations, issue, result registers. -/

namespace Sys2Proof.Machine

/-! ### G.711 (R222) -/

/-- The number of a segment: how often `x` halves before it is below `lim`. -/
def segment (x lim : Nat) : Nat → Nat
  | 0 => 0
  | k + 1 => if x < lim then 0 else segment (x / 2) lim k + 1

/-- The µ-law code of a 14-bit value, with the inversion of all transmitted bits. A magnitude on a decision value takes the outer interval. -/
def ulawEnc (v : Int) : Nat :=
  let m := Nat.min v.natAbs 8158 + 33
  let s := segment m 64 7
  255 - ((if v < 0 then 128 else 0) + 16 * s + m / 2 ^ (s + 1) % 16)

/-- The 14-bit value of a µ-law code. -/
def ulawDec (c : Nat) : Int :=
  let u := 255 - c % 256
  let m : Int := ((2 * (u % 16) + 33) * 2 ^ (u / 16 % 8) - 33 : Nat)
  if 128 ≤ u then -m else m

/-- The A-law code of a 13-bit value, with the inversion of even bits. A magnitude on a decision value takes the outer interval. -/
def alawEnc (v : Int) : Nat :=
  let m := Nat.min v.natAbs 4095 / 2
  let s := segment m 32 6
  let body := if m < 16 then m else 16 * (s + 1) + (m / 2 ^ s - 16)
  Nat.xor 0x55 ((if v < 0 then 0 else 128) + body)

/-- The 13-bit value of an A-law code. -/
def alawDec (c : Nat) : Int :=
  let a := Nat.xor 0x55 (c % 256)
  let s := a / 16 % 8
  let m : Int := if s = 0 then 2 * (a % 16 : Nat) + 1 else ((2 * (a % 16 + 16) + 1) * 2 ^ (s - 1) : Nat)
  if 128 ≤ a then m else -m

/-! ### Stages (R221 to R224) -/

/-- What a stage gives: its narrowed value and the worst tag of the table entries read so far. -/
structure SpinVal where
  v : Int
  ov : Bool
  sat : Bool
  tabTag : Tag
  deriving DecidableEq, Repr

/-- An entry of the unit's active table (R225: a parity failure delivers POISON). -/
def spinTab (u : SpinUnit) (i : Nat) : TWord := cellRead (sparseGet cellUninit u.tab i)

/-- The worse of a table tag and another (R225). -/
def worseTag (a b : Tag) : Tag := (worst a b).getD a

/-- The table address of TBL and TBLN (R223): index and fraction. -/
def tabIndex (v : Int) (c0 c1 : Word) : Nat × Nat :=
  let d := v - c0.toInt
  let a := if d < 0 then 0 else Nat.min (d.toNat * 2 ^ (c1.toNat % 32)) (2 ^ 32 - 1)
  (a / 2 ^ 20, a % 2 ^ 20)

/-- LOG2 (R224). -/
def spinLog2 (s : Bool) (v : Int) (c0 : Word) : Narrowed :=
  if v ≤ 0 then exact (-(2 ^ 31))
  else
    let n := Nat.log2 v.toNat
    let f := (v - 2 ^ n) * 2 ^ 26 / 2 ^ n
    narrow 32 s (((n : Int) - 31) * 2 ^ 26 + f + c0.toInt)

/-- EXP2 (R224). -/
def spinExp2 (s : Bool) (v : Int) : Narrowed :=
  let e := v / 2 ^ 26
  let f := v - e * 2 ^ 26
  let k := e + 5
  narrow 32 s (if 0 ≤ k then (2 ^ 26 + f) * 2 ^ k.toNat else (2 ^ 26 + f) / 2 ^ (-k).toNat)

/-- A 32-bit pattern read as a signed value. -/
def pattern (n : Nat) : Int := (BitVec.ofNat 32 n).toInt

/-- BFX: a field of the logically shifted value (R222). -/
def spinBfx (v : Int) (c0 c1 : Word) : Nat :=
  (BitVec.ofInt 32 v).toNat / 2 ^ (c0.toNat % 32) % 2 ^ (c1.toNat % 64)

/-- The exact result of a stage without a table, narrowed (R222). -/
def spinStage (op : Nat) (s : Bool) (v x : Int) (c0 c1 : Word) : Narrowed :=
  let a := c0.toInt
  let b := c1.toInt
  let k := (c0.extractLsb' 0 8).toInt
  let bits := BitVec.ofInt 32 v
  match op with
  | 0x01 => narrow 32 s (v + a)
  | 0x02 => narrow 32 s (v - a)
  | 0x03 => narrow 32 s (a - v)
  | 0x04 => narrow 32 s (v * a / 2 ^ 31)
  | 0x05 => narrow 32 s (v * a / 2 ^ 31 + b)
  | 0x06 => shlSigned 32 s v k
  | 0x07 => shraSigned 32 s v k
  | 0x08 => exact (shrlSigned bits k).toInt
  | 0x09 => narrow 32 s (if 0 ≤ v then v else -v)
  | 0x0A => narrow 32 s (-v)
  | 0x0B => exact (if v ≤ a then v else a)
  | 0x0C => exact (if a ≤ v then v else a)
  | 0x0D => exact (let m := if a ≤ v then v else a; if m ≤ b then m else b)
  | 0x0E => exact (bits &&& c0).toInt
  | 0x0F => exact (bits ^^^ c0).toInt
  | 0x12 => spinLog2 s v c0
  | 0x13 => spinExp2 s v
  | 0x14 => exact (if a ≤ v then b else v)
  | 0x15 => exact (if v < a then b else v)
  | 0x16 => exact (if a ≤ v then x else b)
  | 0x17 => narrow 32 s (v + x)
  | 0x18 => narrow 32 s (v * x / 2 ^ 31)
  | 0x19 => exact (pattern (spinBfx v c0 c1))
  | 0x1A =>
    let n := c1.toNat % 64
    let f := spinBfx v c0 c1
    exact (if n = 0 then 0 else if 2 ^ (n - 1) ≤ f then (f : Int) - 2 ^ n else f)
  | 0x1B => exact (ulawEnc (v / 2 ^ 18))
  | 0x1C => exact (ulawDec (bits.toNat % 256) * 2 ^ 18)
  | 0x1D => exact (alawEnc (v / 2 ^ 19))
  | 0x1E => exact (alawDec (bits.toNat % 256) * 2 ^ 19)
  | 0x1F => narrow 32 s (if 0 ≤ x then (if 0 ≤ v then v else -v) else (if 0 ≤ v then -v else v))
  | _ => exact v

/-- One stage of a program (R221): its word j, S bit and constants, the table for TBL and TBLN. -/
def spinStep (u : SpinUnit) (x : Int) (op : Nat) (s : Bool) (c0 c1 : Word) (z : SpinVal) : SpinVal :=
  if op = 0x10 then
    let (i, f) := tabIndex z.v c0 c1
    let t0 := spinTab u i
    let t1 := spinTab u (Nat.min (i + 1) 4095)
    let n := narrow 32 s (t0.p.toInt + (t1.p.toInt - t0.p.toInt) * f / 2 ^ 20)
    ⟨n.r, z.ov || n.v, z.sat || n.sat, worseTag (worseTag z.tabTag t0.t) t1.t⟩
  else if op = 0x11 then
    let t0 := spinTab u (tabIndex z.v c0 c1).1
    ⟨t0.p.toInt, z.ov, z.sat, worseTag z.tabTag t0.t⟩
  else
    let n := spinStage op s z.v x c0 c1
    ⟨n.r, z.ov || n.v, z.sat || n.sat, z.tabTag⟩

/-- A word of the unit's active program bank (R220). -/
def spinProgWord (u : SpinUnit) (i : Nat) : Word := sparseGet wordZero u.prog i

/-- The stage count of a program (R220). -/
def spinStages (u : SpinUnit) (p : Fin 8) : Nat := (spinProgWord u (64 * p.val)).toNat % 32

/-- Stages `j` to `j + n - 1` of program `p` (R221). -/
def spinRun (u : SpinUnit) (p : Fin 8) (x : Int) : Nat → Nat → SpinVal → SpinVal
  | _, 0, z => z
  | j, n + 1, z =>
    let base := 64 * p.val + 4 + 3 * j
    let w := (spinProgWord u base).toNat
    spinRun u p x (j + 1) n
      (spinStep u x (w % 32) (decide (w / 32 % 2 = 1)) (spinProgWord u (base + 1)) (spinProgWord u (base + 2)) z)

/-- The result of a program on an operand (R218, R221, R225): value, status and tag. -/
def spinEval (u : SpinUnit) (p : Fin 8) (x : TWord) (chk : Bool) : TWord × Bool × Bool :=
  let n := spinStages u p
  let poison := chk && decide (x.t = .addr)
  if n = 0 then (⟨0, if poison then .poison else .invalid⟩, false, false)
  else
    let z := spinRun u p x.p.toInt 0 (Nat.min n 16) ⟨x.p.toInt, false, false, .int⟩
    let t := if poison then .poison else (worst x.t z.tabTag).getD x.t
    (⟨BitVec.ofInt 32 z.v, t⟩, z.ov, z.sat)

/-! ### Issue and results -/

/-- The unit of a processor's role (R212). -/
def spinUnitOf (d : Device) (n : Fin 68) : Fin 16 := ⟨(ag d n).role / 4 % 16, by omega⟩

/-- The slot of a processor's role in its unit (R212). -/
def spinSlotOf (d : Device) (n : Fin 68) : Fin 4 := ⟨(ag d n).role % 4, by omega⟩

/-- The region of a Spin unit. -/
def spinRegion (u : Fin 16) : Nat := 0x90 + u.val

/-- The substitute in mirror mode of a role, if there is one (R475). -/
def mirrorOf (d : Device) (role : Nat) : Option (Fin 68) :=
  (List.finRange 68).find? (fun n => (ag d n).mirror && decide ((ag d n).role = role) && decide (n.val < 64))

/-- A fenced access is dropped and counted (R478). -/
def fencedDrop (d : Device) (n : Fin 68) : Device := incF d (F.ENG_FENCE.DROP n.val)

/-- A result is written into the result registers it goes to, with the unit's sticky status (R217, R221); the unit's
fade scales it (R227). -/
def spinDeliver (d : Device) (u : Fin 16) (f : SpinFly) : Device :=
  let dom := rgnDomain d (spinRegion u)
  let d := f.dest.foldl (fun d n =>
    let e := ag d n
    setAg d n { e with spin := e.spin.set f.prog (faded d (spinRegion u) dom f.val e.spin[f.prog]) }) d
  let d := if f.v then setF d ⟨Adr.SPIN_STAT u.val, f.slot.val, 1⟩ 1 else d
  if f.sat then setF d ⟨Adr.SPIN_STAT u.val, 4 + f.slot.val, 1⟩ 1 else d

/-- Whether a result in flight has reached its cycle: its issuing engine has issued up to it, or has ended its rally. -/
def spinDue (d : Device) (f : SpinFly) : Bool :=
  match f.dest with
  | [] => true
  | n :: _ => decide (f.due ≤ (ag d n).cyc) || decide ((ag d n).phase ≠ .rallying)

/-- The first result of a list that is due, and the others. -/
def takeDue (p : SpinFly → Bool) : List SpinFly → Option (SpinFly × List SpinFly)
  | [] => none
  | f :: fs =>
    if p f then some (f, fs)
    else
      match takeDue p fs with
      | none => none
      | some (g, gs) => some (g, f :: gs)

/-- One due result of a unit is delivered (R217). -/
def spinResult (d : Device) (u : Fin 16) : Device :=
  match takeDue (spinDue d) d.spin[u].fly with
  | none => d
  | some (f, fs) => spinDeliver { d with spin := d.spin.set u { d.spin[u] with fly := fs } } u f

/-- Every result of a unit that a GET of engine `n` in its current cycle must see is delivered (R217). -/
def spinCatchUp (d : Device) (u : Fin 16) (n : Fin 68) : Device :=
  let due := fun f : SpinFly => f.dest.contains n && decide (f.due ≤ (ag d n).cur)
  let now := d.spin[u].fly.filter due
  now.foldl (fun d f => spinDeliver d u f)
    { d with spin := d.spin.set u { d.spin[u] with fly := d.spin[u].fly.filter (fun f => !due f) } }

/-- An issue to the role's unit (R213, R215, R217, R218, R227). -/
def spinIssue (d : Device) (n : Fin 68) (p : Fin 8) (x : TWord) : Device :=
  let e := ag d n
  let u := spinUnitOf d n
  let s := spinSlotOf d n
  match e.own with
  | .mirror => d
  | .fenced => fencedDrop d n
  | .owner =>
    if e.cur % 4 ≠ s.val then setF (addrFault d n) ⟨Adr.SPIN_STAT u.val, 8 + s.val, 1⟩ 1
    else if ¬ Regions.live d.regions (spinRegion u) then d
    else
      let r := spinEval d.spin[u] p x e.chk
      let d := tagFault d n (e.chk && decide (x.t = .addr))
      let dest := n :: (mirrorOf d e.role).toList
      let fly : SpinFly := ⟨s, p, r.1, r.2.1, r.2.2, dest, e.cur + spinStages d.spin[u] p + 2⟩
      let d := tally d 3 1
      { d with spin := d.spin.set u { d.spin[u] with fly := d.spin[u].fly ++ [fly] } }

/-- What a GET receives (R84, R215, R217, R227). -/
def spinGet (d : Device) (n : Fin 68) (p : Fin 8) : Device × TWord :=
  let u := spinUnitOf d n
  let d := spinCatchUp d u n
  let e := ag d n
  match e.own with
  | .mirror =>
    let o := ag d (holder d e.role)
    if o.cur = e.cur ∧ (o.phase = .rallying ∨ o.phase = .ended) then
      (d, ((o.acc.find? (fun a => decide (a.kind = .spinGet) && decide (a.addr = p.val))).map (·.val)).getD (TWord.zero .invalid))
    else (d, TWord.zero .invalid)
  | .fenced => (d, e.spin[p])
  | .owner =>
    let v := if Regions.live d.regions (spinRegion u) then e.spin[p]
      else if decide (Regions.eff d.regions (spinRegion u) = .empty) || (rgn d (spinRegion u)).stopMode then ⟨0, .sample⟩
      else ⟨e.spin[p].p, .held⟩
    (setAg d n { e with acc := e.acc ++ [⟨.spinGet, p.val, v⟩] }, v)

/-- SPIN.ISSUE: a long word of engines only (R371). -/
def execSpinIssue (i : Issue) (ga : GReg) (p : Fin 8) (s : State) : Host.Outcome State Fault Refusal :=
  onDev s (fun d => withWord i (decide (i.slot = .long) && !isCc i.who) true d (fun d =>
    spinIssue d i.who p (readG (srcWork d i) ga)))

/-- SPIN.GET. -/
def execSpinGet (i : Issue) (gd : GReg) (p : Fin 8) (s : State) : Host.Outcome State Fault Refusal :=
  onDev s (fun d => withWord i (decide (i.slot = .long) && !isCc i.who) true d (fun d =>
    let r := spinGet d i.who p
    wrReg r.1 i.who gd r.2))

/-- SPIN.XG: the result register as it stands, then the issue; GA is read before GD is written. -/
def execSpinXg (i : Issue) (gd ga : GReg) (p : Fin 8) (s : State) : Host.Outcome State Fault Refusal :=
  onDev s (fun d => withWord i (decide (i.slot = .long) && !isCc i.who) true d (fun d =>
    let x := readG (srcWork d i) ga
    let r := spinGet d i.who p
    spinIssue (wrReg r.1 i.who gd r.2) i.who p x))

/-- SPIN_RESULT: a due result of a unit is written (R217). -/
def execSpinResult (u : Fin 16) (s : State) : Host.Outcome State Fault Refusal :=
  onDev s (fun d => spinResult d u)

end Sys2Proof.Machine
end

