-- ==== Sys2Proof/Machine/EngineAccess.lean ====
section
/-! DEFINITION. Memory accesses of an engine (R97 to R101, R138 to R143, R191 to R193, R398): what a load, a store, a TAS,
an LDRV and an STCN do at a data address. -/

namespace Sys2Proof.Machine

/-- What an engine data address selects (R99). -/
inductive DataTarget where
  | loc (w : Nat)
  | delay (w : Nat)
  | queue (q : Fin 256)
  | unmapped
  deriving DecidableEq, Repr

/-- The storage at an engine data address (R99). -/
def engTarget (a : Nat) : DataTarget :=
  if a < 0xC000 then .loc a
  else if 0x01000000 ≤ a ∧ a < 0x02000000 then .delay (a - 0x01000000)
  else if 0x02000001 ≤ a ∧ a < 0x02000100 then .queue (queNo (a - 0x02000000))
  else .unmapped

/-- The memory port of an operation's first access (R122). -/
def firstPort (i : Issue) : Nat := if i.slot = .y then 1 else 0

/-- A cell as the operation reads it: for Y, as it stood before X stored (R121). `a` is the data address. -/
def seenCell (d : Device) (i : Issue) (a : Nat) (c : Cell) : Cell :=
  match i.slot, (ag d i.who).pair with
  | .y, some p => (sparseFind p.undo a).getD c
  | _, _ => c

/-- What X overwrites is kept for Y (R121). -/
def keepUndo (d : Device) (i : Issue) (a : Nat) (c : Cell) : Device :=
  let e := ag d i.who
  match i.slot, e.pair with
  | .x, some p => setAg d i.who { e with pair := some { p with undo := sparseInsert p.undo a c } }
  | _, _ => d

/-- An access other engines of the role can see in this cycle is recorded. -/
def noteAcc (d : Device) (n : Fin 68) (k : AccKind) (a : Nat) (v : TWord) : Device :=
  let e := ag d n
  let d := if k = .delayRead ∨ k = .delayWrite then tally d 2 1 else d
  setAg d n { e with acc := e.acc ++ [⟨k, a, v⟩] }

/-- The accesses the role's holder made in the cycle engine `n` is in (R193, R215, R398): in each cycle the holder's word
comes before those of its substitute and of fenced engines (log 1). -/
def ownerAccs (d : Device) (n : Fin 68) : List AccRec :=
  let e := ag d n
  let o := ag d (holder d e.role)
  if o.cur = e.cur ∧ (o.phase = .rallying ∨ o.phase = .ended) then o.acc else []

/-- The holder's access of this cycle to the bank of a word (R193). -/
def ownerOn (d : Device) (n : Fin 68) (w : Nat) : Option AccRec :=
  (ownerAccs d n).find? (fun a =>
    (decide (a.kind = .delayRead) || decide (a.kind = .delayWrite)) && decide (bankOf a.addr = bankOf w))

/-- A performed read of a delay word: a parity failure delivers POISON and is recorded (R205). -/
def delayLoad (d : Device) (i : Issue) (w : Nat) : Device × TWord :=
  let c := seenCell d i (0x01000000 + w) (delayCell d w)
  (if c.bad then parityFail d 0xA i.who.val w else d, cellRead c)

/-- The device address of a delay word, as SYS_ABSENT_ADDR reports it. -/
def delayAddr (w : Nat) : Nat := 4 * w

/-- A slot violation with its fault (R192). -/
def violated (d : Device) (n : Fin 68) (port w : Nat) : Device := slotViolation (addrFault d n) n port w

/-- Whether a load of a word by an engine that is not the role's owner reads it (R193). -/
def otherReads (d : Device) (n : Fin 68) (port w : Nat) : Bool :=
  slotOwned d n port w && ((ownerOn d n w).map (fun a => decide (a.addr = w))).getD true

/-- A load of a word by an engine that is not the role's owner (R193). In a cycle whose slot is not its role's and port's it
delivers POISON with FAULT.ADDR, without a count (DESIGN CHOICE, log 81). -/
def otherLoad (d : Device) (i : Issue) (port w : Nat) : Device × TWord :=
  if ¬ slotOwned d i.who port w then (addrFault d i.who, TWord.zero .poison)
  else
    match ownerOn d i.who w with
    | some a => if a.addr = w then (d, a.val) else (addrFault d i.who, TWord.zero .poison)
    | none => if bankReady d (bankOf w) then delayLoad d i w else (offAccess d w, TWord.zero .uninit)

/-- A pop at a queue port (R139, R398): an engine that is not the owner receives what the owner's pop returned. -/
def portPop (d : Device) (n : Fin 68) (q : Fin 256) : Device × TWord :=
  if (ag d n).own = .owner then
    let r := quePop d q
    (noteAcc r.1 n .queuePop q.val r.2, r.2)
  else
    (d, (((ownerAccs d n).find? (fun a => decide (a.kind = .queuePop) && decide (a.addr = q.val))).map (·.val)).getD
      (TWord.zero .invalid))

/-- A load at a data address (R99 to R101, R138, R139). -/
def engLoad (d : Device) (i : Issue) (port a : Nat) : Device × TWord :=
  let n := i.who
  match engTarget a with
  | .loc w =>
    let c := seenCell d i a (localCell d n w)
    (if c.bad then parFault d n else d, cellRead c)
  | .delay w =>
    match delayWay d n port w with
    | .absent => (absentAccess d 0xA n.val (delayAddr w), TWord.zero .uninit)
    | .stopped => (d, TWord.zero .invalid)
    | .violation => (violated d n port w, TWord.zero .poison)
    | .notOwner => otherLoad d i port w
    | .notReady => (offAccess d w, TWord.zero .uninit)
    | .performed =>
      let r := delayLoad d i w
      (noteAcc r.1 n .delayRead w r.2, r.2)
  | .queue q => portPop d n q
  | .unmapped => (addrFault d n, TWord.zero .poison)

/-- A word of local data stored by the rally; a store into the output block is noted (R478). -/
def localStore (d : Device) (n : Fin 68) (w : Nat) (v : TWord) : Device :=
  let b := ioBase d n
  let e := ag d n
  putLocal (setAg d n { e with stored := e.stored || (decide (b + 64 ≤ w) && decide (w < b + 128)) }) n w v

/-- The performed write of a delay word; the word it held is recorded for the cycle (R193, R197): a load of the word by an
engine that is not the owner receives it (DESIGN CHOICE, log 82). -/
def delayStore (d : Device) (i : Issue) (w : Nat) (v : TWord) : Device :=
  let c := delayCell d w
  putDelay (noteAcc (keepUndo d i (0x01000000 + w) c) i.who .delayWrite w (cellRead c)) w v

/-- A store at a data address (R99, R100, R138, R139, R143). -/
def engStore (d : Device) (i : Issue) (port a : Nat) (v : TWord) : Device :=
  let n := i.who
  match engTarget a with
  | .loc w => localStore (keepUndo d i a (localCell d n w)) n w v
  | .delay w =>
    match delayWay d n port w with
    | .absent => absentAccess d 0xA n.val (delayAddr w)
    | .stopped => d
    | .violation => violated d n port w
    | .notOwner => if (ag d n).own = .fenced then fencedDrop d n else d
    | .notReady => offAccess d w
    | .performed => delayStore d i w v
  | .queue q =>
    match (ag d n).own with
    | .owner => quePush d q v
    | .mirror => d
    | .fenced => fencedDrop d n
  | .unmapped => addrFault d n

/-- The word a TAS stores (R140). -/
def tasWord : TWord := ⟨1, .int⟩

/-- A memory TAS at a data address (R84, R100, R139, R140, R143, R193). -/
def engTas (d : Device) (i : Issue) (a : Nat) : Device × TWord :=
  let n := i.who
  match engTarget a with
  | .loc w =>
    if (ag d n).own = .fenced then (d, tasWord)
    else
      let c := localCell d n w
      (localStore (if c.bad then parFault d n else d) n w tasWord, cellRead c)
  | .delay w =>
    match delayWay d n 0 w with
    | .absent => (absentAccess d 0xA n.val (delayAddr w), TWord.zero .uninit)
    | .stopped => (d, TWord.zero .invalid)
    | .violation => (violated d n 0 w, TWord.zero .poison)
    | .notOwner => (d, tasWord)
    | .notReady => (offAccess d w, TWord.zero .uninit)
    | .performed =>
      let r := delayLoad d i w
      (delayStore r.1 i w tasWord, r.2)
  | .queue _ => (addrFault d n, TWord.zero .poison)
  | .unmapped => (addrFault d n, TWord.zero .poison)

/-- A reservation taken or given up. -/
def setResv (d : Device) (n : Fin 68) (r : Option Loc) : Device := setAg d n { ag d n with resv := r }

/-- An LDRV at a data address (R84, R97, R100, R141, R193, R208). -/
def engLdrv (d : Device) (i : Issue) (a : Nat) : Device × TWord :=
  let n := i.who
  match engTarget a with
  | .loc w =>
    let r := engLoad d i 0 a
    (setResv r.1 n (some (.localData n.val w)), r.2)
  | .delay w =>
    let r := engLoad d i 0 a
    match delayWay d n 0 w with
    | .absent => r
    | .stopped => r
    | .notReady => r
    | .violation => (setResv r.1 n none, r.2)
    | .notOwner => (setResv r.1 n (if otherReads d n 0 w then some (.delay w) else none), r.2)
    | .performed => (setResv r.1 n (some (.delay w)), r.2)
  | .queue _ => (setResv (addrFault d n) n none, TWord.zero .poison)
  | .unmapped => (setResv (addrFault d n) n none, TWord.zero .poison)

/-- The result of an STCN: 1 when it stored, 0 when it did not, tagged INT (R142). -/
def stcnWord (b : Bool) : TWord := ⟨if b then 1 else 0, .int⟩

/-- An STCN at a data address (R84, R97, R100, R141 to R143, R193, R208): the result for G2. -/
def engStcn (d : Device) (i : Issue) (a : Nat) (v : TWord) : Device × TWord :=
  let n := i.who
  let e := ag d n
  let gone := setResv d n none
  match engTarget a with
  | .loc w =>
    if e.resv = some (.localData n.val w) ∧ e.own ≠ .fenced then (localStore gone n w v, stcnWord true)
    else (gone, stcnWord false)
  | .delay w =>
    match delayWay d n 0 w with
    | .absent => (absentAccess gone 0xA n.val (delayAddr w), stcnWord false)
    | .stopped => (gone, stcnWord false)
    | .violation => (violated gone n 0 w, TWord.zero .poison)
    | .notOwner => (gone, stcnWord false)
    | .notReady => (offAccess d w, stcnWord false)
    | .performed =>
      if e.resv = some (.delay w) then (delayStore gone i w v, stcnWord true)
      else (noteAcc gone n .delayRead w (cellRead (delayCell d w)), stcnWord false)
  | .queue _ => (addrFault gone n, TWord.zero .poison)
  | .unmapped => (addrFault gone n, TWord.zero .poison)

end Sys2Proof.Machine
end

