-- ==== Sys2Proof/Machine/Guard.lean ====
section
/-! DEFINITION. The Guard (R278 to R294): processing of a transmit slot, tighten-only access, the watchdog's
hold-then-ramp and the Whistle. -/

namespace Sys2Proof.Machine

/-- A Guard channel. -/
def guardCh (d : Device) (c : Nat) : GuardCh := sparseGet (fun _ => GuardCh.reset) d.guard c

/-- A Guard channel replaced. -/
def putGuard (d : Device) (c : Nat) (x : GuardCh) : Device :=
  { d with guard := sparsePut (fun _ => GuardCh.reset) d.guard c x }

/-- A value limited to a range. -/
def clampInt (lo hi x : Int) : Int := if x < lo then lo else if hi < x then hi else x

/-- The limits of a Guard channel as one frame uses them (R283). -/
structure GuardLimits where
  ceil : Int
  slew : Int
  dcthr : Nat
  thlim : Nat
  wc : Int
  wm : Int
  tc1 : Nat
  tc2 : Nat
  dctc : Nat
  deriving DecidableEq, Repr

/-- The limits a channel has in force. -/
def guardLimits (d : Device) (c : Nat) : GuardLimits where
  ceil := getF d (F.GUARD_CEIL.CEIL c)
  slew := getF d (F.GUARD_SLEW.SLEW c)
  dcthr := getF d (F.GUARD_DCTHR.DCTHR c)
  thlim := getF d (F.GUARD_THLIM.THLIM c)
  wc := getF d (F.GUARD_THW.WC c)
  wm := getF d (F.GUARD_THW.WM c)
  tc1 := getF d (F.GUARD_TC.TC1 c)
  tc2 := getF d (F.GUARD_TC.TC2 c)
  dctc := getF d (F.GUARD_TC.DCTC c)

/-- The detector and gain of R280 for a value x: m, trip and gdc. -/
def guardDc (l : GuardLimits) (g : GuardCh) (x : Int) : GuardCh :=
  let m := g.m + (x - g.m) / 2 ^ l.dctc
  let trip := if ¬ g.trip ∧ l.dcthr < m.natAbs then true else if g.trip ∧ m.natAbs ≤ l.dcthr / 2 then false else g.trip
  { g with m := m, trip := trip, gdc := if trip then g.gdc - 2 ^ 25 else Nat.min (2 ^ 31) (g.gdc + 2 ^ 25) }

/-- a, s and y of R280 after the detector. -/
def guardLevels (l : GuardLimits) (g : GuardCh) (x : Int) : Int × Int × Int :=
  let a := x * g.gth / 2 ^ 31 * g.gdc / 2 ^ 31
  let s := g.zprev + clampInt (-l.slew) l.slew (a - g.zprev)
  (a, s, clampInt (-l.ceil) l.ceil s)

/-- The thermal model and gain of R280 driven by z, and zprev. -/
def guardHeat (l : GuardLimits) (g : GuardCh) (z : Int) : GuardCh :=
  let e := z * z / 2 ^ 31
  let thc : Int := g.thc + (e * l.wc / 2 ^ 12 - g.thc) / 2 ^ l.tc1
  let thm : Int := g.thm + (e * l.wm / 2 ^ 12 - g.thm) / 2 ^ l.tc2
  let gth := if ((l.thlim * 2 ^ 4 : Nat) : Int) < thc + thm then g.gth - g.gth / 2 ^ 8 else g.gth + (2 ^ 31 - g.gth) / 2 ^ 14
  { g with thc := thc, thm := thm, gth := gth, zprev := z }

/-- The hold-then-ramp value in frame `i` after the capture of H (R290), and whether it is a forced 0. -/
def holdRamp (hold ramp : Nat) (h : Int) (i : Nat) : Int × Bool :=
  if i < hold then (h, false)
  else
    let j := i - hold + 1
    if j < ramp then (h * (ramp - j : Nat) / (ramp : Nat), false) else (0, true)

/-- The value z a channel emits (R290, R293): `zero` is the Whistle or the loader's gate; the flag says that the output
is forced to 0. -/
def guardOut (wd : Option (Nat × Nat)) (g : GuardCh) (y : Int) (zero : Bool) : GuardCh × Int × Bool :=
  match wd with
  | none => ({ g with hold := none }, if zero then 0 else y, zero)
  | some (hold, ramp) =>
    let (h, i) := g.hold.getD (g.zprev, 0)
    let v := holdRamp hold ramp h i
    ({ g with hold := some (h, i + 1) }, if zero then 0 else v.1, zero || v.2)

/-- The status and events of one processed frame (R282): the channel before and after, and its levels. -/
def guardStatus (d : Device) (c : Nat) (old new : GuardCh) (lv : Int × Int × Int) (a : Int) : Device :=
  let d := setB (setB d (F.GUARD_CHSTAT.TRIP c) new.trip) (F.GUARD_CHSTAT.THACT c) (decide (new.gth < 2 ^ 31))
  let d := if lv.2.1 ≠ lv.2.2 then setB d (F.GUARD_CHSTAT.CEIL c) true else d
  let d := if lv.2.1 ≠ a then setB d (F.GUARD_CHSTAT.SLEW c) true else d
  let d := if new.trip && !old.trip then
    raiseEv (incF (setB d (F.GUARD_CHSTAT.DCEV c) true) F.GUARD_TRIPCNT.DC) 0x194 else d
  let d := if new.gth < 2 ^ 31 ∧ old.gth = 2 ^ 31 then
    raiseEv (incF (setB d (F.GUARD_CHSTAT.THEV c) true) F.GUARD_TRIPCNT.THERM) 0x195 else d
  let d := setF d (F.GUARD_THG.GTH c) new.gth
  setF d (F.GUARD_THETA.THETA c) (new.thc + new.thm).toNat

/-- One value through a Guard channel (R280): the value z and whether it is forced to 0. -/
def guardProcess (d : Device) (c : Nat) (x : Int) (zero : Bool) : Device × Int × Bool :=
  let l := guardLimits d c
  let old := guardCh d c
  let g := guardDc l old x
  let lv := guardLevels l g x
  let o := guardOut d.wdHold g lv.2.2 zero
  let new := guardHeat l o.1 o.2.1
  (guardStatus (putGuard d c new) c old new lv lv.1, o.2.1, o.2.2)

/-- A channel at the resumption of its port (R281). -/
def guardResume (d : Device) (c : Nat) : Device :=
  putGuard (setB d (F.GUARD_CHSTAT.TRIP c) false) c { guardCh d c with m := 0, zprev := 0, trip := false }

/-- Every channel in use changed by one function. -/
def guardAll (f : GuardCh → GuardCh) (d : Device) : Device :=
  { d with guard := (d.guard.map (fun e => (e.1, f e.2))).filter (fun e => decide (e.2 ≠ GuardCh.reset)) }

/-- Every channel at a wake from SLEEP or DEEP, with the trip it reports (R281, R282). -/
def guardWake (d : Device) : Device :=
  guardAll (fun g => { g with m := 0, zprev := 0, trip := false })
    ((d.guard.map (·.1)).foldl (fun d c => setB d (F.GUARD_CHSTAT.TRIP c) false) d)

/-! ### Tighten-only access (R6, R287 to R289) -/

/-- An RT field: where it is, whether larger is tighter, and its range. -/
structure RtField where
  f : Fld
  larger : Bool
  lo : Nat
  hi : Nat
  deriving DecidableEq, Repr

/-- The RT fields of a Guard register (R287, R288). -/
def rtFields (a : Nat) : List RtField :=
  if a = Adr.GUARD_WDOG then [⟨F.GUARD_WDOG.HOLD, false, 0, 65535⟩, ⟨F.GUARD_WDOG.RAMP, false, 1, 65535⟩]
  else if 0x1C070000 ≤ a ∧ a < 0x1C078000 then
    let c := (a - 0x1C070000) / 32
    match a % 32 with
    | 0x00 => [⟨F.GUARD_CEIL.CEIL c, false, 0, 0x7FFFFFFF⟩]
    | 0x04 => [⟨F.GUARD_SLEW.SLEW c, false, 1, 0xFFFFFFFF⟩]
    | 0x08 => [⟨F.GUARD_DCTHR.DCTHR c, false, 0, 0xFFFFFFFF⟩]
    | 0x0C => [⟨F.GUARD_THLIM.THLIM c, false, 0, 0xFFFFFFFF⟩]
    | 0x10 => [⟨F.GUARD_THW.WC c, true, 0, 0xFFFF⟩, ⟨F.GUARD_THW.WM c, true, 0, 0xFFFF⟩]
    | _ => []
  else []

/-- Whether a value is within an RT field's range (R288). -/
def rtInRange (x : RtField) (v : Nat) : Bool := decide (x.lo ≤ v ∧ v ≤ x.hi)

/-- Whether a value is at least as tight as the one in force (R5, R287). -/
def rtTighter (x : RtField) (cur v : Nat) : Bool := if x.larger then decide (cur ≤ v) else decide (v ≤ cur)

/-- The value of an RT field in a written word. -/
def rtNew (x : RtField) (v : Nat) : Nat := bitsOf v x.f.lo x.f.len

/-- One field of a written word, judged on its own (R6, R288). -/
def rtField (v : Nat) (d : Device) (x : RtField) : Device :=
  if rtInRange x (rtNew x v) && rtTighter x (getF d x.f) (rtNew x v) then setF d x.f (rtNew x v) else d

/-- Whether a written word loosens a field (R6, R288). -/
def rtLoosens (d : Device) (v : Nat) (x : RtField) : Bool :=
  rtInRange x (rtNew x v) && !rtTighter x (getF d x.f) (rtNew x v)

/-- A write of a Guard RT register, its value already merged to 32 bits (R6, R287 to R289). -/
def guardRtWrite (d : Device) (q : Req) (a v : Nat) : Device :=
  let fs := rtFields a
  let loose := fs.any (rtLoosens d v)
  let taken := fs.any (fun x => rtInRange x (rtNew x v) && rtTighter x (getF d x.f) (rtNew x v))
  let d := fs.foldl (rtField v) d
  let d := if taken then d else ignored d
  if loose then
    raiseEv (setF (setF (incF d F.GUARD_STAT.LOOSEN_CNT) F.GUARD_STAT.LPATH (reqPath q)) F.GUARD_LOOSEN_ADDR.ADDR a) 0x197
  else d

/-! ### Watchdog and Whistle -/

/-- The watchdog's expiry reaches the Guard (R290): a second one during a hold-then-ramp does not restart it. -/
def guardExpire (d : Device) : Device :=
  let d := raiseCtrl { d with wdRestarted := false } 0x198
  match d.wdHold with
  | some _ => d
  | none =>
    let d := guardAll (fun g => { g with hold := none }) d
    setB { d with wdHold := some (getF d F.GUARD_WDOG.HOLD, getF d F.GUARD_WDOG.RAMP) } F.GUARD_STAT.WDHOLD true

/-- The next valid sample of every slot is faded in (R269). -/
def fadeInAll (d : Device) : Device :=
  { d with conc := (List.range 1024).foldl (fun m c =>
      sparsePut (fun _ => Conc.reset) m c { sparseGet (fun _ => Conc.reset) m c with due := true }) d.conc }

/-- A release of the hold-then-ramp (R291): only with the watchdog running and restarted since it expired. -/
def guardRelease (d : Device) (running : Bool) : Device :=
  if d.wdHold ≠ none ∧ running ∧ d.wdRestarted then
    fadeInAll (setB { d with wdHold := none } F.GUARD_STAT.WDHOLD false)
  else ignored d

/-- WHISTLE_N asserted as the CORE synchroniser and the ports see it (R57, R292); the pin is not sampled in OFF. -/
def whistleAssert (d : Device) : Device :=
  if d.pstate = .off then { d with whistle := true }
  else if d.whistle then d
  else
    raiseEv (setB { d with whistle := true, sap := d.sap.map (fun x => { x with whSeen := true }) } F.GUARD_STAT.WHISTLE true) 0x199

/-- WHISTLE_N released (R294). -/
def whistleRelease (d : Device) : Device := setB { d with whistle := false } F.GUARD_STAT.WHISTLE false

end Sys2Proof.Machine
end

