-- ==== Sys2Proof/Machine/Clocks.lean ====
section
/-! DEFINITION. PLLs, rate domains, kickoff generators, time of day and its servo, word clock and PPS outputs
(R156 to R161, R295 to R321). -/

namespace Sys2Proof.Machine

/-! ### Settings in effect -/

/-- A word of region 0x0A2's field block as last put into effect by a resumption or a handover (R84, R299, R308). -/
def clkWord (d : Device) (o : Nat) : Nat :=
  (sparseGet regReset d.eff (0x1F0A2000 + o)).toNat

/-- A word of region 0x0A2's field block put into effect, and read so in the window (R78). -/
def setClkWord (d : Device) (o : Nat) (v : Nat) : Device :=
  setReg { d with eff := sparsePut regReset d.eff (0x1F0A2000 + o) (BitVec.ofNat 32 v) } (0x1F0A2000 + o)
    (BitVec.ofNat 32 v)

/-- S_CLK.REF.KHZ in effect. -/
def refKhz (d : Device) : Nat := clkWord d 0x40 % 2 ^ 16

/-- S_CLK.TIME.PULL in effect. -/
def pullPpm (d : Device) : Nat := clkWord d 0x48 / 2 ^ 16 % 2 ^ 10

/-- pull_u, in units of 2^-40 (R312). -/
def pullU (d : Device) : Int := (pullPpm d * 2 ^ 40 / 10 ^ 6 : Nat)

/-- The media PLL that drives a rate domain. -/
def ratePll (d : Device) (k : Fin 4) : Nat := clkWord d (0x78 + 8 * k.val) / 2 % 4

/-- The media clock divider of a rate domain. -/
def rateMdiv (d : Device) (k : Fin 4) : Nat := clkWord d (0x78 + 8 * k.val) / 2 ^ 8 % 2 ^ 8

/-- The media clock cycles per kickoff of a rate domain. -/
def rateKdiv (d : Device) (k : Fin 4) : Nat := clkWord d (0x78 + 8 * k.val) / 2 ^ 16 % 2 ^ 16

/-- The nominal rate of a rate domain in Hz. -/
def rateFs (d : Device) (k : Fin 4) : Nat := clkWord d (0x7C + 8 * k.val) % 2 ^ 19

/-- Whether the clock and rate domains region configures a rate domain (R84, R157). -/
def domConfigured (d : Device) (k : Fin 4) : Bool :=
  Regions.live d.regions 0xA2 && decide (clkWord d (0x78 + 8 * k.val) % 2 = 1)

/-- Whether a media PLL is muted. -/
def mediaMuted (d : Device) (m : Nat) : Bool := getB d (F.CLK_PLLSTAT.MUTED (2 + m % 4))

/-- Whether a rate domain produces kickoffs (R157). -/
def produces (d : Device) (k : Fin 4) : Bool :=
  domConfigured d k && !mediaMuted d (ratePll d k) && awake d && !d.halted[k]

/-- A rate domain by number. -/
def dom (k : Nat) : Fin 4 := ⟨k % 4, by omega⟩

/-- Core frequency in units of 0.3 GHz at an operating point: 1 to 4. -/
def coreMult (o : Nat) : Nat := o % 4 + 1

/-- Core cycles per sample period at the highest rate of a domain and an operating point (R160, R301). -/
def periodCycles (d : Device) (fs o : Nat) : Nat :=
  coreMult o * 300000000 * 10 ^ 6 / Nat.max 1 (fs * (10 ^ 6 + pullPpm d))

/-- The cycle budget of R160. -/
def budget (d : Device) (fs o : Nat) : Nat := periodCycles d fs o - 16

/-! ### Target kickoffs (R69, R156, R158) -/

/-- The target of a kickoff number compared with a domain's current count. -/
def targetOf (d : Device) (k : Fin 4) (next : Bool) (ko : Nat) : Target :=
  if next then ⟨none, false⟩
  else
    let diff := (ko + 2 ^ 32 - d.seen[k] % 2 ^ 32) % 2 ^ 32
    if 0 < diff ∧ diff < 2 ^ 31 then ⟨some (d.seen[k] + diff), false⟩ else ⟨none, true⟩

/-- Whether a target's kickoff has come at count `n`. -/
def Target.due (t : Target) (n : Nat) : Bool := t.at_.all (fun m => decide (m ≤ n))

/-- Whether a target applied at count `n` is late. -/
def Target.isLate (t : Target) (n : Nat) : Bool := t.late || t.at_.any (fun m => decide (m < n))

/-! ### Time of day -/

/-- The time of day in ns. -/
def tod (d : Device) : Nat := reg64 d Adr.TIME_TOD

/-- The correction ε in units of 2^-40. -/
def eps (d : Device) : Int := (reg d Adr.TIME_FREQ).toInt

/-- The correction replaced. -/
def setEps (d : Device) (e : Int) : Device := setReg d Adr.TIME_FREQ (BitVec.ofInt 32 e)

/-- The media PLL that is the time source. -/
def timeSrc (d : Device) : Nat := getF d F.TIME_STAT.TSRC

/-- The time of day advanced by a number of 2^-32 ns. -/
def advance (d : Device) (k : Nat) : Device :=
  let t := tod d * 2 ^ 32 + getF d F.TIME_TODFRAC.FRAC + k
  setF (setReg64 d Adr.TIME_TOD (t / 2 ^ 32 % 2 ^ 64)) F.TIME_TODFRAC.FRAC (t % 2 ^ 32)

/-- What one edge of the clock that drives TIME adds, in 2^-32 ns (R310): 8 ns of the time tap, or, while the source PLL
is muted, one REF_IN period corrected by ε. -/
def edgeStep (d : Device) : Nat :=
  if mediaMuted d (timeSrc d) then
    ((10 ^ 6 * 2 ^ 32 : Int) * (2 ^ 40 + eps d) / (2 ^ 40 * (Nat.max 1 (refKhz d) : Nat))).toNat
  else 8 * 2 ^ 32

/-- One edge of the clock that drives TIME (R310, R317, R318): the time of day advances, the high phases of the word clocks
and of PPS_OUT run down, and an edge of the time tap may pass a whole second. TIME stands still until its source has locked
after a wake (R319). -/
def timeEdge (d : Device) : Device :=
  if d.timeWait.isSome then d
  else
    let k := edgeStep d
    let e := advance d k
    { e with
      wclk := d.wclk.map (fun x => { x with left := x.left - k })
      ppsLeft := d.ppsLeft - k
      ppsDue := !mediaMuted d (timeSrc d) && decide (tod d / 10 ^ 9 < tod e / 10 ^ 9) }

/-- EVT_TIME_STATE and the new state when the servo's state changes (R313): 0 FREE, 1 ACQUIRE, 2 LOCKED, 3 HOLDOVER. -/
def setTimeState (d : Device) (st : Nat) : Device :=
  if getF d F.TIME_STAT.STATE = st then d
  else
    let d := raiseEv (setF d F.TIME_STAT.STATE st) 0x19B
    if st = 3 then incF d F.TIME_STAT.REFLOSS else d

/-- Whether the time source PLL is locked. -/
def timeSrcLocked (d : Device) : Bool := getB d (F.CLK_PLLSTAT.LOCK (2 + timeSrc d))

/-- In FREE, TIME_LOCKED follows the lock of the time source PLL (R313). -/
def freeLocked (d : Device) : Device :=
  if getF d F.TIME_STAT.STATE = 0 then setB d F.TIME_STAT.LOCKED (timeSrcLocked d) else d

/-- The time of day with its fraction, in 2^-32 ns. -/
def todFine (d : Device) : Nat := tod d * 2 ^ 32 + getF d F.TIME_TODFRAC.FRAC

/-- Every domain that produces kickoffs restarts its count under R304 from the present time of day; its word clocks wait for
their next rising edge. -/
def restartDomains (d : Device) (p : Fin 4 → Bool) : Device :=
  { d with
    gap := Vector.ofFn (fun k => if p k && produces d k then some (todFine d) else d.gap[k])
    wclk := d.wclk.map (fun x => if p (dom x.dom) && produces d (dom x.dom) then { x with left := 0 } else x) }

/-- A step of the time of day (R304, R313, R315). -/
def stepTime (d : Device) (x : Int) : Device :=
  let d := setReg64 d Adr.TIME_TOD (((tod d : Int) + x) % 2 ^ 64).toNat
  let d := if getF d F.TIME_STAT.STATE = 1 then setB d F.TIME_STAT.LOCKED false else d
  restartDomains { d with winBad := true } (fun _ => true)

/-- TIME restarts on AON edge A1 (R319, R320). -/
def timeRestart (d : Device) (a1 : Nat) : Device :=
  let n := (a1 + 2 ^ 48 - d.restA0) % 2 ^ 48
  let cal := getF d F.TIME_AONCAL.PERIOD
  let dt := n * cal / 2 ^ 16
  let unc := (2 * cal * 10 ^ 9 + dt * (getF d F.TIME_AONQ.SPREAD + getF d F.TIME_AONQ.TOL) * 2 ^ 16 + (2 ^ 16 * 10 ^ 9 - 1))
    / (2 ^ 16 * 10 ^ 9)
  let d := setReg64 { d with timeWait := none, winBad := true, servo := { d.servo with lockRun := 0 } } Adr.TIME_TOD
    ((d.restT0 + dt) % 2 ^ 64)
  let d := setF d F.TIME_TODFRAC.FRAC (n * cal % 2 ^ 16 * 2 ^ 16)
  let d := setF (setF d F.TIME_WAKEDELTA.AON n) F.TIME_WAKE_UNC.NS (Nat.min unc 0xFFFFFFFF)
  let d := setF d F.TIME_AON.COUNT a1
  let d := setB d F.TIME_STAT.LOCKED false
  setTimeState d (if getF d F.TIME_CTL.REFSEL = 0 then 0 else 1)

/-- After a wake TIME restarts at A1, which lies after the lock of the time source PLL (R319). -/
def timeBegin (d : Device) (a1 : Nat) : Device :=
  if timeSrcLocked d then timeRestart d a1 else { d with timeWait := some a1 }

/-- A value limited to ± a bound. -/
def clampTo (b x : Int) : Int := if x < -b then -b else if b < x then b else x

/-- The servo's correction for one phase error (R312): the integrator and ε. -/
def servoUpdate (d : Device) (e : Int) : Device :=
  let u := pullU d
  let i := clampTo u (d.servo.i + e * 2 ^ 24 / 2 ^ getF d F.TIME_CTL.KI)
  let x := clampTo u (i + e * 2 ^ 24 / 2 ^ getF d F.TIME_CTL.KP)
  setEps { d with servo := { d.servo with i := i, hist := (x :: d.servo.hist).take 64 } } x

/-- The mean of the servo's last values (R314). -/
def servoMean (d : Device) : Int :=
  match d.servo.hist with
  | [] => eps d
  | h => h.foldl (· + ·) 0 / (h.length : Int)

/-- HOLDOVER: ε is held at the mean of the last 64 values (R313, R314). -/
def enterHoldover (d : Device) : Device := setTimeState (setEps d (servoMean d)) 3

/-- An event within or outside the lock window while acquiring or locked (R313). -/
def servoCount (d : Device) (e : Int) : Device :=
  let run := if e.natAbs ≤ getF d F.TIME_LOCKPAR.LOCKW then d.servo.lockRun + 1 else 0
  let d := { d with servo := { d.servo with lockRun := run } }
  if getF d F.TIME_LOCKPAR.LOCKN ≤ run then setB (setTimeState d 2) F.TIME_STAT.LOCKED true else d

/-- One reference event with phase error `e0` in whole ns (R312, R313). -/
def servoEvent (d : Device) (e0 : Int) : Device :=
  let e := e0 + (reg d Adr.TIME_REFOFS).toInt
  let d := setReg { d with refNs := 0 } Adr.TIME_PHERR (BitVec.ofInt 32 (clampTo (2 ^ 31 - 1) e))
  if getF d F.TIME_STAT.STATE = 2 ∧ 1000000 < e.natAbs then enterHoldover d
  else
    let d := if getF d F.TIME_STAT.STATE = 3 then setTimeState { d with servo := { d.servo with lockRun := 0 } } 1 else d
    let d := servoUpdate d e
    if getF d F.TIME_STAT.STATE = 1 ∧ 1000000 < e.natAbs then
      stepTime { d with servo := { d.servo with i := 0, lockRun := 0 } } e
    else servoCount d e

/-- A choice the spec leaves open between two values. -/
def openChoice (d : Device) (a b : Int) : Device × Int :=
  let f := fresh d
  (f.2, if Config.freeBool f.1 then a else b)

/-- The servo's nominal reference interval in ns (R312, R313, R344): a period of the word clock, a second, or a sample period of
the fabric domain, which is that of its link of lowest number. -/
def refInterval (d : Device) : Nat :=
  let sel := getF d F.TIME_CTL.REFSEL
  let link := (List.range 8).find? (fun n => decide ((sparseGet regReset d.eff (0x1F070040 + 0x1000 * n)).toNat % 2 = 1))
  if sel = 3 then 10 ^ 9
  else if sel = 4 then
    match link with
    | some n => 10 ^ 9 / Nat.max 1 (rateFs d (dom ((sparseGet regReset d.eff (0x1F070040 + 0x1000 * n)).toNat / 16)))
    | none => 0
  else 10 ^ 9 / Nat.max 1 (rateFs d (dom (getF d F.TIME_CTL.WDOM)))

/-- HOLDOVER_TIMEOUT (R27, R313): in LOCKED, no event for 1.5 nominal reference intervals. -/
def holdoverTimeout (d : Device) : Device :=
  if getF d F.TIME_STAT.STATE = 2 ∧ 3 * refInterval d ≤ 2 * d.refNs then enterHoldover d else d

/-- The multiple of `den`/`num` seconds nearest to an instant: `x` counted in the units of a grid, and whether it lies
half way. -/
def nearest (num den : Int) : Int × Bool := ((2 * num + den) / (2 * den), decide ((2 * num + den) % (2 * den) = 0))

/-- The ideal instant of count `n` of a rate domain as a fraction (R303). -/
def ideal (d : Device) (k : Fin 4) (n : Int) : Int × Int :=
  let a := d.anchors[k]
  let fs : Int := (Nat.max 1 (rateFs d k) : Nat)
  ((a.num : Int) * fs + (n - a.n) * 10 ^ 9 * a.den, a.den * fs)

/-- The smallest count whose ideal instant is not before an instant given in 2^-32 ns (R304). -/
def countAt (d : Device) (k : Fin 4) (t : Nat) : Int :=
  let a := d.anchors[k]
  let x : Int := ((t : Int) * a.den - a.num * 2 ^ 32) * rateFs d k
  a.n + -(-x / (10 ^ 9 * a.den * 2 ^ 32))

/-- REFSEL takes a value (R313): 0 gives FREE, another value ACQUIRE. -/
def setRefsel (d : Device) (sel : Nat) : Device :=
  let d := setF d F.TIME_CTL.REFSEL sel
  if sel = 0 then freeLocked (setTimeState d 0)
  else setTimeState { setB d F.TIME_STAT.LOCKED false with servo := { d.servo with lockRun := 0 } } 1

/-- TIME_CTL as its handshake completes (R8, R312, R313, R368): REFSEL, WDOM and the gains. -/
def timeCtl (d : Device) (v : Nat) : Device :=
  let sel := v % 8
  let d := setF (setF (setF d F.TIME_CTL.WDOM (v / 16 % 4)) F.TIME_CTL.KP (v / 2 ^ 8 % 32)) F.TIME_CTL.KI (v / 2 ^ 16 % 32)
  if 5 ≤ sel ∨ (sel ≠ 0 ∧ pullPpm d = 0) ∨ getB d (F.S_FAB.NODE.TFOLLOW 0xFF) then d
  else setRefsel d sel

/-- TIME_FREQ as its handshake completes (R316). -/
def timeFreq (d : Device) (v : Nat) : Device :=
  if getF d F.TIME_STAT.STATE = 0 then setEps d (clampTo (pullU d) (BitVec.ofNat 32 v).toInt) else ignored d

/-- A PPS_IN edge with its timestamp (R311, R312). -/
def ppsEdge (d : Device) (ts : Nat) : Device :=
  if getF d F.TIME_CTL.REFSEL = 3 then
    let (n, tie) := nearest ts (10 ^ 9)
    let r := if tie then openChoice d n (n - 1) else (d, n)
    servoEvent r.1 (r.2 * 10 ^ 9 - ts)
  else d

/-- A WCLK_IN edge with its timestamp (R311, R312). -/
def wclkEdge (d : Device) (pin : Nat) (ts : Nat) : Device :=
  let k := dom (getF d F.TIME_CTL.WDOM)
  if getF d F.TIME_CTL.REFSEL = 1 + pin ∧ (pin = 0 ∨ hasPcie d) ∧ pin < 2 then
    let a := d.anchors[k]
    let (m, tie) := nearest (((ts : Int) * a.den - a.num) * rateFs d k) (10 ^ 9 * a.den)
    let r := if tie then openChoice d m (m - 1) else (d, m)
    let (x, y) := ideal r.1 k (a.n + r.2)
    servoEvent r.1 ((x - ts * y) / y)
  else d

/-! ### PLLs -/

/-- A word of a PLL's band table: from ROM until it is written (R296, R297). -/
def bandDflt (i : Nat) : Word := Config.romBand (i / 64) (i % 64)

/-- Word `b` of the band table of PLL `j` as the PLL takes it. -/
def bandWord (d : Device) (j b : Nat) : Nat := (sparseGet bandDflt d.bandsEff (64 * j + b)).toNat

/-- The words of a PLL's band table that a table lists. -/
def bandOf (t : Sparse Word) (j : Nat) : Sparse Word := t.filter (fun e => decide (e.1 / 64 = j))

/-- Whether the band table of a PLL is still the ROM's. -/
def bandRom (d : Device) (j : Nat) : Bool := (bandOf d.bandsEff j).isEmpty

/-- The band table of a PLL as it has been written is the one the PLL takes from now on. -/
def bandTake (d : Device) (j : Nat) : Device :=
  { d with bandsEff := (List.range 64).foldl (fun t b =>
      sparsePut bandDflt t (64 * j + b) (sparseGet bandDflt d.bands (64 * j + b))) d.bandsEff }

/-- The oscillator frequency a PLL is to run at, in Hz (R295, R305). -/
def pllTarget (d : Device) (j : Nat) : Nat :=
  if j = 0 then 3600000000 else if j = 1 then 4000000 * (clkWord d 0x44 % 2 ^ 10) else getF d (F.CLK_MTGT.FHZ (j - 2))

/-- The oscillator frequency of a PLL in Hz, rounded down (R295): the correction ε applies to the media PLLs. -/
def pllOsc (d : Device) (j : Nat) : Nat :=
  if j < 2 then pllTarget d j else ((pllTarget d j : Int) * (2 ^ 40 + eps d) / 2 ^ 40).toNat

/-- The lowest band of the table in effect that covers a frequency (R296). -/
def findBand (d : Device) (j f : Nat) : Option Nat :=
  (List.range 64).find? (fun b =>
    decide (bandWord d j b % 2 ^ 12 ≤ f / 1000000) && decide (f / 1000000 < bandWord d j b / 2 ^ 12 % 2 ^ 12))

/-- Whether the band table of a PLL is marked incomplete (R64). -/
def bandBad (d : Device) (j : Nat) : Bool := (rgn d 0xA2).marks.contains (1 + j)

/-- Whether a media PLL drives a configured rate domain. -/
def drives (d : Device) (m : Nat) : Bool :=
  (List.finRange 4).any (fun k => domConfigured d k && decide (ratePll d k = m))

/-- Whether a rate domain is bound to a media PLL by the settings in effect: while region 0x0A2 is stopped its PLLs keep
running (R84). -/
def bound (d : Device) (m : Nat) : Bool :=
  (List.finRange 4).any (fun k => decide (clkWord d (0x78 + 8 * k.val) % 2 = 1) && decide (ratePll d k = m))

/-- Whether a media PLL is idle (R305). -/
def pllIdle (d : Device) (m : Nat) : Bool := !drives d m && decide (timeSrc d ≠ m)

/-- CLK_PLLSTATj.IDLE of the media PLLs follows R305. -/
def idleBits (d : Device) : Device :=
  (List.range 4).foldl (fun d m => setB d (F.CLK_PLLSTAT.IDLE (2 + m)) (pllIdle d m)) d

/-- Whether a PLL runs: the core and CTRL PLLs, and a media PLL with a target that is enabled, is bound to a domain or is the
time source. -/
def pllRuns (d : Device) (j : Nat) : Bool :=
  decide (j < 2)
    || (decide (pllTarget d j ≠ 0) && (getB d (F.CLK_MCTL.EN (j - 2)) || bound d (j - 2) || decide (timeSrc d = j - 2)))

/-- TIME_STAT.TSRCLOST follows the mute of the time source (R310), and FREE's TIME_LOCKED its lock. -/
def timeSrcState (d : Device) : Device :=
  freeLocked (setB d F.TIME_STAT.TSRCLOST (mediaMuted d (timeSrc d)))

/-- While TIME counts REF_IN the calibration window is discarded (R321). -/
def timeSrcCheck (d : Device) : Device :=
  let d := timeSrcState d
  if getB d F.TIME_STAT.TSRCLOST then { d with winBad := true } else d

/-- Whether the Coach decides (R438): its region is RUNNING and the set domain produces kickoffs. -/
def coachDecides (d : Device) : Bool :=
  decide (Regions.eff d.regions 0xA3 = .running) && produces d (dom (getF d (F.S_COACH.CTL.SETDOM 0xA3)))

/-- While the Coach does not decide it counts no sets (R438). -/
def coachCheck (d : Device) : Device := if coachDecides d then d else { d with counting := false }

/-- A PLL stops or begins to lock: its output is muted (R299). -/
def pllMute (d : Device) (j : Nat) : Device :=
  coachCheck (timeSrcCheck (setB (setB d (F.CLK_PLLSTAT.LOCK j) false) (F.CLK_PLLSTAT.MUTED j) true))

/-- A PLL starts (R296): it takes the lowest band that covers its target, or sets NOBAND with EVT_PLL_FAIL. -/
def pllStart (d : Device) (j : Nat) : Device :=
  let d := pllMute d j
  if ¬ pllRuns d j then d
  else
    match if bandBad d j then none else findBand d j (pllOsc d j) with
    | some b => setF (setB d (F.CLK_PLLSTAT.NOBAND j) false) (F.CLK_PLLSTAT.BAND j) b
    | none =>
      if bandRom d j ∧ ¬ bandBad d j then setB d (F.CLK_PLLSTAT.NOBAND j) false
      else raiseEv (setB d (F.CLK_PLLSTAT.NOBAND j) true) (0x180 + j)

/-- A PLL declares lock and its output starts (R298, R299); the domains it drives restart under R304. -/
def pllLock (d : Device) (j : Nat) : Device :=
  if j < 6 ∧ pllRuns d j ∧ ¬ getB d (F.CLK_PLLSTAT.NOBAND j) ∧ ¬ getB d (F.CLK_PLLSTAT.LOCK j) then
    let muted := getB d (F.CLK_PLLSTAT.MUTED j)
    let d := timeSrcState (setB (setB d (F.CLK_PLLSTAT.LOCK j) true) (F.CLK_PLLSTAT.MUTED j) false)
    match d.timeWait with
    | some a1 => if timeSrcLocked d then restartDomains (timeRestart d a1) (fun _ => true) else d
    | none => if muted ∧ 2 ≤ j then restartDomains d (fun k => decide (ratePll d k = j - 2)) else d
  else d

/-- A PLL has not locked within 65,536 reference cycles (R298). -/
def pllTimeout (d : Device) (j : Nat) : Device :=
  if j < 6 ∧ pllRuns d j ∧ ¬ getB d (F.CLK_PLLSTAT.LOCK j) then
    raiseEv (setB d (F.CLK_PLLSTAT.FAIL j) true) (0x180 + j)
  else d

/-- A locked PLL loses lock (R300): a media PLL is muted, the others are not. -/
def pllLose (d : Device) (j : Nat) : Device :=
  if j < 6 ∧ getB d (F.CLK_PLLSTAT.LOCK j) then
    let d := raiseEv (incF (setB d (F.CLK_PLLSTAT.LOCK j) false) (F.CLK_PLLSTAT.UNLOCKCNT j)) (0x178 + j)
    if 2 ≤ j then coachCheck (timeSrcCheck (setB d (F.CLK_PLLSTAT.MUTED j) true)) else d
  else d

/-- A band table has been written (R84, R305): an idle media PLL takes it at once and relocks if it is enabled; another PLL
takes it when region 0x0A2 resumes. -/
def bandLoaded (d : Device) (j : Nat) : Device :=
  if 2 ≤ j ∧ pllIdle d (j - 2) then
    let d := bandTake d j
    if pllRuns d j then pllStart d j else d
  else d

/-- A write of CLK_MTGTm (R305): an enabled idle PLL relocks; a PLL that is not idle refuses it with BUSY. -/
def mtgtWrite (d : Device) (q : Req) (m v : Nat) : Device :=
  if ¬ pllIdle d m then rejectReq d 0x11 q (Adr.CLK_MTGT m)
  else if v ≠ 0 ∧ (v < 2000000000 ∨ 4000000000 < v) then ignored d
  else
    let d := setF d (F.CLK_MTGT.FHZ m) v
    if getB d (F.CLK_MCTL.EN m) then pllStart d (2 + m) else d

/-- A write of CLK_MCTLm: a 0 to a PLL that drives a domain or TIME is ignored. -/
def mctlWrite (d : Device) (m v : Nat) : Device :=
  let en := decide (v % 2 = 1)
  if ¬ en ∧ ¬ pllIdle d m then ignored d
  else
    let was := pllRuns d (2 + m)
    let d := setB d (F.CLK_MCTL.EN m) en
    if en && !was then pllStart d (2 + m) else if en then d else pllMute d (2 + m)

/-! ### Kickoff generators -/

/-- A word clock output at a kickoff of a domain (R317): a write takes effect at a rising edge. -/
def wclkAt (d : Device) (k : Fin 4) (n : Nat) (w : Fin 4) : Device :=
  let x := d.wclk[w]
  let en := getB d (F.CLK_WCLKOUT.EN w.val)
  let dm := getF d (F.CLK_WCLKOUT.DOM w.val)
  let div := getF d (F.CLK_WCLKOUT.DIV w.val)
  let old := x.en && decide (x.dom = k.val) && decide (n % 2 ^ x.div = 0)
  let now := en && decide (dm = k.val) && decide (n % 2 ^ div = 0)
  let high := rateKdiv d k * 2 ^ div / 2 * rateMdiv d k * 10 ^ 9 * 2 ^ 32 / Nat.max 1 (pllTarget d (2 + ratePll d k))
  if (old || now) ∧ (w.val < 2 ∨ hasPcie d) then
    { d with wclk := d.wclk.set w ⟨en, dm, getB d (F.CLK_WCLKOUT.INV w.val), div, x.rises + (now && !d.gated).toNat,
        if now && !d.gated then high else 0⟩ }
  else d

/-- The WCLK_OUTw pin (R300, R317): low while the output is not enabled or its domain produces no kickoffs, whatever INV is. -/
def wclkPin (d : Device) (w : Fin 4) : Bool :=
  let x := d.wclk[w]
  x.en && produces d (dom x.dom) && (decide (x.left ≠ 0) != x.inv)

/-- The latest count of a domain since region 0x0A2 resumed, or −1 (R304). -/
def lastCount (d : Device) (k : Fin 4) : Int := if d.started[k] then (reg64 d (Adr.TIME_SC k) : Int) else -1

/-- The count of the next kickoff of a domain (R304). -/
def nextCount (d : Device) (k : Fin 4) : Int :=
  match d.gap[k] with
  | none => lastCount d k + 1
  | some t => max (lastCount d k + 1) (countAt d k t)

/-- Whether the kickoff of a count may occur now: within one media clock period of its ideal instant (R303), the time of
day lying between its latest edge and the next. -/
def mayMark (d : Device) (k : Fin 4) (n : Int) : Bool :=
  let (x, y) := ideal d k n
  let f : Int := (Nat.max 1 (pllTarget d (2 + ratePll d k)) : Nat)
  let period : Int := (rateMdiv d k * 10 ^ 9 : Nat)
  let now : Int := (todFine d : Nat)
  decide (x * f * 2 ^ 32 ≤ ((now + (edgeStep d : Nat)) * f + period * 2 ^ 32) * y)
    && decide (now * f * y ≤ (x * f + period * y) * 2 ^ 32)

/-- One bit of a four-bit field of CLK_HOSTAT replaced. -/
def hoBit (d : Device) (f : Fld) (k : Fin 4) (b : Bool) : Device := setB d ⟨f.addr, f.lo + k.val, 1⟩ b

/-- A handover takes place at kickoff `n` (R308). -/
def hoApply (d : Device) (k : Fin 4) (n : Nat) (h : Handover) : Device :=
  let old := ratePll d k
  let d := if h.fs = rateFs d k then d
    else
      let (x, y) := ideal d k n
      { d with anchors := d.anchors.set k ⟨n, x.toNat, y.toNat⟩ }
  let d := setClkWord d (0x78 + 8 * k.val) (1 + 2 * h.pll + 2 ^ 8 * h.mdiv + 2 ^ 16 * h.kdiv)
  let d := setClkWord d (0x7C + 8 * k.val) h.fs
  let d := if timeSrc d = old ∧ ¬ drives d old then setF d F.TIME_STAT.TSRC h.pll else d
  timeSrcState (idleBits d)

/-- An armed handover is no longer armed. -/
def hoDrop (d : Device) (k : Fin 4) : Device :=
  hoBit (hoBit { d with ho := d.ho.set k none } F.CLK_HOSTAT.ARMED k false) F.CLK_HOSTAT.ALIGNED k false

/-- Whether an armed handover succeeds at its kickoff (R307): ALIGNED is 1 and the new PLL is locked. -/
def hoReady (d : Device) (k : Fin 4) (h : Handover) : Bool :=
  getB d ⟨F.CLK_HOSTAT.ALIGNED.addr, F.CLK_HOSTAT.ALIGNED.lo + k.val, 1⟩ && getB d (F.CLK_PLLSTAT.LOCK (2 + h.pll))

/-- A handover at its kickoff, of count `n` (R307): it takes place, or is dropped. -/
def hoTake (d : Device) (k : Fin 4) (n : Nat) (h : Handover) : Device :=
  let ok := hoReady d k h
  let d := hoDrop d k
  let d := if h.target.isLate n then hoBit d F.CLK_HOSTAT.LATE k true else d
  if ok then hoApply d k n h else raiseEv (hoBit d F.CLK_HOSTAT.FAILED k true) 0x19A

/-- The armed handover of a domain at kickoff `n` (R307). -/
def hoAt (d : Device) (k : Fin 4) (n : Nat) : Device :=
  match d.ho[k] with
  | none => d
  | some h => if h.target.due n then hoTake d k n h else d

/-! ### A lane's settings (R84) -/

/-- A field of a port's lane as its latest resumption took it: byte offset, lowest bit and length. -/
def lane (d : Device) (n : Fin 32) (o lo len : Nat) : Nat :=
  bitsOf (sparseGet regReset d.eff (0x1F050000 + 0x1000 * n.val + o)).toNat lo len

/-- Slots per frame. -/
def laneSlots (d : Device) (n : Fin 32) : Nat := lane d n 0x40 2 6

/-- Slot width in bit clocks. -/
def laneSlotW (d : Device) (n : Fin 32) : Nat := lane d n 0x40 8 6

/-- Word length in bits. -/
def laneWordW (d : Device) (n : Fin 32) : Nat := lane d n 0x40 14 6

/-- Whether the port is master. -/
def laneMaster (d : Device) (n : Fin 32) : Bool := decide (lane d n 0x44 0 1 = 1)

/-- The mode: 0 frame, 1 ASRC, 2 queue. -/
def laneMode (d : Device) (n : Fin 32) : Nat := lane d n 0x44 1 2

/-- Whether receive slot `k` is enabled. -/
def laneRx (d : Device) (n : Fin 32) (k : Nat) : Bool := decide (k < laneSlots d n) && decide (lane d n 0x48 k 1 = 1)

/-- Whether transmit slot `k` is enabled. -/
def laneTx (d : Device) (n : Fin 32) (k : Nat) : Bool := decide (k < laneSlots d n) && decide (lane d n 0x4C k 1 = 1)

/-- R of the output settings. -/
def laneRamp (d : Device) (n : Fin 32) : Nat := lane d n 0x50 2 6 + 1

/-- The enabled transmit slots in ascending order. -/
def txSlots (d : Device) (n : Fin 32) : List Nat := (List.range 32).filter (laneTx d n)

/-- The enabled receive slots in ascending order. -/
def rxSlots (d : Device) (n : Fin 32) : List Nat := (List.range 32).filter (laneRx d n)

/-- The structure region of a port. -/
def portRegion (n : Fin 32) : Nat := 0x50 + n.val

/-- The rate domain of a port's lane as its latest resumption took it (R84). -/
def portDom (d : Device) (n : Fin 32) : Fin 4 := dom (lane d n 0xC 16 2)

/-- Whether a port's lane runs: the port is present and not EMPTY, and the device clocks it (R84, R527). -/
def laneOn (d : Device) (n : Fin 32) : Bool :=
  decide (n.val < sapCount d) && decide (Regions.eff d.regions (portRegion n) ≠ .empty) && awake d

/-- A port's state. -/
def sap (d : Device) (n : Fin 32) : Sap := d.sap[n]

/-- A port's state replaced. -/
def setSap (d : Device) (n : Fin 32) (x : Sap) : Device := { d with sap := d.sap.set n x }

/-- Each master port of a domain has its frame boundary PHASE bit clocks after the edge that marks a kickoff (R262); the first
one after a gap starts its bit clock anew. -/
def mastersDue (d : Device) (k : Fin 4) : Device :=
  { d with sap := Vector.ofFn (fun n =>
      let x := d.sap[n]
      if laneOn d n && laneMaster d n && decide (portDom d n = k) then
        { x with
          fresh := x.fresh || d.gap[k].isSome
          due := some (todFine d + lane d n 0x44 16 10 * 10 ^ 9 * 2 ^ 32 / Nat.max 1 (rateFs d k * laneSlots d n * laneSlotW d n)) }
      else x) }

/-! ### Kickoffs -/

/-- BOOT_T.KICK takes the time of the first kickoff since the boot began, in units of 10 µs. -/
def noteKick (d : Device) : Device :=
  if d.kicked then d else { setF d F.BOOT_T.KICK (Nat.min (d.bootNs / 10000) 0xFFFF) with kicked := true }

/-- A kickoff is marked with its count (R303, R156): the sample counter takes it, word clocks rise, and it crosses
toward the engines. -/
def markAt (d : Device) (k : Fin 4) (n : Nat) : Device :=
  let d := setReg64 (mastersDue (noteKick d) k) (Adr.TIME_SC k) (n % 2 ^ 64)
  let d := { d with gap := d.gap.set k none, started := d.started.set k true, marked := d.marked.set k (d.marked[k] ++ [n]) }
  let d := if d.entry.isSome then { d with halted := d.halted.set k true } else d
  (List.finRange 4).foldl (fun d w => wclkAt d k n w) (hoAt d k n)

/-- The kickoff generator of a domain marks a kickoff. -/
def kickoffMark (d : Device) (k : Fin 4) : Device :=
  let n := nextCount d k
  if produces d k ∧ mayMark d k n then markAt d k n.toNat else d

/-- A shadow kickoff of an armed handover (R306, R307): within one media clock period of its ideal instant or not. When the
domain itself produces no kickoffs because its PLL is unlocked, the handover applies or is dropped at it, with the count of
R304, and a domain that it has moved marks its kickoff. -/
def shadowMark (d : Device) (k : Fin 4) (within : Bool) : Device :=
  match d.ho[k] with
  | none => d
  | some h =>
    if ¬ getB d (F.CLK_PLLSTAT.LOCK (2 + h.pll)) then d
    else
      let m := if within then h.aligned + 1 else 0
      let d := { d with ho := d.ho.set k (some { h with aligned := m }) }
      let d := if 64 ≤ m then hoBit d F.CLK_HOSTAT.ALIGNED k true else d
      if domConfigured d k ∧ awake d ∧ mediaMuted d (ratePll d k) then
        let n := (max (lastCount d k + 1) (countAt d k (todFine d))).toNat
        let e := hoTake d k n h
        if hoReady d k h then markAt e k n else e
      else d

/-! ### The AON calibration (R321) -/

/-- The largest deviation in ppb of any of a list of windows from their mean. -/
def spreadPpb (ws : List Nat) : Nat :=
  let s : Nat := ws.foldl (· + ·) 0
  let n : Nat := ws.length
  ws.foldl (fun m w => Nat.max m (((((n * w : Nat) : Int) - (s : Int)).natAbs) * 10 ^ 9 / Nat.max 1 s)) 0

/-- A window begins at an AON edge. -/
def winBegin (d : Device) : Device := { d with winStart := tod d, winBad := getB d F.TIME_STAT.TSRCLOST }

/-- The end of a window of 65,536 AON cycles (R321). -/
def calWindow (d : Device) : Device :=
  let len := tod d - d.winStart
  let bad := d.winBad
  let d := setF d F.TIME_AON.COUNT ((getF d F.TIME_AON.COUNT + 65536) % 2 ^ 48)
  let d := winBegin d
  if bad || !timeSrcLocked d || !awake d then d
  else
    let ws := (len :: d.aonWins).take 16
    let d := { d with aonWins := ws }
    setF (setF d F.TIME_AONCAL.PERIOD len) F.TIME_AONQ.SPREAD (Nat.min 0xFFFF (spreadPpb ws))

/-! ### PPS output (R318) -/

/-- PPS_OUT_PULSE: the pin rises at the first edge of the time tap at or after a whole second (R318). -/
def ppsPulse (d : Device) : Device :=
  if d.ppsDue && getB d F.CLK_PPSOUT.EN && getB d F.TIME_STAT.LOCKED && !d.gated then
    { d with ppsOut := true, ppsDue := false, ppsLeft := getF d F.CLK_PPSOUT.WIDTH * 1000 * 2 ^ 32 }
  else d

/-- PPS_OUT_FALL: the pin falls when its high time has run down (R318). -/
def ppsFall (d : Device) : Device := if d.ppsLeft = 0 then { d with ppsOut := false } else d

/-- The PPS_OUT pin. -/
def ppsPin (d : Device) : Bool := d.ppsOut && getB d F.CLK_PPSOUT.EN && getB d F.TIME_STAT.LOCKED

end Sys2Proof.Machine
end

