-- ==== Sys2Proof/Machine/Route.lean ====
section
/-! DEFINITION. The route frame, tier bypass, generators and meters (R10 to R14, R228 to R250, R255, R256). -/

namespace Sys2Proof.Machine

/-! ### Units and their rate domains -/

/-- A field of a serial audio port's region: byte offset, lowest bit and length. -/
def sapField (d : Device) (n o lo len : Nat) : Nat := bitsOf (reg d (0x1F050000 + 0x1000 * n + o)).toNat lo len

/-- Slots per frame of a port. -/
def sapNslot (d : Device) (n : Nat) : Nat := sapField d n 0x40 2 6

/-- Mode of a port: 0 frame, 1 ASRC, 2 queue. -/
def sapMode (d : Device) (n : Nat) : Nat := sapField d n 0x44 1 2

/-- Inputs enabled of a mix unit. -/
def mixNin (d : Device) (m : Nat) : Nat := getF d (F.S_MIX.CTL.NIN (0x80 + m))

/-- Outputs enabled of a mix unit. -/
def mixNout (d : Device) (m : Nat) : Nat := getF d (F.S_MIX.CTL.NOUT (0x80 + m))

/-- A word of an ASRC unit: 0 the input side, 4 the output side. -/
def asrcWord (d : Device) (u side : Nat) : Nat := (reg d (0x1F0A4040 + 8 * u + side)).toNat

/-- Channels in use of an ASRC unit. -/
def asrcNch (d : Device) (u : Nat) : Nat := asrcWord d u 0 / 2 ^ 24 % 32

/-- Whether a side of an ASRC unit is a port side. -/
def asrcPortSide (d : Device) (u side : Nat) : Bool := decide (asrcWord d u side % 2 = 1)

/-- The domain of a domain side of an ASRC unit. -/
def asrcDom (d : Device) (u side : Nat) : Fin 4 := dom (asrcWord d u side / 2)

/-- The port of a port side of an ASRC unit. -/
def asrcPort (d : Device) (u side : Nat) : Nat := asrcWord d u side / 2 ^ 8 % 32

/-- The first slot of a port side of an ASRC unit. -/
def asrcFirst (d : Device) (u side : Nat) : Nat := asrcWord d u side / 2 ^ 16 % 32

/-- The rate domain of meter tap block `b`. -/
def meterDom (d : Device) (b : Nat) : Fin 4 := dom (getF d (F.S_ROUTE.MTRDOM.DOM 0xA0 b))

/-- Whether a meter tap block is enabled. -/
def meterOn (d : Device) (b : Nat) : Bool := (reg d (Adr.S_ROUTE.MTRCTL 0xA0)).getLsbD (16 + b)

/-- Whether a source entry's unit is absent in the variant (R46). -/
def srcAbsent (d : Device) (s : Nat) : Bool :=
  if s < 0x400 then decide (sapCount d ≤ s / 32)
  else if s < 0x1400 then decide (engCount d ≤ (s - 0x400) / 64)
  else false

/-- Which rate domain a source entry belongs to (R14, R228): every domain, or one. An absent unit's entry may be selected by
a sink of any domain (R46); a port-side ASRC output has none. -/
def srcDom (d : Device) (s : Nat) : Option (Fin 4) :=
  if srcAbsent d s then none
  else if s < 0x400 then some (rgnDomain d (0x50 + s / 32))
  else if s < 0x1400 then some (rgnDomain d ((s - 0x400) / 64))
  else if s < 0x1800 then some (rgnDomain d (0x80 + (s - 0x1400) / 64))
  else if s < 0x1880 then
    let u := (s - 0x1800) / 16
    if asrcPortSide d u 4 then none else some (asrcDom d u 4)
  else if s < 0x4000 then none
  else
    let r := sparseGet natZero d.fabRx (s - 0x4000)
    if r = 0 then none else some (dom (r - 1))

/-- The rate domain of a sink that exists; none is a sink that does not (R231). -/
def sinkDom (d : Device) (x : Nat) : Option (Fin 4) :=
  if x < 0x1000 then (if x / 64 < engCount d then some (rgnDomain d (x / 64)) else none)
  else if x < 0x2000 then
    let m := (x - 0x1000) / 256
    if (x - 0x1000) % 256 < mixNin d m then some (rgnDomain d (0x80 + m)) else none
  else if x < 0x2400 then
    let n := (x - 0x2000) / 32
    if n < sapCount d ∧ (x - 0x2000) % 32 < sapNslot d n then some (rgnDomain d (0x50 + n)) else none
  else if x < 0x2480 then
    let u := (x - 0x2400) / 16
    if (x - 0x2400) % 16 < asrcNch d u ∧ ¬ asrcPortSide d u 0 then some (asrcDom d u 0) else none
  else if x < 0x2880 then
    let b := (x - 0x2480) / 64
    if meterOn d b then some (meterDom d b) else none
  else if x < 0x4000 then none
  else
    let r := sparseGet natZero d.fabTx (x - 0x4000)
    if r = 0 then none else some (dom (r - 1))

/-- Whether a sink is an output slot of a port that is not in frame mode (R261). -/
def sinkBypassed (d : Device) (x : Nat) : Bool :=
  decide (0x2000 ≤ x ∧ x < 0x2400) && decide (sapMode d ((x - 0x2000) / 32) ≠ 0)

/-- A sink. -/
def sinkOf (d : Device) (x : Nat) : Sink := sparseGet (fun _ => Sink.reset) d.sinks x

/-- A sink replaced. -/
def putSink (d : Device) (x : Nat) (v : Sink) : Device :=
  { d with sinks := sparsePut (fun _ => Sink.reset) d.sinks x v }

/-! ### The resolution's length (R234, R235) -/

/-- Whether a running mix unit reads a same-frame output of a lower-numbered one: the units it reads. -/
def mixReads (d : Device) (m : Nat) : List Nat :=
  d.sinks.flatMap (fun e =>
    if 0x1000 + 256 * m ≤ e.1 ∧ e.1 < 0x1000 + 256 * m + mixNin d m then
      (e.2.sel :: (if e.2.fading then [e.2.old] else [])).filterMap (fun s =>
        if 0x1400 ≤ s ∧ s < 0x1800 ∧ (s - 0x1400) / 64 < m then some ((s - 0x1400) / 64) else none)
    else [])

/-- The chain lengths of mix units 0 to `n - 1` of a domain; 0 for a unit that does not run in it. -/
def mixDepths (d : Device) (k : Fin 4) : Nat → List Nat
  | 0 => []
  | m + 1 =>
    let prev := mixDepths d k m
    if Regions.live d.regions (0x80 + m) ∧ rgnDomain d (0x80 + m) = k then
      prev ++ [1 + (mixReads d m).foldl (fun a r => Nat.max a (prev.getD r 0)) 0]
    else prev ++ [0]

/-- D of R234. -/
def chainLen (d : Device) (k : Fin 4) : Nat := (mixDepths d k 16).foldl Nat.max 0

/-- RES of a domain (R234). -/
def resCycles (d : Device) (k : Fin 4) : Nat := 20 + 72 * chainLen d k

/-- The floor operating point of the Coach tier map. -/
def floorOpp (d : Device) : Nat := getF d (F.S_COACH.CTL.FLOOR 0xA3)

/-- Whether RES fits the domain at the floor operating point (R235). -/
def resFits (d : Device) (k : Fin 4) : Bool :=
  decide (resCycles d k + 64 ≤ periodCycles d (rateFs d k) (floorOpp d))

/-- Whether a running master port of the domain keeps the λ condition of R257 with the present RES (R262, R266). -/
def lambdaOk (d : Device) (n : Nat) (fs res : Nat) : Bool :=
  let bclk := fs * (10 ^ 6 + pullPpm d) * sapNslot d n * sapField d n 0x40 8 6
  let fcore := coreMult (floorOpp d) * 300000000 * 10 ^ 6
  let phase := sapField d n 0x44 16 10
  decide ((res + 12) * bclk + 6 * fcore ≤ phase * fcore)

/-- Whether every running master port of a domain keeps its λ condition (R266). -/
def mastersOk (d : Device) (k : Fin 4) : Bool :=
  (List.range 32).all (fun n =>
    !(Regions.live d.regions (0x50 + n) && decide (rgnDomain d (0x50 + n) = k) && decide (sapField d n 0x44 0 1 = 1))
      || lambdaOk d n (rateFs d k) (resCycles d k))

/-- A field of a link's region as its latest resumption took it (R84, R338): byte offset, lowest bit and length. -/
def linkField (d : Device) (n : Nat) (o lo len : Nat) : Nat :=
  bitsOf (sparseGet regReset d.eff (0x1F070000 + 0x1000 * n + o)).toNat lo len

/-- NCELL of a fabric rate (the table before R329); 0 is not a fabric rate. -/
def cellsAt (fs : Nat) : Nat := if fs = 48000 then 32 else if fs = 96000 then 16 else if fs = 192000 then 8 else 0

/-- Whether λ_L of a link fits the sample period at the highest rate (R337): `ngrp`, `maxdly` and whether 6.25 Gbaud is
allowed are the link's. -/
def lambdaLink (d : Device) (fs res ngrp maxdly : Nat) (slow : Bool) : Bool :=
  let m := coreMult (floorOpp d)
  let b := 4 + 4 * cellsAt fs + 9 * (ngrp + 1)
  let lhs := (res + 12) * 1000 + (16 + b) * 528 * (if slow then 2 else 1) * 3 * m + (10 * maxdly + 1000) * 300 * m
  decide (lhs * (fs * (10 ^ 6 + pullPpm d)) ≤ 10 ^ 15 * 300 * m)

/-- Whether a link trains or runs: a link stays trained in a QUIESCED region (R84, R324). -/
def linkServed (d : Device) (n : Nat) : Bool :=
  Regions.live d.regions (0x70 + n) || decide (Regions.eff d.regions (0x70 + n) = .quiesced)

/-- Whether every running link of a domain keeps λ_L (R337). -/
def linksOk (d : Device) (k : Fin 4) : Bool :=
  (List.range 8).all (fun n =>
    !(linkServed d n && decide (linkField d n 0x40 0 1 = 1) && decide (dom (linkField d n 0x40 4 2) = k))
      || lambdaLink d (rateFs d k) (resCycles d k) (linkField d n 0x40 8 8) (linkField d n 0x48 0 16)
          (decide (linkField d n 0x40 2 1 = 1)))

/-- A route from an ASRC output to an ASRC input (R233). -/
def asrcLoop (x s : Nat) : Bool := decide (0x2400 ≤ x ∧ x < 0x2480) && decide (0x1800 ≤ s ∧ s < 0x1880)

/-- Whether a source is an ASRC output whose side is a port: it is bound to no rate domain, so that no sink may select it
(R14, R228). -/
def srcUnbound (d : Device) (s : Nat) : Bool :=
  decide (0x1800 ≤ s ∧ s < 0x1880) && asrcPortSide d ((s - 0x1800) / 16) 4

/-- Whether a route keeps R14 and R233. -/
def routeLegal (d : Device) (k : Fin 4) (x s : Nat) : Bool :=
  !srcUnbound d s && !asrcLoop x s &&
  (match srcDom d s with
    | none => true
    | some j => decide (j = k))

/-- Whether a change of one sink keeps R235, R266 and R337. -/
def changeFits (d : Device) (k : Fin 4) (x s : Nat) : Bool :=
  let d' := putSink d x { sinkOf d x with sel := s }
  decide (resCycles d' k ≤ resCycles d k) || (resFits d' k && mastersOk d' k && linksOk d' k)

/-! ### Values of sources (R10, R46, R228 to R230, R246, R248) -/

/-- The entry of a source as a sink of domain `k` sees it: the frame's value, or, with `old`, the one of the frame
before (R12). -/
def srcCell (d : Device) (k : Fin 4) (s : Nat) (old : Bool) : Cell :=
  if srcAbsent d s then ⟨TWord.zero .uninit, false⟩
  else if 0x1880 ≤ s ∧ s < 0x18C0 then
    sparseGet cellInvalid d.genVals (64 * k.val + (s - 0x1880))
  else if (0x18C0 ≤ s ∧ s < 0x4000) ∨ srcUnbound d s then ⟨TWord.zero .invalid, false⟩
  else sparseGet cellInvalid (if old then d.rtPrev else d.rtCur) s

/-- Whether a sink takes a source's value of the frame before (R11, R12): an engine input that selects an engine that
is not lower-numbered. The other sources of later position have not taken their value of the frame when it is read. -/
def readsOld (x s : Nat) : Bool := decide (x < 0x1000) && decide (0x400 ≤ s ∧ s < 0x1400) && decide (x / 64 ≤ (s - 0x400) / 64)

/-- A new frame's value of an entry; the value it had becomes that of the frame before, and a parity failure of the entry
ends (R230). -/
def putEntry (d : Device) (s : Nat) (v : TWord) : Device :=
  { d with
    rtPrev := sparsePut cellInvalid d.rtPrev s { sparseGet cellInvalid d.rtCur s with bad := false }
    rtCur := sparsePut cellInvalid d.rtCur s (cellOf v) }

/-- An entry's latest value. -/
def entry (d : Device) (s : Nat) : TWord := cellRead (sparseGet cellInvalid d.rtCur s)

/-! ### Fades (R243, R244, R246) -/

/-- π with 96 fraction bits. -/
def piFix : Nat := 248902613312231085230521944622

/-- The partial sums of the sine series with 96 fraction bits: `t` is the present term, `n` twice its number. -/
def sinSeries : Nat → Nat → Int → Int → Int
  | 0, _, _, _ => 0
  | fuel + 1, n, t, x => t + sinSeries fuel (n + 2) (-(t * x / 2 ^ 96 * x / 2 ^ 96) / ((n + 2) * (n + 3) : Nat)) x

/-- t[k] of R243: floor(2^31 × sin(πk / 2048)), by the sine series. -/
def sinTable (k : Nat) : Nat :=
  if 1024 ≤ k then 2 ^ 31 else (sinSeries 20 0 (piFix * k / 2048 : Nat) (piFix * k / 2048 : Nat) / 2 ^ 65).toNat

/-- S(x) of R243. -/
def quarterSine (x : Nat) : Nat :=
  let k := x / 2 ^ 21
  let f := x % 2 ^ 21
  if 1024 ≤ k then 2 ^ 31 else sinTable k + (sinTable (k + 1) - sinTable k) * f / 2 ^ 21

/-- The gains of the new and the old operand at x of 2^31 (R244). -/
def fadeGains (linear : Bool) (x : Nat) : Nat × Nat :=
  if linear then (x, 2 ^ 31 - x) else (quarterSine x, quarterSine (2 ^ 31 - x))

/-- The tag of a sum of two operands: the rank rule, then the ADD column, a failing combination giving INT (R244). -/
def addTag (a b : Tag) : Tag := (tag2 false .add a b).1

/-- Two operands blended with their gains; only one with a non-zero gain is counted (R244, R246). -/
def blend (g : Nat × Nat) (new old : TWord) : TWord :=
  let y := narrow 32 true (new.p.toInt * g.1 / 2 ^ 31 + old.p.toInt * g.2 / 2 ^ 31)
  let t := if g.2 = 0 then new.t else if g.1 = 0 then old.t else addTag new.t old.t
  ⟨BitVec.ofInt 32 y.r, t⟩

/-- The value of a sink in domain `k` before the route graph's own fade (R232, R244). -/
def sinkRaw (d : Device) (k : Fin 4) (x : Nat) : TWord :=
  let s := sinkOf d x
  let new := cellRead (srcCell d k s.sel (readsOld x s.sel))
  if s.fading then
    blend (fadeGains s.linear (s.pos * 2 ^ 31 / s.n)) new (cellRead (srcCell d k s.old (readsOld x s.old)))
  else new

/-- Whether a sink reads an entry whose parity has failed (R230). -/
def sinkParity (d : Device) (k : Fin 4) (x : Nat) : Bool :=
  let s := sinkOf d x
  (srcCell d k s.sel (readsOld x s.sel)).bad || (s.fading && (srcCell d k s.old (readsOld x s.old)).bad)

/-- What a sink delivers to the unit that consumes it (R84, R230, R232, R244). -/
def deliver (d : Device) (k : Fin 4) (x : Nat) : Device × TWord :=
  let v := faded d 0xA0 k (sinkRaw d k x) (sparseGet (fun _ => TWord.zero .invalid) d.sinkLast x)
  let d := if sinkParity d k x then raiseEv d 0x192 else d
  ({ d with sinkLast := sparsePut (fun _ => TWord.zero .invalid) d.sinkLast x v }, v)

/-- Values of `n` consecutive sinks. -/
def deliverRun (d : Device) (k : Fin 4) : Nat → Nat → Device × List TWord
  | _, 0 => (d, [])
  | x, n + 1 =>
    let r := deliver d k x
    let rest := deliverRun r.1 k (x + 1) n
    (rest.1, r.2 :: rest.2)

/-! ### Changing a route (R238 to R242) -/

/-- EVT_ABSENT when a select of an absent unit's entry takes effect (R46, R48). -/
def selAbsent (d : Device) (s : Nat) : Device := if srcAbsent d s then absentAccess d 0xB 0 s else d

/-- A select that takes effect at once. -/
def cutTo (d : Device) (x s : Nat) : Device :=
  selAbsent (putSink d x { sinkOf d x with sel := s, fading := false, old := 0x3FFF, pos := 0, n := 0 }) s

/-- A change to a sink that is not fading, with its profile (R241, R242). -/
def startFade (d : Device) (k : Fin 4) (x s prof : Nat) : Device :=
  let v := sinkOf d x
  if v.sel = s then d
  else
    let law := getF d (F.ROUTE_XFPROF.LAW prof)
    if law = 2 ∨ (0x2480 ≤ x ∧ x < 0x2880) then cutTo d x s
    else
      let n := Nat.max 1 (getF d (F.ROUTE_XFPROF.TIME prof) * rateFs d k / 10000)
      selAbsent (putSink d x { v with sel := s, old := v.sel, fading := true, pos := 0, n := n, linear := decide (law = 1) }) s

/-- A fade that has reached its end retires OLDSEL (R241). -/
def retire (v : Sink) : Sink := if v.n ≤ v.pos then { v with fading := false, old := 0x3FFF, pos := 0, n := 0 } else v

/-- One applied change (R241). -/
def applyChange (d : Device) (k : Fin 4) (c : RtChange) : Device :=
  let v := sinkOf d c.sink
  if ¬ v.fading then startFade d k c.sink c.src c.prof
  else if c.src = v.old then
    selAbsent (putSink d c.sink (retire { v with sel := v.old, old := v.sel, pos := v.n - v.pos })) c.src
  else if c.src = v.sel then putSink d c.sink { v with deferred := none }
  else putSink d c.sink { v with deferred := some c }

/-- The sinks of a domain whose fades advance at a kickoff: one step, OLDSEL retired at the end, and then a deferred
change, checked again (R235, R240, R241). -/
def stepFade (d : Device) (k : Fin 4) (x : Nat) : Device :=
  let v := sinkOf d x
  if v.fading ∧ sinkDom d x = some k then
    let v := retire { v with pos := v.pos + 1 }
    if v.fading then putSink d x v
    else
      match v.deferred with
      | none => putSink d x v
      | some c =>
        let d := putSink d x { v with deferred := none }
        if changeFits d k x c.src then startFade d k x c.src c.prof else reject d 0x13 c.path Adr.ROUTE_CHG
  else d

/-- Every fade of a domain advances at a kickoff. -/
def stepFades (d : Device) (k : Fin 4) : Device := (d.sinks.map (·.1)).foldl (fun d x => stepFade d k x) d

/-- The last change of a list for each sink (R240). -/
def lastOnly : List RtChange → List RtChange
  | [] => []
  | c :: cs => if cs.any (fun e => decide (e.sink = c.sink)) then lastOnly cs else c :: lastOnly cs

/-- An armed list takes effect at kickoff `n` (R235, R239, R240). -/
def routeApply (d : Device) (k : Fin 4) (n : Nat) : Device :=
  match d.rtArmed[k] with
  | none => d
  | some a =>
    if ¬ a.target.due n then d
    else
      let d := { d with rtArmed := d.rtArmed.set k none }
      let d := if a.target.isLate n then raiseEv { d with rtLate := d.rtLate.set k true } 0x193 else d
      (lastOnly a.list).foldl (fun d c =>
        if changeFits d k c.sink c.src then applyChange d k c else reject d 0x13 c.path Adr.ROUTE_CHG) d

/-- A write of ROUTE_CHG (R238, R261). -/
def routeChg (d : Device) (q : Req) (v : Nat) : Device :=
  let x := v % 2 ^ 15
  let s := v / 2 ^ 16 % 2 ^ 15
  match sinkDom d x with
  | none => rejectReq d 0x12 q Adr.ROUTE_CHG
  | some k =>
    if sinkBypassed d x then rejectReq d 0x12 q Adr.ROUTE_CHG
    else if ¬ routeLegal d k x s ∨ ¬ changeFits d k x s then rejectReq d 0x13 q Adr.ROUTE_CHG
    else if 1024 ≤ d.rtStage[k].length then rejectReq d 0x01 q Adr.ROUTE_CHG
    else { d with rtStage := d.rtStage.set k (d.rtStage[k] ++ [⟨x, s, getF d F.ROUTE_CTL.FADE, reqPath q⟩]) }

/-- The GO of ROUTE_CTL arms a domain's list (R239). -/
def routeArm (d : Device) (k : Fin 4) : Device :=
  if d.rtStage[k] = [] then d
  else
    let t := targetOf d k (getB d F.ROUTE_CTL.NEXT) (getF d F.ROUTE_APPLYKO.KICKOFF)
    { d with rtArmed := d.rtArmed.set k (some ⟨t, d.rtStage[k]⟩), rtStage := d.rtStage.set k [] }

/-- The fields of ROUTE_CTL that a write stores, with its DISCARD (R239). -/
def routeCtlTaken (d : Device) (v : Nat) : Device :=
  let d := setF (setF (setF d F.ROUTE_CTL.DOMAIN (v % 4)) F.ROUTE_CTL.NEXT (v / 4)) F.ROUTE_CTL.FADE (v / 2 ^ 8)
  if v / 16 % 2 = 1 then { d with rtStage := d.rtStage.set (dom v) [] } else d

/-- A write of ROUTE_CTL (R24, R239): a GO after a DISCARD finds an empty list and arms nothing, and a write whose GO is
rejected is ignored as a whole. -/
def routeCtl (d : Device) (q : Req) (v : Nat) : Device :=
  let e := routeCtlTaken d v
  if ¬ domConfigured d (dom v) then rejectReq d 0x12 q Adr.ROUTE_CTL
  else if v / 8 % 2 = 0 then e
  else if v / 16 % 2 = 1 then e
  else if e.rtArmed[dom v] ≠ none then rejectReq d 0x11 q Adr.ROUTE_CTL
  else routeArm e (dom v)

/-- ROUTE_STAGE as it reads for ROUTE_CTL.DOMAIN. -/
def routeStageWord (d : Device) : Nat :=
  let k := dom (getF d F.ROUTE_CTL.DOMAIN)
  d.rtStage[k].length + 2 ^ 16 * (d.rtArmed[k] ≠ none : Bool).toNat + 2 ^ 17 * d.rtLate[k].toNat

/-- ROUTE_RDSEL as it reads. -/
def routeRdsel (d : Device) : Nat :=
  let v := sinkOf d (getF d F.ROUTE_RDSINK.SINK)
  v.sel + 2 ^ 15 * v.fading.toNat + 2 ^ 16 * (if v.fading then v.old else 0x3FFF) + 2 ^ 31 * v.deferred.isSome.toNat

/-- ROUTE_RDPOS as it reads. -/
def routeRdpos (d : Device) : Nat :=
  let v := sinkOf d (getF d F.ROUTE_RDSINK.SINK)
  (if v.fading then v.done else 0) + 2 ^ 16 * ((v.deferred.map (·.src)).getD 0)

/-! ### Tier bypass (R172 to R174, R245 to R247) -/

/-- What an unlisted tier reads as: it runs without a fade. -/
def tierRun (_ : Nat) : TierFade := ⟨0, .run⟩

/-- Tier `t` of engine group `g` in domain `k`. -/
def tierOf (d : Device) (g : Nat) (k : Fin 4) (t : Nat) : TierFade := sparseGet tierRun d.tiers (16 * g + 4 * k.val + t)

/-- The fade length of a group's tiers. -/
def tierLen (d : Device) (g : Nat) : Nat := getF d (F.S_ROUTE.TFADE.LEN 0xA0 g)

/-- Whether a tier runs in a rally (R174). -/
def tierRuns (x : TierFade) : Bool := decide (x.mode ≠ .off)

/-- Whether any fade of a group is in progress in a domain (R172). -/
def groupFading (d : Device) (g : Nat) (k : Fin 4) : Bool :=
  (List.range 4).any (fun t => decide ((tierOf d g k t).mode = .out ∨ (tierOf d g k t).mode = .into))

/-- A tier's step at a kickoff (R245): a fade goes on, or has ended in the period before. -/
def tierStep (f : Nat) (x : TierFade) : TierFade :=
  match x.mode with
  | .out => if f ≤ x.j then ⟨f, .off⟩ else ⟨x.j + 1, .out⟩
  | .into => if x.j = 0 then ⟨0, .run⟩ else ⟨x.j - 1, .into⟩
  | .run => ⟨0, .run⟩
  | .off => ⟨f, .off⟩

/-- A tier at the first kickoff of a set with a new MAXT (R172, R173, R245); `f` is the fade length. -/
def tierSet (f maxt t : Nat) (x : TierFade) : TierFade :=
  let allowed := decide (t ≤ maxt)
  match x.mode with
  | .out => if f ≤ x.j then (if allowed then ⟨f - 1, .into⟩ else ⟨f, .off⟩)
      else if allowed then ⟨x.j - 1, .into⟩ else ⟨x.j + 1, .out⟩
  | .into => if x.j = 0 then (if allowed then ⟨0, .run⟩ else ⟨1, .out⟩)
      else if allowed then ⟨x.j - 1, .into⟩ else ⟨x.j + 1, .out⟩
  | .run => if allowed then ⟨0, .run⟩ else ⟨1, .out⟩
  | .off => if allowed then ⟨f - 1, .into⟩ else ⟨f, .off⟩

/-- Tier of an engine output entry (S_ROUTE.ETIER): `i` is 64n + i. -/
def entryTier (d : Device) (i : Nat) : Nat :=
  bitsOf (reg d (0x1F0A0080 + 16 * (i / 64) + 4 * (i % 64 / 16))).toNat (2 * (i % 16)) 2

/-- ROUTE_BYPSEL of an entry. -/
def bypSel (d : Device) (i : Nat) : Nat := sparseGet (fun _ => 0x8000) d.bypSel i

/-- An engine output entry blended with its bypass (R245, R246): `e` is the entry as the rally left it. -/
def tierBlend (d : Device) (k : Fin 4) (i : Nat) (e : TWord) : TWord :=
  let g := i / 64 / 8
  let x := tierOf d g k (entryTier d i)
  if entryTier d i = 0 ∨ x.j = 0 then e
  else
    let f := Nat.max 1 (tierLen d g)
    let gains := fadeGains (decide (getF d (F.S_ROUTE.TFADE.LAW 0xA0 g) = 1)) (Nat.min x.j f * 2 ^ 31 / f)
    blend (gains.2, gains.1) e (sparseGet (fun _ => TWord.zero .invalid) d.bypVals i)

/-- The bypass value of an entry for the rally that begins (R247): the engine input as delivered, 0 tagged SAMPLE, or
what the input would have received from a source, the route graph's own fade or stop included. -/
def bypassValue (d : Device) (k : Fin 4) (i : Nat) : TWord :=
  let s := bypSel d i
  if s = 0x8000 then sparseGet (fun _ => TWord.zero .invalid) d.inVals i
  else if s = 0x8001 then TWord.zero .sample
  else faded d 0xA0 k (cellRead (srcCell d k s (readsOld i s))) (sparseGet (fun _ => TWord.zero .invalid) d.bypVals i)

/-- Whether the bypass of an entry reads a source whose parity has failed (R230). -/
def bypassParity (d : Device) (k : Fin 4) (i : Nat) : Bool :=
  decide (bypSel d i < 0x8000) && (srcCell d k (bypSel d i) (readsOld i (bypSel d i))).bad

/-- The bypass value of an entry taken for the rally that begins (R230, R247). -/
def bypassTake (k : Fin 4) (d : Device) (i : Nat) : Device :=
  let d := { d with bypVals := sparsePut (fun _ => TWord.zero .invalid) d.bypVals i (bypassValue d k i) }
  if bypassParity d k i then raiseEv d 0x192 else d

/-- A write of ROUTE_BYPSEL (R8, R24, R247); the index advances after each access. -/
def bypIndexNext (d : Device) : Device :=
  if getB d F.ROUTE_BYPIDX.AUTOINC then setF d F.ROUTE_BYPIDX.ENTRY ((getF d F.ROUTE_BYPIDX.ENTRY + 1) % 4096) else d

/-- ROUTE_BYPSEL written for the indexed entry (R8, R14, R24, R247). -/
def bypWrite (d : Device) (q : Req) (v : Nat) : Device :=
  let i := getF d F.ROUTE_BYPIDX.ENTRY
  let s := v % 2 ^ 16
  bypIndexNext
    (if engCount d ≤ i / 64 then rejectReq d 0x12 q Adr.ROUTE_BYPSEL
     else if 0x8002 ≤ s then ignored d
     else if s < 0x8000 ∧ ¬ routeLegal d (rgnDomain d (i / 64)) i s then rejectReq d 0x13 q Adr.ROUTE_BYPSEL
     else { d with bypSel := sparsePut (fun _ => 0x8000) d.bypSel i s })

/-! ### Generators (R248 to R250) -/

/-- v of R249 for a phase. -/
def sineShape (ph : Nat) : Int :=
  let x := ph % 2 ^ 30 * 2
  match ph / 2 ^ 30 % 4 with
  | 0 => quarterSine x
  | 1 => quarterSine (2 ^ 31 - x)
  | 2 => -(quarterSine x : Int)
  | _ => -(quarterSine (2 ^ 31 - x) : Int)

/-- One step of the Galois register of R250. -/
def galois (r : Word) : Word := if r.getLsbD 0 then (r >>> 1) ^^^ 0x80200003 else r >>> 1

/-- What an unlisted noise register reads as: the reset value of SEED. -/
def noiseOne (_ : Nat) : Word := 1

/-- A generator's value put down for a domain. -/
def putGen (d : Device) (k : Fin 4) (g : Nat) (v : TWord) : Device :=
  { d with genVals := sparsePut cellInvalid d.genVals (64 * k.val + g) (cellOf v) }

/-- Sine generator `g` steps in a domain (R249). -/
def sineStep (d : Device) (k : Fin 4) (g : Nat) : Device :=
  let ph := (sparseGet natZero d.sinePhase (16 * k.val + g) + getF d (F.GEN_SINE.PHINC g)) % 2 ^ 32
  let v := (getF d (F.GEN_SINE.LEVEL g) : Int) * sineShape ph / 2 ^ 31
  putGen { d with sinePhase := sparsePut natZero d.sinePhase (16 * k.val + g) ph } k (32 + g) ⟨BitVec.ofInt 32 v, .sample⟩

/-- Noise generator `g` steps in a domain (R250). -/
def noiseStep (d : Device) (k : Fin 4) (g : Nat) : Device :=
  let r := galois (sparseGet noiseOne d.noiseReg (16 * k.val + g))
  let v := (getF d (F.GEN_NOISE.LEVEL g) : Int) * r.toInt / 2 ^ 31
  putGen { d with noiseReg := sparsePut noiseOne d.noiseReg (16 * k.val + g) r } k (48 + g) ⟨BitVec.ofInt 32 v, .sample⟩

/-- The tag of a kind field (R58). -/
def kindCode (k : Nat) : Tag := tagOfCode (k % 4)

/-- The generators and constants of a domain take their values for a kickoff (R248). -/
def stepGenerators (d : Device) (k : Fin 4) : Device :=
  let d := putGen d k 0 (TWord.zero .sample)
  let d := (List.range 31).foldl (fun d j =>
    putGen d k (j + 1) ⟨BitVec.ofNat 32 (getF d (F.ROUTE_CONST.PAYLOAD (j + 1))), kindCode (getF d (F.ROUTE_CONST.KIND (j + 1)))⟩) d
  let d := (List.range 16).foldl (fun d g => sineStep d k g) d
  (List.range 16).foldl (fun d g => noiseStep d k g) d

/-- A write of GEN_SINEg. -/
def sineWrite (d : Device) (g v : Nat) : Device :=
  setF (setF d (F.GEN_SINE.PHINC g) (v % 2 ^ 32)) (F.GEN_SINE.LEVEL g) (v / 2 ^ 32)

/-- A write of GEN_NOISEg (R250): a SEED of 0 is not taken; the register of every domain is loaded from SEED. -/
def noiseWrite (d : Device) (g v : Nat) : Device :=
  let d := setF d (F.GEN_NOISE.LEVEL g) (v / 2 ^ 32)
  let d := if v % 2 ^ 32 = 0 then d else setF d (F.GEN_NOISE.SEED g) (v % 2 ^ 32)
  (List.finRange 4).foldl (fun d k =>
    { d with noiseReg := sparsePut noiseOne d.noiseReg (16 * k.val + g) (BitVec.ofNat 32 (getF d (F.GEN_NOISE.SEED g))) }) d

/-! ### Meters (R255, R256) -/

/-- The integer square root by its bits from `b - 1` down. -/
def sqrtBits : Nat → Nat → Nat → Nat
  | 0, _, r => r
  | b + 1, x, r => if (r + 2 ^ b) * (r + 2 ^ b) ≤ x then sqrtBits b x (r + 2 ^ b) else sqrtBits b x r

/-- A tap. -/
def tapOf (d : Device) (t : Nat) : Tap := sparseGet (fun _ => Tap.reset) d.taps t

/-- Whether a tag is left out of a meter block. -/
def meterExcluded (t : Tag) : Bool := decide (t = .invalid ∨ t = .poison ∨ t = .uninit)

/-- A tap takes the value of frame `p` (R255); a frame of another block starts a new one. -/
def tapTake (len p : Nat) (x : Tap) (v : TWord) : Tap :=
  let b := p / Nat.max 1 len
  let x := if x.block = b then x else { x with n := 0, peak := 0, sum := 0, worst := .sample, excl := 0, block := b }
  let x := { x with worst := (worst v.t x.worst).getD .sample }
  if meterExcluded v.t then { x with excl := x.excl + 1 }
  else { x with n := x.n + 1, peak := Nat.max x.peak v.p.toInt.natAbs, sum := x.sum + v.p.toInt.natAbs ^ 2 }

/-- A complete block's results replace the tap's latest, and the next block starts empty (R255, R256). -/
def tapClose (x : Tap) : Tap :=
  let rms := if x.n = 0 then 0 else sqrtBits 32 (x.sum / x.n) 0
  { x with
    n := 0, peak := 0, sum := 0, worst := .sample, excl := 0, block := x.block + 1
    lPeak := BitVec.ofNat 32 (Nat.min x.peak (2 ^ 31 - 1)), lRms := BitVec.ofNat 32 rms
    lTag := x.worst, lExcl := Nat.min 0xFFFF x.excl }

/-- One tap at the resolution of frame `p`. -/
def meterTap (d : Device) (k : Fin 4) (p t : Nat) : Device :=
  let len := getF d (F.S_ROUTE.MTRCTL.BLOCK 0xA0)
  let r := deliver d k (0x2480 + t)
  let x := tapTake len p (tapOf r.1 t) r.2
  let x := if (p + 1) % Nat.max 1 len = 0 then tapClose x else x
  { r.1 with taps := sparsePut (fun _ => Tap.reset) r.1.taps t x }

/-- The words a tap block pushes at the end of a meter block (R256). -/
def meterWords (d : Device) (b : Nat) : List TWord :=
  (List.range 64).flatMap (fun j =>
    let x := tapOf d (64 * b + j)
    [⟨x.lPeak, x.lTag⟩, ⟨x.lRms, x.lTag⟩])

/-- A tap block at the resolution of frame `p` (R255, R256). -/
def meterBlock (d : Device) (k : Fin 4) (p b : Nat) : Device :=
  if meterOn d b ∧ meterDom d b = k ∧ Regions.eff d.regions 0xA0 ≠ .empty then
    let d := (List.range 64).foldl (fun d j => meterTap d k p (64 * b + j)) d
    let q := bitsOf (reg d (0x1F0A0048 + 4 * (b / 4))).toNat (8 * (b % 4)) 8
    if (p + 1) % Nat.max 1 (getF d (F.S_ROUTE.MTRCTL.BLOCK 0xA0)) = 0 ∧ q ≠ 0 then quePushItem d (queNo q) (meterWords d b) else d
  else d

end Sys2Proof.Machine
end

