-- ==== Sys2Proof/Machine/Mix.lean ====
section
/-! DEFINITION. Mix units (R251 to R254) and sample-rate conversion (R274 to R277). -/

namespace Sys2Proof.Machine

/-! ### Staging of crosspoint commands (R253) -/

/-- A mix unit. -/
def mixUnit (d : Device) (m : Fin 16) : MixUnit := d.mix[m]

/-- A mix unit replaced. -/
def setMix (d : Device) (m : Fin 16) (x : MixUnit) : Device := { d with mix := d.mix.set m x }

/-- The rate domain of a mix unit. -/
def mixDom (d : Device) (m : Fin 16) : Fin 4 := rgnDomain d (0x80 + m.val)

/-- A crosspoint's key. -/
def xpKey (i o : Nat) : Nat := 256 * o + i

/-- What an unlisted crosspoint reads as: gain 0. -/
def xpZero (_ : Nat) : Xp := ⟨0, 0, 0, 0, 0⟩

/-- A write of MIX_XPCMD (R24, R253). -/
def xpCommand (d : Device) (q : Req) (addr : Nat) (m : Fin 16) (v : Nat) : Device :=
  let i := v % 2 ^ 8
  let o := v / 2 ^ 8 % 2 ^ 6
  let x := mixUnit d m
  if mixNin d m ≤ i ∨ mixNout d m ≤ o then rejectReq d 0x12 q addr
  else if 1024 ≤ x.staged.length then rejectReq d 0x01 q addr
  else setMix d m { x with staged := x.staged ++ [⟨i, o, (BitVec.ofNat 32 (v / 2 ^ 32)).toInt, v / 2 ^ 14 % 4⟩] }

/-- The GO of MIX_CTL arms the list (R239, R253). -/
def mixArm (d : Device) (m : Fin 16) : Device :=
  let x := mixUnit d m
  if x.staged = [] then d
  else
    let t := targetOf d (mixDom d m) (getB d (F.MIX_CTL.NEXT m)) (getF d (F.MIX_APPLYKO.KICKOFF m))
    setMix d m { x with armed := some (t, x.staged), staged := [] }

/-- The fields of MIX_CTL that a write stores, with its DISCARD (R253). -/
def mixCtlTaken (d : Device) (m : Fin 16) (v : Nat) : Device :=
  let d := setF d (F.MIX_CTL.NEXT m) (v / 2)
  if v / 4 % 2 = 1 then setMix d m { mixUnit d m with staged := [] } else d

/-- A write of MIX_CTL (R24, R239, R253): a GO after a DISCARD finds an empty list and arms nothing, and a write whose GO is
rejected is ignored as a whole. -/
def mixCtl (d : Device) (q : Req) (m : Fin 16) (v : Nat) : Device :=
  let e := mixCtlTaken d m v
  if v % 2 = 0 then e
  else if ¬ domConfigured d (mixDom d m) then rejectReq d 0x12 q (Adr.MIX_CTL m)
  else if v / 4 % 2 = 1 then e
  else if (mixUnit e m).armed ≠ none then rejectReq d 0x11 q (Adr.MIX_CTL m)
  else mixArm e m

/-- MIX_STAT as it reads: staged entries and the armed list beside the latched bits. -/
def mixStatWord (d : Device) (m : Fin 16) : Nat :=
  let x := mixUnit d m
  withBits (withBits (reg d (Adr.MIX_STAT m)).toNat 0 11 x.staged.length) 16 1 (x.armed ≠ none : Bool).toNat

/-- An applied command starts a ramp (R254). -/
def startRamp (d : Device) (m : Fin 16) (c : XpCmd) : Device :=
  let x := mixUnit d m
  let p := sparseGet xpZero x.xp (xpKey c.i c.o)
  let r := Nat.max 1 (getF d (F.MIX_RAMP.TIME m c.prof) * rateFs d (mixDom d m) / 10000)
  setMix d m { x with xp := sparsePut xpZero x.xp (xpKey c.i c.o) ⟨p.cur, p.cur, c.gain, r, 0⟩ }

/-- The last command of a list for each crosspoint (R253). -/
def lastCmds : List XpCmd → List XpCmd
  | [] => []
  | c :: cs => if cs.any (fun e => decide (e.i = c.i ∧ e.o = c.o)) then lastCmds cs else c :: lastCmds cs

/-- An armed crosspoint list takes effect at kickoff `n` (R240, R253). -/
def mixApply (d : Device) (m : Fin 16) (n : Nat) : Device :=
  match (mixUnit d m).armed with
  | none => d
  | some (t, l) =>
    if ¬ t.due n then d
    else
      let d := setMix d m { mixUnit d m with armed := none }
      let d := if t.isLate n then raiseEv (setB d (F.MIX_STAT.LATE m) true) (0x160 + m.val) else d
      (lastCmds l).foldl (fun d c => startRamp d m c) d

/-! ### A mix unit's resolution (R251, R252, R254) -/

/-- One resolution of a crosspoint's ramp (R254). -/
def xpStep (p : Xp) : Xp :=
  if p.k < p.r then { p with k := p.k + 1, cur := p.g0 + (p.tgt - p.g0) * (p.k + 1 : Nat) / (p.r : Nat) } else p

/-- Every ramp of a unit advances by one resolution. -/
def rampAll (x : MixUnit) : MixUnit := { x with xp := x.xp.map (fun e => (e.1, xpStep e.2)) |>.filter (fun e => decide (e.2 ≠ xpZero e.1)) }

/-- acc of R251 with its tag: over the crosspoints of output `o` with a non-zero gain; none is an output without a
counted input. -/
def mixAcc (x : MixUnit) (nin : Nat) (ins : List TWord) (o : Nat) : Int × Option Tag :=
  x.xp.foldl (fun (a : Int × Option Tag) e =>
    if e.1 / 256 = o ∧ e.1 % 256 < nin ∧ ¬ e.2.cur = (0 : Int) then
      let v := ins.getD (e.1 % 256) (TWord.zero .invalid)
      (a.1 + v.p.toInt * e.2.cur / 2 ^ 27, some (match a.2 with
        | none => v.t
        | some t => addTag t v.t))
    else a) (0, none)

/-- What an unlisted limiter reads as: no history, gain 1. -/
def limOne (_ : Nat) : Lim := ⟨[], [], 2 ^ 31⟩

/-- The limiter of an output for one frame (R252): its new state, the output payload as an exact value, the tag of the
delayed sum, and the gain. `fill` is the tag of the delayed values before the first frame. -/
def limStep (la ceil rs : Nat) (fill : Tag) (l : Lim) (a : Int) (t : Tag) : Lim × Int × Tag :=
  let n := if a.natAbs ≤ ceil then 2 ^ 31 else ceil * 2 ^ 31 / a.natAbs
  let as := ((a, t) :: l.a).take (la + 1)
  let ns := (n :: l.n).take (la + 1)
  let m := ns.foldl Nat.min (2 ^ 31)
  let g := if m < l.g then m else l.g + (m - l.g) / 2 ^ rs
  let old := as.getD la (0, fill)
  (⟨as, ns, g⟩, old.1, old.2)

/-- One output of a unit (R252): the entry's value; `clips` says whether its narrowing saturated. -/
def mixOutput (d : Device) (m : Fin 16) (ins : List TWord) (o : Nat) : Device × TWord × Bool :=
  let x := mixUnit d m
  let acc := mixAcc x (mixNin d m) ins o
  let s := limStep (getF d (F.S_MIX.CTL.LA (0x80 + m.val))) (getF d (F.MIX_LIM.CEIL m o)) (getF d (F.MIX_LIM.RS m o)) x.fill
    (sparseGet limOne x.lim o) acc.1 (acc.2.getD .sample)
  let d := setMix d m { x with lim := sparsePut limOne x.lim o s.1 }
  let d := setF d (F.MIX_GR.GAIN m o) s.1.g
  if getB d (F.MIX_LIM.EN m o) then (d, ⟨BitVec.ofInt 32 (s.2.1 * s.1.g / 2 ^ 31), s.2.2⟩, false)
  else
    let y := narrow 32 true s.2.1
    (d, ⟨BitVec.ofInt 32 y.r, s.2.2⟩, y.sat)

/-- The outputs `o` to `o + n - 1` of a running unit; the count of saturations. -/
def mixOutputs (d : Device) (m : Fin 16) (k : Fin 4) (ins : List TWord) : Nat → Nat → Nat → Device × Nat
  | _, 0, c => (d, c)
  | o, n + 1, c =>
    let r := mixOutput d m ins o
    let s := 0x1400 + 64 * m.val + o
    let d := putEntry r.1 s (faded r.1 (0x80 + m.val) k r.2.1 (entry r.1 s))
    mixOutputs d m k ins (o + 1) n (c + r.2.2.toNat)

/-- The entries of a stopped unit keep their policy value (R82, R84). -/
def mixStopped (d : Device) (m : Fin 16) (k : Fin 4) : Device :=
  (List.range (mixNout d m)).foldl (fun d o =>
    let s := 0x1400 + 64 * m.val + o
    putEntry d s (faded d (0x80 + m.val) k (TWord.zero .invalid) (entry d s))) d

/-- The entries of outputs the unit does not enable deliver INVALID (R229). -/
def mixUnused (d : Device) (m : Fin 16) : Device :=
  (List.range 64).foldl (fun d o => if mixNout d m ≤ o then putEntry d (0x1400 + 64 * m.val + o) (TWord.zero .invalid) else d) d

/-- The crosspoint products of a unit with a gain that is not zero (R440). -/
def mixProducts (d : Device) (m : Fin 16) : Nat :=
  ((mixUnit d m).xp.filter (fun e =>
    decide (e.1 % 256 < mixNin d m.val) && decide (e.1 / 256 < mixNout d m.val) && decide (e.2.cur ≠ 0))).length

/-- A mix unit at a resolution of its domain (R234, R251, R252, R254). -/
def mixResolve (d : Device) (k : Fin 4) (m : Fin 16) : Device :=
  if mixDom d m ≠ k ∨ Regions.eff d.regions (0x80 + m.val) = .empty then d
  else
    let d := mixUnused d m
    if Regions.stopped d.regions (0x80 + m.val) then mixStopped d m k
    else
      let d := setMix d m (rampAll (mixUnit d m))
      let d := tally d 4 (mixProducts d m)
      let r := deliverRun d k (0x1000 + 256 * m.val) (mixNin d m)
      let s := mixOutputs r.1 m k r.2 0 (mixNout d m) 0
      if s.2 = 0 then s.1 else raiseEv (incF s.1 (F.MIX_STAT.CLIP m) s.2) (0x150 + m.val)

/-! ### Sample-rate conversion -/

/-- The worst tag of a channel's filter span: an output whose every input is valid is SAMPLE (R277). -/
def spanTag (l : List Tag) : Tag := l.foldl (fun a t => (worst a t).getD .sample) .sample

/-- The filter span of a channel, newest sample first (R275). -/
def asrcSpanOf (d : Device) (u c : Nat) : List TWord := sparseGet (fun _ => []) d.asrcSpan (16 * u + c)

/-- One input sample of a channel enters its filter span of 64 (R275, R277). -/
def asrcPush (d : Device) (u c : Nat) (v : TWord) : Device :=
  { d with asrcSpan := sparsePut (fun _ => []) d.asrcSpan (16 * u + c) ((v :: asrcSpanOf d u c).take 64) }

/-- One output sample of a channel (R129, R130, R275 to R277): the filter's sum over the span, a free function of the span's
payloads, the unit's one ratio and the output's number, truncated and narrowed with S = 1; its tag is the span's. -/
def asrcOut (d : Device) (u c : Nat) : Device × TWord :=
  if ¬ Regions.live d.regions 0xA4 ∨ ¬ getB d (F.ASRC_STAT.LOCK u) then (d, TWord.zero .invalid)
  else
    let f := fresh d
    let span := asrcSpanOf d u c
    let sum := Config.asrcSum (span.map (·.p)) (reg d (Adr.ASRC_RATIO u)) f.1
    (f.2, ⟨BitVec.ofInt 32 (narrow 32 true (sum.toInt / 2 ^ Config.asrcFrac)).r, spanTag (span.map (·.t))⟩)

/-- One output sample of a port-side channel as the lane of a port in domain `k` takes it (R83, R84, R277). -/
def asrcPortOut (d : Device) (k : Fin 4) (u c : Nat) : Device × TWord :=
  let r := asrcOut d u c
  let v := faded r.1 0xA4 k r.2 (sparseGet (fun _ => TWord.zero .invalid) r.1.asrcLast (16 * u + c))
  ({ r.1 with asrcLast := sparsePut (fun _ => TWord.zero .invalid) r.1.asrcLast (16 * u + c) v }, v)

/-- The domain-side outputs of a unit for the period of domain `k` (R84, R229, R234). -/
def asrcOutputs (d : Device) (k : Fin 4) (u : Nat) : Device :=
  if asrcPortSide d u 4 ∨ asrcDom d u 4 ≠ k ∨ Regions.eff d.regions 0xA4 = .empty then d
  else
    (List.range 16).foldl (fun d c =>
      let s := 0x1800 + 16 * u + c
      if c < asrcNch d u then
        let r := asrcOut d u c
        putEntry r.1 s (faded r.1 0xA4 k r.2 (entry r.1 s))
      else putEntry d s (TWord.zero .invalid)) d

/-- The domain-side inputs of a unit at a resolution of domain `k`. -/
def asrcInputs (d : Device) (k : Fin 4) (u : Nat) : Device :=
  if asrcPortSide d u 0 ∨ asrcDom d u 0 ≠ k ∨ ¬ Regions.live d.regions 0xA4 then d
  else
    let r := deliverRun d k (0x2400 + 16 * u) (asrcNch d u)
    (r.2.zip (List.range 16)).foldl (fun d e => asrcPush d u e.2 e.1) r.1

/-- The unit and channel bound to a port's slot in a direction: side 0 the receive lane, side 4 the transmit lane (R274). -/
def asrcBound (d : Device) (side n slot : Nat) : Option (Nat × Nat) :=
  (List.range 8).findSome? (fun u =>
    let f := asrcFirst d u side
    if asrcPortSide d u side ∧ asrcPort d u side = n ∧ f ≤ slot ∧ slot < f + asrcNch d u then some (u, slot - f) else none)

/-- ASRC_LOCK (R276): the measured ratio has settled. -/
def asrcLock (d : Device) (u : Fin 8) (ratio : Word) : Device :=
  if ¬ Regions.live d.regions 0xA4 ∨ getB d (F.ASRC_STAT.LOCK u) then d
  else
    let d := setB (setB (setB d (F.ASRC_STAT.LOCK u) true) (F.ASRC_STAT.RANGE u) false) (F.ASRC_STAT.STARVE u) false
    setF d (F.ASRC_RATIO.RATIO u) ratio.toNat

/-- ASRC_UNLOCK (R276): EVT_ASRC_UNLOCK and the count. -/
def asrcUnlock (d : Device) (u : Fin 8) (why : Unlock) (ratio : Word) : Device :=
  let d := setF d (F.ASRC_RATIO.RATIO u) ratio.toNat
  let d := if why = .range then setB d (F.ASRC_STAT.RANGE u) true else d
  let d := if why = .starve then setB d (F.ASRC_STAT.STARVE u) true else d
  if getB d (F.ASRC_STAT.LOCK u) then
    raiseEv (incF (setB d (F.ASRC_STAT.LOCK u) false) (F.ASRC_STAT.UNLOCKCNT u)) (0x170 + u.val)
  else d

end Sys2Proof.Machine
end

