-- ==== Sys2Proof/Machine/Fabric.lean ====
section
/-! DEFINITION. The fabric node (R346 to R369): cells and floods, epochs and joins, adjacencies, the database and its
routes, election, grants, runs, the time link and the gate. -/

namespace Sys2Proof.Machine

/-! ### Links and adjacencies as the fabric sees them -/

/-- A link. -/
def lk (d : Device) (n : Fin 8) : LinkX := d.link[n]

/-- A link replaced. -/
def setLk (d : Device) (n : Fin 8) (x : LinkX) : Device := { d with link := d.link.set n x }

/-- A link by number. -/
def lkNo (k : Nat) : Fin 8 := ⟨k % 8, by omega⟩

/-- Slots of a link's frame. -/
def linkSlots (d : Device) (n : Fin 8) : Nat := 16 * (linkField d n.val 0x40 8 8 + 1)

/-- Whether a link is UP. -/
def linkUp (d : Device) (n : Fin 8) : Bool := getB d (F.LINK_STAT.UP n.val)

/-- An adjacency. -/
def adj (d : Device) (n : Fin 8) : Adj := d.fab.adj[n]

/-- An adjacency replaced. -/
def setAdj (d : Device) (n : Fin 8) (x : Adj) : Device :=
  { d with fab := { d.fab with adj := d.fab.adj.set n x } }

/-- Whether a link has a FULL adjacency. -/
def adjFull (d : Device) (n : Fin 8) : Bool := (adj d n).full

/-- Whether any adjacency is FULL. -/
def anyFull (d : Device) : Bool := (List.finRange 8).any (adjFull d)

/-- The UID of this node. -/
def ownUid (d : Device) : Nat := d.variant.uid.toNat

/-- The epoch of this node. -/
def ownEpoch (d : Device) : Nat := getF d F.FAB_EPOCH.EPOCH

/-- The address of this node; 0x3FF while none is granted. -/
def ownAddr (d : Device) : Nat := getF d F.FAB_STAT.ADDR

/-- A is newer than b as epochs (R350). -/
def newer (a b : Nat) : Bool :=
  let x := (a + 2 ^ 16 - b % 2 ^ 16) % 2 ^ 16
  decide (1 ≤ x ∧ x ≤ 32767)

/-- A number from payload bytes, low byte first (R346). -/
def leGet (pay : List Nat) (o n : Nat) : Nat :=
  (List.range n).foldl (fun a k => a + pay.getD (o + k) 0 % 256 * 256 ^ k) 0

/-- The bytes of a number, low byte first. -/
def leBytes (v n : Nat) : List Nat := (List.range n).map (fun k => v / 256 ^ k % 256)

/-- A cell this node originates. -/
def mkCell (d : Device) (ctype dst seq : Nat) (pay : List Nat) : LyCell :=
  ⟨ctype, dst, ownAddr d, 0, ownEpoch d, pay.length, seq, (pay ++ List.replicate 24 0).take 24⟩

/-! ### Transmit cell queues (R347 to R349) -/

/-- A cell dropped and counted in FAB_CELLERR.BAD. -/
def cellBad (d : Device) : Device := incF d F.FAB_CELLERR.BAD

/-- A cell joins a link's transmit queue (R349): a HELLO replaces an unsent one; a full queue drops the cell. -/
def enqueue (d : Device) (n : Fin 8) (c : LyCell) : Device :=
  let x := lk d n
  let q := if c.ctype = 1 then x.txCells.filter (fun e => decide (e.ctype ≠ 1)) else x.txCells
  if 512 ≤ q.length then incF d F.FAB_CELLERR.DROP
  else setLk d n { x with txCells := q ++ [c] }

/-- A cell sent on a link (R347): HOPS advances, and a cell beyond 16 hops is dropped. -/
def sendCell (d : Device) (n : Fin 8) (c : LyCell) : Device :=
  if 16 < c.hops + 1 then cellBad d else enqueue d n { c with hops := c.hops + 1 }

/-- A cell sent on every FULL adjacency but one (R348). -/
def floodCell (d : Device) (from_ : Option (Fin 8)) (c : LyCell) : Device :=
  (List.finRange 8).foldl (fun d n => if adjFull d n ∧ from_ ≠ some n then sendCell d n c else d) d

/-- The identity of a flooded cell (R348). -/
def cellId (c : LyCell) : CellId :=
  match c.ctype with
  | 2 => ⟨2, leGet c.pay 0 8, leGet c.pay 8 1, c.oepoch⟩
  | 3 => ⟨3, leGet c.pay 0 8, c.oepoch, 0⟩
  | 4 => ⟨4, leGet c.pay 0 2, leGet c.pay 2 8, 0⟩
  | _ => ⟨c.ctype, c.orig, c.oepoch, 0⟩

/-- The number listed for an identity. -/
def idFind (l : List (CellId × Nat)) (i : CellId) : Option Nat := (l.find? (fun e => decide (e.1 = i))).map (·.2)

/-- An identity's number replaced. -/
def idPut (l : List (CellId × Nat)) (i : CellId) (n : Nat) : List (CellId × Nat) :=
  (i, n) :: l.filter (fun e => decide (e.1 ≠ i))

/-- Whether a flooded cell is new (R348). -/
def cellNew (d : Device) (c : LyCell) : Bool :=
  match idFind d.fab.seen (cellId c) with
  | none => true
  | some s =>
    let x := (c.seq + 128 - s % 128) % 128
    decide (1 ≤ x ∧ x ≤ 63)

/-- A flooded cell is noted as seen. -/
def noteSeen (d : Device) (c : LyCell) : Device :=
  { d with fab := { d.fab with seen := idPut d.fab.seen (cellId c) c.seq } }

/-- A cell originated and flooded, with the next SEQ of its identity (R346, R348). -/
def originate (d : Device) (ctype dst : Nat) (pay : List Nat) : Device :=
  let i := cellId (mkCell d ctype dst 0 pay)
  let s := ((idFind d.fab.seqs i).map (fun s => (s + 1) % 128)).getD 0
  let d := { d with fab := { d.fab with seqs := idPut d.fab.seqs i s } }
  let c := mkCell d ctype dst s pay
  floodCell (noteSeen d c) none c

/-! ### The node's own parts and the routes (R355, R357) -/

/-- PART 0 of this node's LSA. -/
def ownPart0 (d : Device) : Part0 where
  prio := getF d (F.S_FAB.NODE.PRIO 0xFF)
  pref := getF d (F.S_FAB.NODE.PREFADDR 0xFF)
  addr := ownAddr d
  full := (List.finRange 8).foldl (fun m n => if adjFull d n then m + 2 ^ n.val else m) 0
  tlock := getB d F.TIME_STAT.LOCKED

/-- The payload of PART 0. -/
def part0Bytes (d : Device) (p : Part0) : List Nat :=
  leBytes (ownUid d) 8 ++ [0, p.prio] ++ leBytes p.pref 2 ++ leBytes p.addr 2 ++ [p.full, p.tlock.toNat, 0, 0, 0]

/-- The payload of PART n + 1: the neighbour on link n, or 0 when withdrawn. -/
def partBytes (d : Device) (n : Fin 8) : List Nat :=
  let a := adj d n
  leBytes (ownUid d) 8 ++ [n.val + 1] ++ leBytes (if a.full then a.uid.getD 0 else 0) 8 ++ leBytes (if a.full then a.recEpoch else 0) 2

/-- This node as a node of the database. -/
def ownNode (d : Device) : DbNode where
  uid := ownUid d
  epoch := ownEpoch d
  p0 := some (ownPart0 d)
  nb := (List.finRange 8).filterMap (fun n =>
    if adjFull d n then some (n.val, ((adj d n).uid.getD 0, (adj d n).recEpoch)) else none)
  lost := none

/-- Every node known, this one first. -/
def fabNodes (d : Device) : List DbNode := ownNode d :: d.fab.db

/-- Whether x's parts list y with its current epoch. -/
def listsNode (x y : DbNode) : Bool := x.nb.any (fun e => decide (e.2 = (y.uid, y.epoch)))

/-- Whether the link between two nodes is counted (R357). -/
def counted (x y : DbNode) : Bool := listsNode x y && listsNode y x

/-- The hop counts from a set of nodes at distance `k` and below over counted links. -/
def spread (ns : List DbNode) : Nat → Nat → List (DbNode × Nat) → List (DbNode × Nat)
  | 0, _, acc => acc
  | f + 1, k, acc =>
    let new := ns.filter (fun y =>
      acc.all (fun e => decide (e.1.uid ≠ y.uid)) && acc.any (fun e => decide (e.2 = k) && counted e.1 y))
    if new = [] then acc else spread ns f (k + 1) (acc ++ new.map (fun y => (y, k + 1)))

/-- Hop counts from a node to every connected node. -/
def hopsFrom (d : Device) (x : DbNode) : List (DbNode × Nat) := spread (fabNodes d) (fabNodes d).length 0 [(x, 0)]

/-- The reachable nodes with their hop counts (R357). -/
def reachable (d : Device) : List (DbNode × Nat) := (hopsFrom d (ownNode d)).filter (fun e => decide (e.2 ≤ 16))

/-- The next hop toward a reachable node and its hop count (R357): the lowest FULL link on a shortest path. -/
def routeTo (d : Device) (y : DbNode) : Option (Fin 8 × Nat) :=
  let hs := hopsFrom d y
  match hs.find? (fun e => decide (e.1.uid = ownUid d)) with
  | none => none
  | some (_, h) =>
    if 16 < h then none
    else if h = 0 then some (0, 0)
    else
      ((List.finRange 8).find? (fun n =>
        adjFull d n && hs.any (fun e =>
          decide (some e.1.uid = (adj d n).uid) && decide (e.1.epoch = (adj d n).recEpoch) && decide (e.2 + 1 = h)
            && counted (ownNode d) e.1))).map (fun n => (n, h))

/-- The node that holds an address: among several the lowest UID. -/
def addrNode (d : Device) (a : Nat) : Option DbNode :=
  ((fabNodes d).filter (fun x => decide (a ≠ 0x3FF) && (x.p0.map (·.addr)) == some a)).foldl (fun b x =>
    match b with
    | none => some x
    | some y => if x.uid < y.uid then some x else some y) none

/-- The route toward an address. -/
def routeAddr (d : Device) (a : Nat) : Option (Fin 8 × Nat) := (addrNode d a).bind (routeTo d)

/-- A routed cell goes on toward its destination, or is dropped (R347). -/
def routeCell (d : Device) (c : LyCell) : Device :=
  match routeAddr d c.dst with
  | none => cellBad d
  | some (n, _) => sendCell d n c

/-- The database changes (R355, R356). -/
def dbTouch (d : Device) : Device := { d with fab := { d.fab with dbAt := d.fab.frame, quiet := false } }

/-! ### Runs (R361 to R364) -/

/-- A slot map entry as it will be at the next kickoff: transmit entries at s, receive entries at 4096 + s (R341). -/
def mapPut (d : Device) (n : Fin 8) (k v : Nat) : Device :=
  let x := lk d n
  setLk d n { x with mapNext := sparsePut natZero x.mapNext k v }

/-- `count` consecutive entries written. -/
def mapRun (d : Device) (n : Fin 8) (k count : Nat) (f : Nat → Nat) : Device :=
  (List.range count).foldl (fun d i => mapPut d n (k + i) (f i)) d

/-- What an unlisted run reads as: IDLE. -/
def runIdle (_ : Nat) : OwnRun := ⟨0, 0, 0, 0, 0, 0, 0, 0, 0⟩

/-- A run of this node. -/
def ownRun (d : Device) (r : Nat) : OwnRun := sparseGet runIdle d.fab.runs r

/-- A run replaced. -/
def putRun (d : Device) (r : Nat) (x : OwnRun) : Device :=
  { d with fab := { d.fab with runs := sparsePut runIdle d.fab.runs r x } }

/-- Whether a run holds slots. -/
def runHolds (x : OwnRun) : Bool := decide (x.st = 1 ∨ x.st = 2)

/-- The slots reserved on a link: first slot and length. -/
def reserved (d : Device) (n : Fin 8) : List (Nat × Nat) :=
  (d.fab.runs.filter (fun e => runHolds e.2 && decide (e.2.link = n.val))).map (fun e => (e.2.slot, e.2.count)) ++
  d.fab.recs.filterMap (fun r =>
    match r.out with
    | some (l, s) => if l = n.val then some (s, r.count) else none
    | none => none)

/-- The lowest block of `count` free slots of a link (R361, R362). -/
def freeBlock (d : Device) (n : Fin 8) (count : Nat) : Option Nat :=
  (List.range (linkSlots d n)).find? (fun s =>
    decide (s + count ≤ linkSlots d n) &&
      (reserved d n).all (fun b => decide (b.1 + b.2 ≤ s) || decide (s + count ≤ b.1)))

/-- The entries of a run of this node are released. -/
def releaseOwn (d : Device) (x : OwnRun) : Device := if runHolds x then mapRun d (lkNo x.link) x.slot x.count (fun _ => 0) else d

/-- A run becomes FAILED (R364). -/
def runFail (d : Device) (r reason hop : Nat) : Device :=
  let x := ownRun d r
  raiseEv (putRun (releaseOwn d x) r { x with st := 3, reason := reason, hops := hop }) 0x1A1

/-- RUN_TEAR of a run of this node, sent on its first link. -/
def sendTear (d : Device) (r reason : Nat) : Device :=
  let x := ownRun d r
  sendCell d (lkNo x.link) (mkCell d 8 x.dst 0 ([r, reason] ++ leBytes (ownAddr d) 2 ++ leBytes (ownEpoch d) 2))

/-- A run record is released (R364). -/
def releaseRec (d : Device) (r : RunRec) : Device :=
  let d := { d with fab := { d.fab with recs := d.fab.recs.filter (fun e => decide (e ≠ r)) } }
  match r.out with
  | some (l, s) => mapRun d (lkNo l) s r.count (fun _ => 0)
  | none => mapRun d (lkNo r.inLink) (4096 + r.inSlot) r.count (fun _ => 0)

/-- Records that a condition names are released. -/
def releaseRecs (d : Device) (p : RunRec → Bool) : Device := (d.fab.recs.filter p).foldl releaseRec d

/-- RUN_NAK of a record, sent upstream. -/
def recNak (d : Device) (r : RunRec) (reason : Nat) : Device :=
  sendCell d (lkNo r.inLink) (mkCell d 7 r.orig 0 [r.run, reason, r.hops])

/-- RUN_TEAR of a record, sent downstream. -/
def recTear (d : Device) (r : RunRec) (reason : Nat) : Device :=
  match r.out with
  | none => d
  | some (l, _) => sendCell d (lkNo l) (mkCell d 8 r.dst 0 ([r.run, reason] ++ leBytes r.orig 2 ++ leBytes r.epoch 2))

/-- The runs of this node that a condition names become FAILED; with `tear` a RUN_TEAR is sent first. -/
def failRuns (d : Device) (p : OwnRun → Bool) (reason : Nat) (tear : Bool) : Device :=
  ((d.fab.runs.filter (fun e => runHolds e.2 && p e.2)).map (·.1)).foldl (fun d r =>
    runFail (if tear then sendTear d r reason else d) r reason 0) d

/-- Runs through a dropped adjacency (R364): reason LINKDOWN. -/
def runsOnDrop (d : Device) (n : Fin 8) : Device :=
  let d := failRuns d (fun x => decide (x.link = n.val)) 5 false
  let d := (d.fab.recs.filter (fun r => decide (r.out.map (·.1) = some n.val))).foldl (fun d r => releaseRec (recNak d r 5) r) d
  (d.fab.recs.filter (fun r => decide (r.inLink = n.val))).foldl (fun d r => releaseRec (recTear d r 5) r) d

/-- A newer epoch or a tombstone is learned for the node that holds an address (R364): reason STALE. -/
def nodeGone (d : Device) (addr epoch : Nat) : Device :=
  if addr = 0x3FF then d
  else
    let d := releaseRecs d (fun r => decide (r.orig = addr) && !newer r.epoch epoch)
    failRuns d (fun x => decide (x.dst = addr)) 6 true

/-! ### Status (R356, R357, R367) -/

/-- Whether this node is the confirmed Captain. -/
def isCapt (d : Device) : Bool := decide (d.fab.capt.map (·.1) = some (ownUid d))

/-- FAB_STAT.STATE (R356). -/
def fabState (d : Device) : Nat :=
  if ¬ anyFull d then 0 else if ¬ d.fab.quiet then 1
  else if d.fab.capt = none then 2 else if ownAddr d = 0x3FF then 3 else 4

/-- The FULL link with the best time (R367). -/
def bestTup (d : Device) : Option Nat :=
  ((List.finRange 8).filter (fun n =>
    adjFull d n && decide ((adj d n).tdist < 0xFF) && ((adj d n).tlock || (adj d n).capt))).foldl (fun b n =>
      match b with
      | none => some n.val
      | some m => if (adj d n).tdist < (adj d (lkNo m)).tdist then some n.val else some m) none

/-- The time link replaced. -/
def setTup (d : Device) (t : Option Nat) : Device :=
  let d := { d with fab := { d.fab with tup := t } }
  (List.finRange 8).foldl (fun d n => setB d (F.LINK_STAT.TUP n.val) (decide (t = some n.val))) d

/-- The time link is chosen where R367 lets the node choose. -/
def tupCheck (d : Device) : Device :=
  if isCapt d then setTup d none
  else
    match d.fab.tup with
    | none => setTup d (bestTup d)
    | some n => if adjFull d (lkNo n) ∧ (adj d (lkNo n)).tdist < 0xFF then d else setTup d (bestTup d)

/-- TDIST (R367). -/
def tdist (d : Device) : Nat :=
  if isCapt d then 0
  else
    match d.fab.tup with
    | none => 0xFF
    | some n => Nat.min 0xFF ((adj d (lkNo n)).tdist + 1)

/-- The reference hardware keeps with TFOLLOW (R368). -/
def followRef (d : Device) : Device :=
  if getB d (F.S_FAB.NODE.TFOLLOW 0xFF) then
    let sel := if isCapt d then getF d (F.S_FAB.NODE.CREF 0xFF) else 4
    if getF d F.TIME_CTL.REFSEL = sel then d else setRefsel d sel
  else d

/-- The fabric domain: that of the enabled links (R337). -/
def fabDom (d : Device) : Option (Fin 4) :=
  ((List.finRange 8).find? (fun n => decide (n.val < linkCount d) && decide (linkField d n.val 0x40 0 1 = 1))).map (fun n =>
    dom (linkField d n.val 0x40 4 2))

/-- The channels of this node's runs and of the runs it receives, by rate domain (R228, R231). -/
def fabChannels (d : Device) : Device :=
  let k := 1 + ((fabDom d).map (·.val)).getD 0
  let tx := d.fab.runs.foldl (fun m e => if runHolds e.2 then sparseFill natZero (fun _ => k) e.2.ochan e.2.count m else m) []
  let rx := d.fab.recs.foldl (fun m r =>
    if r.out = none then sparseFill natZero (fun _ => k) r.dchan r.count m else m) []
  { d with fabTx := tx, fabRx := rx }

/-- The nodes that have become unreachable since, and those reachable again (R352). -/
def markLost (d : Device) : Device :=
  let rs := reachable d
  { d with fab := { d.fab with db := d.fab.db.map (fun x =>
      if rs.any (fun e => decide (e.1.uid = x.uid)) then { x with lost := none }
      else { x with lost := some (x.lost.getD d.fab.frame) }) } }

/-- PART 0 is flooded when a field of it changes (R355). -/
def flood0 (d : Device) : Device :=
  let p := ownPart0 d
  if d.fab.lastP0 = some p then d
  else dbTouch (originate { d with fab := { d.fab with lastP0 := some p } } 2 0x3FF (part0Bytes d p))

/-- FAB_STAT, FAB_CAPTUID, FAB_NODES and FAB_TRANSIT follow the node's state. -/
def fabStatus (d : Device) : Device :=
  let st := fabState d
  let d := if getF d F.FAB_STAT.STATE = st then d else raiseEv (setF d F.FAB_STAT.STATE st) 0x19D
  let rs := reachable d
  let d := setB d F.FAB_STAT.DIAMERR (decide (rs.length < (hopsFrom d (ownNode d)).length))
  let d := setF (setF d F.FAB_NODES.NODES rs.length) F.FAB_NODES.DIAM (rs.foldl (fun m e => Nat.max m e.2) 0)
  let d := setF (setB d F.FAB_STAT.CAPT (isCapt d)) F.FAB_CAPTUID.UID ((d.fab.capt.map (·.1)).getD 0)
  setF (setF d F.FAB_STAT.TDIST (tdist d)) F.FAB_TRANSIT.RECORDS d.fab.recs.length

/-- What follows every change of the node. -/
def fabRefresh (d : Device) : Device := fabStatus (followRef (tupCheck (fabChannels (markLost (flood0 d)))))

/-! ### Epochs, joins and adjacencies (R350, R353, R354) -/

/-- A dropped adjacency: the exchange starts again. -/
def droppedAdj (a : Adj) : Adj := { a with full := false, recEpoch := 0, seen := false, last := 0, req := 0, tdist := 0xFF, tlock := false, capt := false }

/-- The node has just lost its last FULL adjacency (R350). -/
def noteAlone (d : Device) : Device :=
  if anyFull d then d else { d with fab := { d.fab with aloneAt := d.fab.frame, rejoined := !d.fab.held } }

/-- An adjacency drops to HELLO (R354, R355, R364). -/
def adjDrop (d : Device) (n : Fin 8) : Device :=
  if adjFull d n then
    let d := runsOnDrop (setAdj d n (droppedAdj (adj d n))) n
    noteAlone (dbTouch (originate d 2 0x3FF (partBytes d n)))
  else d

/-- A join (R350): the epoch takes a value, adjacencies drop, records are released, own runs fail, the address is
cleared and the outputs are gated. One that drops adjacencies begins a period without any. -/
def joinAt (d : Device) (epoch : Nat) : Device :=
  let d := failRuns d (fun _ => true) 6 false
  let d := releaseRecs d (fun _ => true)
  let had := anyFull d
  let d := { d with fab := { d.fab with adj := Vector.ofFn (fun n => droppedAdj d.fab.adj[n]) } }
  let d := if had then noteAlone d else d
  let d := dbTouch (setF (setF d F.FAB_EPOCH.EPOCH epoch) F.FAB_STAT.ADDR 0x3FF)
  let d := if getB d (F.S_FAB.NODE.GATE 0xFF) then setB d F.FAB_STAT.GATED true else d
  fabRefresh (raiseEv (incF d F.FAB_EPOCH.REJOINS) 0x1A0)

/-- The next epoch (R350): 0 is never used. -/
def nextEpoch (e : Nat) : Nat := if (e + 1) % 2 ^ 16 = 0 then 1 else (e + 1) % 2 ^ 16

/-- A join that increments the epoch. -/
def join (d : Device) : Device := joinAt d (nextEpoch (ownEpoch d))

/-- The HELLO this node sends on a link (R346, R353). -/
def mkHello (d : Device) (n : Fin 8) : LyCell :=
  let a := adj d n
  mkCell d 1 0x3FE 0 (leBytes (ownUid d) 8 ++ [getF d (F.S_FAB.NODE.PRIO 0xFF), n.val, a.seen.toNat + 2 * (isCapt d).toNat, 0]
    ++ leBytes a.last 2 ++ leBytes a.req 2)

/-- A HELLO put on a link's queue. -/
def sendHello (d : Device) (n : Fin 8) : Device :=
  sendCell (setAdj d n { adj d n with helloAt := d.fab.frame }) n (mkHello d n)

/-- The tombstone of a UID. -/
def tombOf (d : Device) (uid : Nat) : Option Tomb := d.fab.tombs.find? (fun t => decide (t.uid = uid))

/-- A tombstone ends. -/
def tombEnd (d : Device) (uid : Nat) : Device :=
  { d with fab := { d.fab with tombs := d.fab.tombs.filter (fun t => decide (t.uid ≠ uid)) } }

/-- An adjacency becomes FULL (R353): the partner's epoch is recorded. -/
def adjForm (d : Device) (n : Fin 8) (epoch : Nat) : Device :=
  let d := setAdj d n { adj d n with full := true, recEpoch := epoch, accAt := d.fab.frame, helloAt := d.fab.frame }
  let d := { d with fab := { d.fab with held := true, rejoined := false } }
  dbTouch (originate (raiseEv d 0x19D) 2 0x3FF (partBytes d n))

/-- A HELLO acted on (R350, R352 to R354). -/
def helloAct (d : Device) (n : Fin 8) (c : LyCell) : Device :=
  let uid := leGet c.pay 0 8
  let flags := leGet c.pay 10 1
  let seenBy := decide (flags % 2 = 1) && decide (leGet c.pay 12 2 = ownEpoch d)
  let req := leGet c.pay 14 2
  match (tombOf d uid).bind (fun t => if newer c.oepoch t.epoch then none else some t) with
  | some t => setAdj d n { adj d n with uid := some uid, seen := false, last := c.oepoch, req := nextEpoch t.epoch }
  | none =>
    let d := tombEnd d uid
    if req ≠ 0 ∧ newer req (ownEpoch d) then
      let d := joinAt d req
      setAdj d n { adj d n with uid := some uid, seen := true, last := c.oepoch, req := 0 }
    else
      let d := if adjFull d n ∧ (¬ seenBy ∨ (adj d n).uid ≠ some uid) then adjDrop d n else d
      let d := setAdj d n { adj d n with uid := some uid, seen := true, last := c.oepoch, req := 0, capt := decide (flags / 2 % 2 = 1) }
      if seenBy ∧ ¬ adjFull d n then adjForm d n c.oepoch else d

/-! ### The database (R352, R355) -/

/-- A node's entry replaced, or added. -/
def dbPut (d : Device) (x : DbNode) : Device :=
  let l := d.fab.db
  if l.contains x then d
  else
    dbTouch { d with fab := { d.fab with
      db := if l.any (fun y => decide (y.uid = x.uid)) then l.map (fun y => if y.uid = x.uid then x else y) else l ++ [x] } }

/-- A node's entry with a received part in it. -/
def withPart (x : DbNode) (c : LyCell) : DbNode :=
  let part := leGet c.pay 8 1
  if part = 0 then
    { x with p0 := some ⟨leGet c.pay 9 1, leGet c.pay 10 2, leGet c.pay 12 2, leGet c.pay 14 1, decide (leGet c.pay 15 1 % 2 = 1)⟩ }
  else if leGet c.pay 9 8 = 0 then { x with nb := sparseErase x.nb (part - 1) }
  else { x with nb := sparseInsert x.nb (part - 1) (leGet c.pay 9 8, leGet c.pay 17 2) }

/-- An LSA acted on (R355, R364): a newer epoch replaces every part of the older one. -/
def lsaAct (d : Device) (c : LyCell) : Device :=
  let uid := leGet c.pay 0 8
  if uid = ownUid d ∨ 8 < leGet c.pay 8 1 then d
  else
    match d.fab.db.find? (fun x => decide (x.uid = uid)) with
    | none => dbPut d (withPart ⟨uid, c.oepoch, none, [], none⟩ c)
    | some x =>
      if x.epoch = c.oepoch then dbPut d (withPart x c)
      else if newer c.oepoch x.epoch then
        dbPut (nodeGone d ((x.p0.map (·.addr)).getD 0x3FF) x.epoch) (withPart ⟨uid, c.oepoch, none, [], x.lost⟩ c)
      else d

/-- The tombstone of the node a cell comes from (R352), by its LSA origin or by ORIG. -/
def cellTomb (d : Device) (c : LyCell) : Option Tomb :=
  d.fab.tombs.find? (fun t =>
    (decide (c.ctype = 2) && decide (t.uid = leGet c.pay 0 8)) || (decide (c.orig ≠ 0x3FF) && decide (t.addr = c.orig)))

/-- A flooded or routed cell passes R352, or is dropped and counted; a newer epoch ends the tombstone. -/
def passTomb (d : Device) (c : LyCell) (f : Device → Device) : Device :=
  match cellTomb d c with
  | none => f d
  | some t =>
    if newer c.oepoch t.epoch then f (tombEnd d t.uid)
    else
      let d := if d.fab.staleNow then d else raiseEv { d with fab := { d.fab with staleNow := true } } 0x19C
      incF d F.FAB_STALE.CELLS

/-- A path-following cell with a newer epoch ends the tombstone of the node it comes from (R352). -/
def noteAlive (d : Device) (c : LyCell) : Device :=
  match cellTomb d c with
  | none => d
  | some t => if newer c.oepoch t.epoch then tombEnd d t.uid else d

/-! ### Addresses, Captain and grants (R358 to R360) -/

/-- The node's address takes a value (R360): its runs fail and records naming it are released. -/
def setAddr (d : Device) (a : Nat) : Device :=
  let old := ownAddr d
  if a = old then (if a = 0x3FF then d else setB d F.FAB_STAT.NOADDR false)
  else
    let d := failRuns d (fun _ => true) 8 true
    let d := releaseRecs d (fun r => decide (old ≠ 0x3FF) && (decide (r.orig = old) || decide (r.dst = old)))
    raiseEv (setB (setF d F.FAB_STAT.ADDR a) F.FAB_STAT.NOADDR (decide (a = 0x3FF))) 0x19F

/-- The confirmed Captain replaced; a change raises EVT_FAB_CAPT and lets the node choose its time link (R358, R367). -/
def setCapt (d : Device) (c : Option (Nat × Nat)) : Device :=
  if d.fab.capt.map (·.1) = c.map (·.1) then { d with fab := { d.fab with capt := c } }
  else
    let d := raiseEv { d with fab := { d.fab with capt := c } } 0x19E
    if c = none then d else setTup d (if isCapt d then none else bestTup d)

/-- The node R358 chooses: the highest PRIO above 0, then the lowest UID. -/
def bestCapt (d : Device) : Option DbNode :=
  ((reachable d).map (·.1)).foldl (fun b x =>
    let p := (x.p0.map (·.prio)).getD 0
    if p = 0 then b
    else
      match b with
      | none => some x
      | some y =>
        let py := (y.p0.map (·.prio)).getD 0
        if py < p ∨ (py = p ∧ x.uid < y.uid) then some x else some y) none

/-- A node put at its place in ascending UID order. -/
def insertUid (x : DbNode) : List DbNode → List DbNode
  | [] => [x]
  | y :: l => if x.uid ≤ y.uid then x :: y :: l else y :: insertUid x l

/-- Nodes in ascending UID order. -/
def byUid (l : List DbNode) : List DbNode := l.foldr insertUid []

/-- One pass of R359 over nodes: `f` gives a node's address from the addresses taken. -/
def grantPass (f : DbNode → List Nat → Option Nat) : List DbNode → List (Nat × Nat) → List (Nat × Nat)
  | [], g => g
  | x :: xs, g =>
    if g.any (fun e => decide (e.1 = x.uid)) ∨ 256 ≤ g.length then grantPass f xs g
    else
      match f x (g.map (·.2)) with
      | none => grantPass f xs g
      | some a => grantPass f xs (g ++ [(x.uid, a)])

/-- The Captain's grant table (R359): UID and address. -/
def grantTable (d : Device) : List (Nat × Nat) :=
  let ns := byUid (fabNodes d)
  let held := d.fab.tombs.map (·.addr)
  let g := grantPass (fun x t => match x.p0.map (·.addr) with
    | some a => if a < 0x3FE ∧ ¬ t.contains a then some a else none
    | none => none) ns []
  let g := grantPass (fun x t => match x.p0.map (·.pref) with
    | some a => if a < 0x3FE ∧ ¬ t.contains a ∧ ¬ held.contains a then some a else none
    | none => none) ns g
  grantPass (fun _ t => (List.range 0x3FE).find? (fun a => !t.contains a && !held.contains a)) ns g

/-- The GRANT cells of a table, two nodes a cell (R359). -/
def sendGrants (gen : Nat) : List (Nat × Nat) → Device → Device
  | [], d => d
  | [a], d => originate d 4 0x3FF (leBytes gen 2 ++ leBytes a.1 8 ++ leBytes a.2 2 ++ leBytes 0 10)
  | a :: b :: l, d =>
    sendGrants gen l (originate d 4 0x3FF (leBytes gen 2 ++ leBytes a.1 8 ++ leBytes a.2 2 ++ leBytes b.1 8 ++ leBytes b.2 2))

/-- This node finds itself chosen (R358 to R360). -/
def becomeCapt (d : Device) : Device :=
  let gen := (d.fab.genSent + 1) % 2 ^ 16
  let d := setCapt { d with fab := { d.fab with genSent := gen, genAt := none, genMine := true } } (some (ownUid d, ownEpoch d))
  let d := setF (setF d F.FAB_CAPT.ADDR (ownAddr d)) F.FAB_CAPT.GEN gen
  let d := originate d 3 0x3FF (leBytes (ownUid d) 8 ++ [getF d (F.S_FAB.NODE.PRIO 0xFF), 0] ++ leBytes gen 2)
  let t := byUid (fabNodes d) |>.filterMap (fun x => (grantTable d).find? (fun e => decide (e.1 = x.uid)))
  let d := sendGrants gen t d
  let a := ((t.find? (fun e => decide (e.1 = ownUid d))).map (·.2)).getD 0x3FF
  let d := setAddr d a
  setF d F.FAB_CAPT.ADDR a

/-- END_OF_QUIET (R356, R358): the database has been unchanged for 8 frames. -/
def endOfQuiet (d : Device) : Device :=
  if ¬ anyFull d ∨ d.fab.quiet ∨ d.fab.frame < d.fab.dbAt + 8 then d
  else
    let b := (bestCapt d).map (·.uid)
    let d := { d with fab := { d.fab with quiet := true, choice := b } }
    let d := setB d F.FAB_STAT.NOCAPT (decide (b = none))
    let d := if d.fab.capt.map (·.1) = b then d else setCapt d none
    fabRefresh (if b = some (ownUid d) then becomeCapt d else d)

/-- A is not older than b as a GEN (R360). -/
def genOk (a b : Nat) : Bool := decide ((a + 2 ^ 16 - b % 2 ^ 16) % 2 ^ 16 < 2 ^ 15)

/-- A CAPTAIN that matches the node's choice (R358); a GRANT of its GEN may have named the node before (R360). -/
def captainAct (d : Device) (c : LyCell) : Device :=
  let uid := leGet c.pay 0 8
  let gen := leGet c.pay 10 2
  let same := decide (d.fab.capt.map (·.1) = some uid)
  if same ∧ ¬ genOk gen (getF d F.FAB_CAPT.GEN) then d
  else
    let d := setCapt d (some (uid, c.oepoch))
    let d := setF (setF d F.FAB_CAPT.ADDR c.orig) F.FAB_CAPT.GEN gen
    { d with fab := { d.fab with genAt := some d.fab.frame, genMine := same && decide (d.fab.mineGen = gen) } }

/-- The node has its address from the grants of a GEN. -/
def grantMine (d : Device) (gen : Nat) : Device := { d with fab := { d.fab with genMine := true, mineGen := gen } }

/-- Whether a GRANT is dropped: this node is the Captain, or the cell is not the confirmed Captain's, or it is older (R360). -/
def grantDropped (d : Device) (c : LyCell) : Bool :=
  decide (isCapt d ∨ d.fab.capt = none ∨ c.orig ≠ getF d F.FAB_CAPT.ADDR ∨ d.fab.capt.map (·.2) ≠ some c.oepoch
      ∨ ¬ genOk (leGet c.pay 0 2) (getF d F.FAB_CAPT.GEN))

/-- The address a GRANT gives a UID. -/
def grantOf (c : LyCell) (uid : Nat) : Option Nat :=
  if leGet c.pay 2 8 = uid then some (leGet c.pay 10 2) else if leGet c.pay 12 8 = uid then some (leGet c.pay 20 2) else none

/-- The node takes the address granted to it. -/
def grantTake (d : Device) (gen : Nat) (a : Option Nat) : Device :=
  match a with
  | none => d
  | some a => setAddr (grantMine d gen) (a % 2 ^ 10)

/-- A GRANT from the confirmed Captain (R360). -/
def grantAct (d : Device) (c : LyCell) : Device :=
  if grantDropped d c then d else grantTake (setF d F.FAB_CAPT.GEN (leGet c.pay 0 2)) (leGet c.pay 0 2) (grantOf c (ownUid d))

/-- GRANT_DEADLINE (R360): the 64th frame after the CAPTAIN of a GEN whose GRANTs do not name this node. -/
def grantDeadline (d : Device) : Device :=
  match d.fab.genAt with
  | none => d
  | some f =>
    if d.fab.frame < f + 64 then d
    else
      let d := { d with fab := { d.fab with genAt := none } }
      if d.fab.genMine then d else fabRefresh (setB (setAddr d 0x3FF) F.FAB_STAT.NOADDR true)

/-! ### Received cells (R346 to R348, R362 to R366) -/

/-- RUN_NAK answered to a RUN_REQ, on the link it came by (R362). -/
def nakReq (d : Device) (n : Fin 8) (c : LyCell) (reason : Nat) : Device :=
  sendCell d n (mkCell d 7 c.orig 0 [leGet c.pay 0 1, reason, c.hops])

/-- A RUN_REQ at a node that is not DST (R362). -/
def reqTransit (d : Device) (n : Fin 8) (c : LyCell) : Device :=
  let count := leGet c.pay 6 2
  let slot := leGet c.pay 8 2
  match routeAddr d c.dst with
  | none => nakReq d n c 1
  | some (l, _) =>
    if 16 < c.hops + 1 then nakReq d n c 1
    else
      match freeBlock d l count with
      | none => nakReq d n c 2
      | some s =>
        if 2048 ≤ d.fab.recs.length then nakReq d n c 7
        else
          let r : RunRec := ⟨c.orig, c.oepoch, leGet c.pay 0 1, c.dst, n.val, slot, some (l.val, s), count, leGet c.pay 4 2, c.hops⟩
          let d := { d with fab := { d.fab with recs := d.fab.recs ++ [r] } }
          let d := mapRun d l s count (fun i => slot + i + 2 ^ 12 * n.val + 2 * 2 ^ 18)
          sendCell d l { c with pay := c.pay.take 8 ++ leBytes s 2 ++ c.pay.drop 10 }

/-- A RUN_REQ at its destination (R363). -/
def reqArrive (d : Device) (n : Fin 8) (c : LyCell) : Device :=
  let count := leGet c.pay 6 2
  let slot := leGet c.pay 8 2
  let dchan := leGet c.pay 4 2
  if d.fab.recs.any (fun r => decide (r.out = none) && decide (r.dchan < dchan + count) && decide (dchan < r.dchan + r.count)) then
    nakReq d n c 3
  else
    let r : RunRec := ⟨c.orig, c.oepoch, leGet c.pay 0 1, c.dst, n.val, slot, none, count, dchan, c.hops⟩
    let d := { d with fab := { d.fab with recs := d.fab.recs ++ [r] } }
    let d := mapRun d n (4096 + slot) count (fun i => dchan + i + 2 ^ 16)
    sendCell d n (mkCell d 6 c.orig 0 [leGet c.pay 0 1, c.hops])

/-- RUN_REQ. -/
def runReqAct (d : Device) (n : Fin 8) (c : LyCell) : Device :=
  if c.dst = ownAddr d then reqArrive d n c else reqTransit d n c

/-- The record a cell that came by a link names: of an origin address and run, downstream of this node. -/
def recDown (d : Device) (n : Fin 8) (orig run : Nat) : Option RunRec :=
  d.fab.recs.find? (fun r => decide (r.orig = orig) && decide (r.run = run) && decide (r.out.map (·.1) = some n.val))

/-- RUN_ACK (R363, R364). -/
def runAckAct (d : Device) (n : Fin 8) (c : LyCell) : Device :=
  let r := leGet c.pay 0 1
  if c.dst = ownAddr d then
    if (ownRun d r).st = 1 then raiseEv (putRun d r { ownRun d r with st := 2, reason := 0, hops := leGet c.pay 1 1 }) 0x1A1
    else d
  else
    match recDown d n c.dst r with
    | none => d
    | some x => sendCell d (lkNo x.inLink) c

/-- The reason of a received cell: a reserved one counts as LINKDOWN. -/
def reasonOf (c : LyCell) : Nat := if 9 ≤ leGet c.pay 1 1 then 5 else leGet c.pay 1 1

/-- RUN_NAK (R364). -/
def runNakAct (d : Device) (n : Fin 8) (c : LyCell) : Device :=
  let r := leGet c.pay 0 1
  if c.dst = ownAddr d then
    if runHolds (ownRun d r) then runFail d r (reasonOf c) (leGet c.pay 2 1) else d
  else
    match recDown d n c.dst r with
    | none => d
    | some x => sendCell (releaseRec d x) (lkNo x.inLink) c

/-- RUN_TEAR (R364). -/
def runTearAct (d : Device) (n : Fin 8) (c : LyCell) : Device :=
  let r := leGet c.pay 0 1
  match d.fab.recs.find? (fun x => decide (x.orig = leGet c.pay 2 2) && decide (x.epoch = leGet c.pay 4 2)
      && decide (x.run = r) && decide (x.inLink = n.val)) with
  | none => d
  | some x =>
    let d := releaseRec d x
    match x.out with
    | none => d
    | some (l, _) => sendCell d (lkNo l) c

/-- The words of a USER cell as a queue holds them (R366). -/
def userWords (c : LyCell) : List TWord :=
  ⟨BitVec.ofNat 32 (c.orig % 2 ^ 10 + 2 ^ 16 * c.len), .int⟩ ::
    (List.range 6).map (fun k => ⟨BitVec.ofNat 32 (leGet c.pay (4 * k) 4), .int⟩)

/-- A USER cell pushed into RXQ. -/
def userPush (d : Device) (c : LyCell) : Device :=
  let q := getF d (F.S_FAB.UQ.RXQ 0xFF)
  if q = 0 then d else quePushItem d (queNo q) (userWords c)

/-- USER (R348, R366). -/
def userAct (d : Device) (n : Fin 8) (c : LyCell) : Device :=
  if c.dst = 0x3FF then (if cellNew d c then floodCell (userPush (noteSeen d c) c) (some n) c else d)
  else if c.dst = ownAddr d then userPush d c
  else routeCell d c

/-- One set of seven words from TXQ (R366). A cell to this node's own address has reached DST and is sent on no link (R347). -/
def userTake (d : Device) (q : Fin 256) : Device :=
  let r := quePops d q 7
  let w0 := (r.2.getD 0 (TWord.zero .int)).p.toNat
  let len := w0 / 2 ^ 16 % 32
  let dst := w0 % 2 ^ 10
  let bytes := (List.range 6).flatMap (fun k => leBytes (r.2.getD (k + 1) (TWord.zero .int)).p.toNat 4)
  if 24 < len ∨ w0 / 2 ^ 10 % 2 ^ 6 ≠ 0 ∨ w0 / 2 ^ 21 ≠ 0 then cellBad r.1
  else if dst = 0x3FF then originate r.1 9 0x3FF (bytes.take len)
  else if dst = ownAddr r.1 then userPush r.1 (mkCell r.1 9 dst 0 (bytes.take len))
  else routeCell r.1 (mkCell r.1 9 dst 0 (bytes.take len))

/-- The sets waiting in TXQ become cells, at most `fuel` of them. -/
def userSend (d : Device) : Nat → Device
  | 0 => d
  | fuel + 1 =>
    let q := getF d (F.S_FAB.UQ.TXQ 0xFF)
    if q = 0 ∨ (que d (queNo q)).words.length < 7 then d else userSend (userTake d (queNo q)) fuel

/-- The oldest cell received on a link is taken when it is of a type (R347, R351). -/
def takeCell (d : Device) (n : Fin 8) (ctype : Nat) (f : Device → LyCell → Device) : Device :=
  let x := lk d n
  match x.rxCells with
  | [] => d
  | c :: cs => if c.ctype = ctype then fabRefresh (f (setLk d n { x with rxCells := cs }) c) else d

/-- HELLO. -/
def helloCell (d : Device) (n : Fin 8) : Device := takeCell d n 1 (fun d c => helloAct d n c)

/-- A flooded cell: acted on and sent on when it is new (R348, R352). -/
def floodAct (d : Device) (n : Fin 8) (c : LyCell) (f : Device → Device) : Device :=
  passTomb d c (fun d => if cellNew d c then floodCell (f (noteSeen d c)) (some n) c else d)

/-- LSA. -/
def lsaCell (d : Device) (n : Fin 8) : Device := takeCell d n 2 (fun d c => floodAct d n c (fun d => lsaAct d c))

/-- CAPTAIN: one that does not match the choice is dropped (R358). -/
def captainCell (d : Device) (n : Fin 8) : Device :=
  takeCell d n 3 (fun d c =>
    if d.fab.choice = some (leGet c.pay 0 8) then floodAct d n c (fun d => captainAct d c)
    else passTomb d c (fun d => d))

/-- GRANT. -/
def grantCell (d : Device) (n : Fin 8) : Device := takeCell d n 4 (fun d c => floodAct d n c (fun d => grantAct d c))

/-- Whether a RUN_REQ waits on a link of lower number (R362). -/
def reqBefore (d : Device) (n : Fin 8) : Bool :=
  (List.finRange 8).any (fun m => decide (m < n) && (lk d m).rxCells.any (fun c => decide (c.ctype = 5)))

/-- RUN_REQ: those of links of lower number are served first (R362). -/
def runReqCell (d : Device) (n : Fin 8) : Device :=
  if reqBefore d n then d else takeCell d n 5 (fun d c => passTomb d c (fun d => runReqAct d n c))

/-- RUN_ACK. -/
def runAckCell (d : Device) (n : Fin 8) : Device := takeCell d n 6 (fun d c => runAckAct (noteAlive d c) n c)

/-- RUN_NAK. -/
def runNakCell (d : Device) (n : Fin 8) : Device := takeCell d n 7 (fun d c => runNakAct (noteAlive d c) n c)

/-- RUN_TEAR. -/
def runTearCell (d : Device) (n : Fin 8) : Device := takeCell d n 8 (fun d c => runTearAct (noteAlive d c) n c)

/-- USER. -/
def userCell (d : Device) (n : Fin 8) : Device := takeCell d n 9 (fun d c => passTomb d c (fun d => userAct d n c))

/-! ### Timed events of the node -/

/-- S_FAB.TIMERS.DEADINT. -/
def deadInt (d : Device) : Nat := getF d (F.S_FAB.TIMERS.DEADINT 0xFF)

/-- A frame of the fabric domain begins. -/
def fabTick (d : Device) : Device :=
  fabRefresh { d with fab := { d.fab with frame := d.fab.frame + 1, staleNow := false } }

/-- FAB_REJOIN, and every other join. -/
def fabRejoin (d : Device) : Device := join d

/-- ISOLATED_REJOIN (R350). -/
def isolatedRejoin (d : Device) : Device :=
  if anyFull d ∨ ¬ d.fab.held ∨ d.fab.rejoined ∨ d.fab.frame < d.fab.aloneAt + deadInt d then d
  else join { d with fab := { d.fab with rejoined := true } }

/-- ADJACENCY_DEAD (R354). -/
def adjacencyDead (d : Device) (n : Fin 8) : Device :=
  if adjFull d n ∧ (adj d n).accAt + deadInt d ≤ d.fab.frame then fabRefresh (adjDrop d n) else d

/-- HELLO_KEEPALIVE (R354). -/
def helloKeepalive (d : Device) (n : Fin 8) : Device :=
  if adjFull d n ∧ (adj d n).helloAt + getF d (F.S_FAB.TIMERS.HELLOINT 0xFF) ≤ d.fab.frame then sendHello d n else d

/-- TOMBSTONE_CREATE (R352): a node unreachable for DEADINT frames. -/
def tombCreate (d : Device) (uid : Nat) : Device :=
  match d.fab.db.find? (fun x => decide (x.uid = uid)) with
  | none => d
  | some x =>
    match x.lost with
    | none => d
    | some f =>
      if d.fab.frame < f + deadInt d then d
      else
        let addr := (x.p0.map (·.addr)).getD 0x3FF
        let d := tombEnd d uid
        let d := { d with fab := { d.fab with
          tombs := d.fab.tombs ++ [⟨uid, x.epoch, d.fab.frame, addr⟩]
          db := d.fab.db.filter (fun y => decide (y.uid ≠ uid)) } }
        fabRefresh (dbTouch (nodeGone d addr x.epoch))

/-- TOMBSTONE_EXPIRY (R352). -/
def tombExpire (d : Device) (uid : Nat) : Device :=
  match tombOf d uid with
  | none => d
  | some t => if t.at_ + getF d (F.S_FAB.TOMB.FRAMES 0xFF) ≤ d.fab.frame then tombEnd d uid else d

/-- LSA_REFLOOD (R349). -/
def lsaReflood (d : Device) : Device :=
  if d.fab.frame < d.fab.refloodAt + 65536 then d
  else
    let d := { d with fab := { d.fab with refloodAt := d.fab.frame } }
    let d := originate d 2 0x3FF (part0Bytes d (ownPart0 d))
    (List.finRange 8).foldl (fun d n => originate d 2 0x3FF (partBytes d n)) d

/-- FABRIC_GATE_OPEN (R369). -/
def fabGateOpen (d : Device) : Device :=
  if getB d F.FAB_STAT.GATED ∧ getB d F.TIME_STAT.LOCKED ∧ (isCapt d ∨ d.fab.tup.isSome) then
    fadeInAll (setB d F.FAB_STAT.GATED false)
  else d

/-! ### Run commands (R361) -/

/-- Whether channels overlap those of another run of this node that is not IDLE or FAILED. -/
def chanBusy (d : Device) (r ochan count : Nat) : Bool :=
  d.fab.runs.any (fun e => decide (e.1 ≠ r) && runHolds e.2 && decide (e.2.ochan < ochan + count) && decide (ochan < e.2.ochan + e.2.count))

/-- An accepted SETUP. -/
def runStart (d : Device) (r dst ochan dchan count : Nat) : Device :=
  match routeAddr d dst with
  | none => raiseEv (putRun d r ⟨3, 1, 0, dst, ochan, count, 0, 0, 0⟩) 0x1A1
  | some (n, _) =>
    match freeBlock d n count with
    | none => raiseEv (putRun d r ⟨3, 2, 0, dst, ochan, count, 0, 0, 0⟩) 0x1A1
    | some s =>
      let d := mapRun d n s count (fun i => ochan + i + 2 ^ 18)
      let d := putRun d r ⟨1, 0, 0, dst, ochan, count, n.val, s, d.fab.frame⟩
      sendCell d n (mkCell d 5 dst 0 ([r, 0] ++ leBytes ochan 2 ++ leBytes dchan 2 ++ leBytes count 2 ++ leBytes s 2))

/-- The write of FAB_RUNCMD's high half completes a command `v` (R361). -/
def runCommand (d : Device) (q : Req) (addr v : Nat) : Device :=
  let r := bitsOf v 0 8
  let dst := bitsOf v 8 10
  let ochan := bitsOf v 18 14
  let dchan := bitsOf v 32 14
  let count := bitsOf v 46 9
  match bitsOf v 56 2 with
  | 1 =>
    if count = 0 ∨ 256 < count ∨ dst = ownAddr d ∨ 0x3FE ≤ dst then rejectReq d 0x09 q addr
    else if 16384 < ochan + count ∨ 16384 < dchan + count then rejectReq d 0x01 q addr
    else if runHolds (ownRun d r) then rejectReq d 0x11 q addr
    else if ownAddr d = 0x3FF ∨ chanBusy d r ochan count then rejectReq d 0x0A q addr
    else fabRefresh (runStart d r dst ochan dchan count)
  | 2 =>
    if runHolds (ownRun d r) then
      let x := ownRun d r
      fabRefresh (putRun (releaseOwn (sendTear d r 0) x) r { x with st := 0, reason := 0, hops := 0 })
    else d
  | 3 => ignored d
  | _ => d

/-- RUN_TIMEOUT (R364). -/
def runTimeout (d : Device) (r : Nat) : Device :=
  let x := ownRun d r
  if x.st = 1 ∧ x.at_ + 1024 ≤ d.fab.frame then fabRefresh (runFail (sendTear d r 4) r 4 0) else d

/-- FAB_RUNSTAT as it reads. -/
def runStatWord (d : Device) : Nat :=
  let x := ownRun d (getF d F.FAB_RUNSEL.RUN)
  x.st + 16 * x.reason + 2 ^ 8 * (x.hops % 32)

/-- FAB_ROUTE as it reads. -/
def routeWord (d : Device) : Nat :=
  match routeAddr d (getF d F.FAB_ROUTEIDX.DST) with
  | none => 0
  | some (n, h) => n.val + 8 + 16 * h

end Sys2Proof.Machine
end

