-- ==== Sys2Proof/Machine/RegionRules.lean ====
section
/-! DEFINITION. Structure records: the CRC (R59), the field blocks and table targets of each region class (R61, R62, R79),
the rules of field values and table payloads (R87 check 12), and the dependency rules of a resumption (R72). -/

namespace Sys2Proof.Machine

/-! ### CRC (R59) -/

/-- `n` bits of the reflected CRC-32. -/
def crcBits : Nat → Word → Word
  | 0, c => c
  | n + 1, c => crcBits n (if c.getLsbD 0 then (c >>> 1) ^^^ 0xEDB88320 else c >>> 1)

/-- One word, its bytes in address order. -/
def crcWord (c w : Word) : Word := crcBits 32 (c ^^^ w)

/-- A running CRC over words. -/
def crcRun (c : Word) (ws : List Word) : Word := ws.foldl crcWord c

/-- The CRC of R59 over words. -/
def crcOf (ws : List Word) : Word := ~~~ (crcRun crcInit ws)

/-! ### Rejection codes (R89) -/

def Rej.lenOver : Nat := 0x01
def Rej.absent : Nat := 0x02
def Rej.recCrc : Nat := 0x03
def Rej.type : Nat := 0x04
def Rej.hdr : Nat := 0x05
def Rej.region : Nat := 0x06
def Rej.target : Nat := 0x07
def Rej.align : Nat := 0x08
def Rej.field : Nat := 0x09
def Rej.depend : Nat := 0x0A
def Rej.notQuiesced : Nat := 0x0B
def Rej.commitFull : Nat := 0x0C
def Rej.tierFit : Nat := 0x0D
def Rej.schedule : Nat := 0x0E
def Rej.imageCrc : Nat := 0x0F
def Rej.stream : Nat := 0x10
def Rej.busy : Nat := 0x11
def Rej.resource : Nat := 0x12
def Rej.route : Nat := 0x13
def Rej.frame : Nat := 0x14

/-! ### Field blocks -/

/-- The device address of word `w` of a region's field block. -/
def srsAddr (r w : Nat) : Nat := 0x1F000000 + 0x1000 * r + 4 * w

/-- S_RGN_SIZE.WORDS by class. -/
def classSize (c : Nat) : Nat :=
  match c with
  | 1 => 160
  | 5 => 16
  | 6 => 1008
  | 7 => 544
  | 8 => 64
  | 11 => 544
  | 15 => 132
  | _ => 32

/-- The defined bits of the first word of a class's own fields, and of the others up to word 0x1F. -/
def lowMask (c w : Nat) : Nat :=
  match c, w with
  | 0, 0x10 => 0xFFFF
  | 0, 0x11 => 0xFFFF
  | 0, 0x12 => 0xFFFF
  | 0, 0x13 => 0xFFFF
  | 0, 0x14 => 0x3FFFFFFF
  | 0, 0x15 => 0xFFFF
  | 0, 0x16 => 3
  | 1, 0x10 => 0x7F07
  | 2, 0x10 => 0xFFFFFF
  | 2, 0x11 => 0x3FF0007
  | 2, 0x12 => 0xFFFFFFFF
  | 2, 0x13 => 0xFFFFFFFF
  | 2, 0x14 => 0x7FF
  | 2, 0x15 => 0xFFFFFFFF
  | 2, 0x16 => 0xFFFF
  | 3, 0x10 => 0xFF3F
  | 3, 0x11 => 0xFFF
  | 3, 0x12 => 0xFFFF
  | 4, 0x10 => 0x3F7F01FF
  | 6, 0x16 => 0x1FF
  | 6, 0x17 => 0
  | 6, _ => if w < 0x16 then 0xFFFFFFFF else 0x3FFFF
  | 8, 0x10 => 0xFFFF
  | 8, 0x11 => 0x3FF
  | 8, 0x12 => 0x03FF0003
  | 9, 0x10 => 0xFFFF000F
  | 9, 0x11 => 0xFFFFFF
  | 11, 0x10 => 1
  | _, _ => 0

/-- The defined bits of word `w` of a class's field block; the others are reserved. -/
def wordMask (c w : Nat) : Nat :=
  if w = 3 then 0x33F01
  else if w < 0x10 then 0
  else
    match c with
    | 1 => if 0x20 ≤ w then 0xFFFFFFFF else lowMask c w
    | 6 => if w < 0x20 then lowMask c w else if w < 0x120 then 0xFFFFFFFF else if w % 2 = 0 then 0x7FFF7FFF else 0x7FFF
    | 7 => if w < 0x20 then 0 else if w % 2 = 0 then 0x1FFF7FFF else 0x1FFF
    | 8 =>
      if w < 0x14 then lowMask c w
      else if w < 0x1A then 0xFFFFF1FF
      else if w < 0x1E then 0xFFFFFFFF
      else if w < 0x26 then (if w % 2 = 0 then 0xFFFFFF07 else 0x7FFFF)
      else 0
    | 9 => if w < 0x12 then lowMask c w else if w < 0x1B then 0xFFFFFFFF else 0
    | 10 => if w < 0x20 then (if w % 2 = 0 then 0x1F1F1F07 else 0x1F1F07) else 0
    | 11 => if w < 0x20 then lowMask c w else 0x0FFFFFFF
    | 15 => if w = 0x80 then 0x7FFFFF else if w = 0x81 then 0xFFFFF else if w = 0x82 then 0xFFFFFF
        else if w = 0x83 then 0xFFFF else 0
    | _ => lowMask c w

/-- FIELD unless a condition holds. -/
def need (b : Bool) (code : Nat := Rej.field) : List Nat := if b then [] else [code]

/-- An engine region's word (R162). -/
def engRule (w v : Nat) : List Nat :=
  if w < 0x14 then need (decide (v ≤ 37484))
  else if w = 0x14 then
    let b := v % 2 ^ 16
    let s := v / 2 ^ 16
    need (decide (b % 16 = 0 ∧ s % 16 = 0 ∧ s ≤ 8192)) ++ need (decide (b + s ≤ 49152)) Rej.lenOver
  else if w = 0x15 then need (decide (v % 128 = 0 ∧ v ≤ 49024))
  else []

/-- A bank group's word: the period, and the slot entries below it (S_DLY). -/
def dlyRule (d : Device) (g : Nat → Nat) (w v : Nat) : List Nat :=
  if w = 0x10 then need (decide (1 ≤ v / 2 ^ 8 ∧ v / 2 ^ 8 ≤ 64))
  else if w < 0x20 then []
  else (List.range 4).flatMap (fun j =>
    let b := v / 2 ^ (8 * j) % 2 ^ 8
    if g 0x10 / 2 ^ 8 ≤ (4 * (w - 0x20) + j) % 64 ∨ b = 0 then []
    else if b < 0x80 then [Rej.field]
    else need (decide (b % 64 < engCount d)) Rej.absent)

/-- A serial audio port's word: the formats and slot enables (S_SAP). -/
def sapRule (g : Nat → Nat) (w v : Nat) : List Nat :=
  let f := g 0x10
  let ns := f / 4 % 64
  let enables := need (decide (g 0x12 < 2 ^ ns ∧ g 0x13 < 2 ^ ns))
  match w with
  | 0x10 =>
    let sw := f / 2 ^ 8 % 64
    need (decide (f % 4 ≠ 3))
      ++ need (decide (if f % 4 = 2 then 2 ≤ ns ∧ ns ≤ 32 else ns = 2 ∧ f / 2 ^ 20 % 4 = 0))
      ++ need (decide (sw = 16 ∨ sw = 24 ∨ sw = 32))
      ++ need (decide (16 ≤ f / 2 ^ 14 % 64 ∧ f / 2 ^ 14 % 64 ≤ sw)) ++ enables
  | 0x11 => need (decide (v / 2 % 4 ≠ 3))
  | 0x12 => enables
  | 0x13 => enables
  | 0x14 => need (decide (v % 4 ≠ 3))
  | 0x15 => need (decide (v ≠ 0))
  | _ => []

/-- A route graph word (S_ROUTE). -/
def routeRule (d : Device) (w v : Nat) : List Nat :=
  if w = 0x10 then need (decide (v % 2 ^ 16 ≠ 0))
  else if w = 0x16 then need (decide (v ≤ 360)) Rej.lenOver
  else if w < 0x18 then []
  else if w < 0x20 then need (decide (v % 2 ^ 16 ≠ 0 ∧ v / 2 ^ 16 < 2))
  else if w < 0x120 then need (decide (v = 0 ∨ (w - 0x20) / 4 < engCount d)) Rej.absent
  else if w % 2 = 0 then []
  else need (decide (v ≤ 16384))

/-- A queue map word (R91, R390). -/
def queRule (g : Nat → Nat) (w v : Nat) : List Nat :=
  if w = 0x20 ∨ w = 0x21 then [Rej.field]
  else if w < 0x20 then []
  else if w % 2 = 0 then
    let s := g w / 2 ^ 16
    need (decide (s % 16 = 0 ∧ s ≤ 4096)) ++ need (decide (s = 0 ∨ 16 * (g w % 2 ^ 15) + 2 * s - 1 ≤ 516095)) Rej.lenOver
  else need (decide (v ≤ 4096))

/-- A clock and rate domains word (S_CLK). -/
def clkRule (w v : Nat) : List Nat :=
  if w = 0x10 then need (decide (10000 ≤ v ∧ v ≤ 50000))
  else if w = 0x11 then need (decide (200 ≤ v ∧ v ≤ 800))
  else if w = 0x12 then need (decide (v / 2 ^ 16 ≤ 1000))
  else if w < 0x14 then []
  else if w < 0x1A then need (decide (1 ≤ v / 2 ^ 12 % 2 ^ 8 ∧ 16 ≤ v / 2 ^ 20))
  else if w < 0x1E then need (decide (v = 0 ∨ (2000000000 ≤ v ∧ v ≤ 4000000000)))
  else if w < 0x26 then
    if w % 2 = 0 then need (decide (8 ≤ v / 2 ^ 8 % 2 ^ 8 ∧ 64 ≤ v / 2 ^ 16))
    else need (decide (32000 ≤ v ∧ v ≤ 384000))
  else []

/-- Sixteen 2-bit values that do not increase with the level. -/
def nonIncreasing (v : Nat) : Bool :=
  (List.range 15).all (fun l => decide (v / 4 ^ (l + 1) % 4 ≤ v / 4 ^ l % 4))

/-- A Coach tier map word (S_COACH). -/
def coachRule (d : Device) (w v : Nat) : List Nat :=
  if w = 0x10 then need (decide (v / 2 ^ 16 ≠ 0))
  else if w = 0x11 then need (decide (40 ≤ v % 2 ^ 8 ∧ v % 2 ^ 8 ≤ 125 ∧ v / 2 ^ 8 % 16 ≠ 0))
  else if w = 0x12 then need (nonIncreasing v)
  else if w < 0x1B then
    need (nonIncreasing v) ++ need (decide (v = 0 ∨ 8 * (w - 0x13) < engCount d)) Rej.absent
  else []

/-- An ASRC word (R47, R274): the channels in use, a port side's port present, and the port sides' slots over the unit as the
record leaves it. -/
def asrcRule (d : Device) (g : Nat → Nat) (w : Nat) : List Nat :=
  if 0x10 ≤ w ∧ w < 0x20 then
    let i := g (w / 2 * 2)
    let o := g (w / 2 * 2 + 1)
    let n := i / 2 ^ 24 % 32
    let fits := fun x : Nat => x % 2 = 0 || decide (x / 2 ^ 16 % 32 + n ≤ 32)
    need (decide (n ≤ 16)) ++ need (fits i && fits o) Rej.lenOver
      ++ need (decide (g w % 2 = 0 ∨ g w / 2 ^ 8 % 32 < sapCount d)) Rej.absent
  else []

/-- A global region's word (S_FAB). -/
def fabRule (w v : Nat) : List Nat :=
  if w = 0x80 then need (decide (v / 2 ^ 8 % 2 ^ 10 ≠ 0x3FE ∧ v / 2 ^ 18 % 8 ≤ 3))
  else if w = 0x81 then need (decide (v % 2 ^ 8 ≠ 0 ∧ 16 ≤ v / 2 ^ 8))
  else if w = 0x82 then need (decide (v ≠ 0))
  else []

/-- The codes that word `w` of a class's field block earns with value `v` (R87 checks 7, 9 and 12); `g` gives the words
of the region as the record leaves it. -/
def wordCodes (d : Device) (c : Nat) (g : Nat → Nat) (w v : Nat) : List Nat :=
  need (decide ((0x10 ≤ w ∨ w = 3) ∧ Nat.land v (wordMask c w) = v)) ++
  (if w < 0x10 then []
   else
    match c with
    | 0 => engRule w v
    | 1 => dlyRule d g w v
    | 2 => sapRule g w v
    | 3 => if w = 0x11 then need (decide (v % 16 ≤ 10 ∧ 4 ≤ v / 2 ^ 8)) else []
    | 4 => if w = 0x10 then need (decide (v % 2 ^ 9 ≤ 256 ∧ v / 2 ^ 16 % 2 ^ 7 ≤ 64 ∧ v / 2 ^ 24 ≤ 32)) else []
    | 6 => routeRule d w v
    | 7 => queRule g w v
    | 8 => clkRule w v
    | 9 => coachRule d w v
    | 10 => asrcRule d g w
    | 11 => if 0x20 ≤ w then need (decide (v = 0 ∨ evPresent d (w - 0x20) = true)) Rej.absent else []
    | 15 => fabRule w v
    | _ => [])

/-- Where a code stands in the order of R87. -/
def codeRank (c : Nat) : Nat :=
  if c = Rej.stream then 1
  else if c = Rej.type then 4
  else if c = Rej.hdr then 5
  else if c = Rej.region then 6
  else if c = Rej.absent then 7
  else if c = Rej.target then 8
  else if c = Rej.lenOver then 9
  else if c = Rej.align then 10
  else if c = Rej.notQuiesced then 11
  else if c = Rej.depend then 11
  else 12

/-- The code of the lowest-numbered failing check. -/
def firstCode : List Nat → Option Nat
  | [] => none
  | c :: cs =>
    match firstCode cs with
    | none => some c
    | some e => if codeRank c ≤ codeRank e then some c else some e

/-- The words of a region as a record over words `o` to `o + vs.length - 1` leaves it: a region whose reset is due
starts from its reset values, its policy apart (R80). -/
def wordsAfter (d : Device) (r o : Nat) (vs : List Nat) (w : Nat) : Nat :=
  if o ≤ w ∧ w < o + vs.length then vs.getD (w - o) 0
  else if (rgn d r).resetDue ∧ 0x10 ≤ w then srsReset (srsAddr r w)
  else (reg d (srsAddr r w)).toNat

/-- The codes of a record's words in a region's field block. -/
def blockCodes (d : Device) (r c o : Nat) (vs : List Nat) : List Nat :=
  (vs.zip (List.range vs.length)).flatMap (fun e => wordCodes d c (wordsAfter d r o vs) (o + e.2) e.1)

/-! ### Table targets (R62) -/

/-- A table target: its size in words, whether it is tagged storage, whether a record may write it while the region
runs, and whether R64 handles it as a shadow bank. -/
structure Target62 where
  size : Nat
  tagged : Bool
  running : Bool
  shadow : Bool
  deriving DecidableEq, Repr

/-- The target a selector names in a region for a PROGRAM record or another type (R60, R62). -/
def targetFor (d : Device) (r c : Nat) (program : Bool) (sel : Nat) : Option Target62 :=
  match c, program, sel with
  | 0, true, 1 => some ⟨16384, false, true, true⟩
  | 0, true, 2 => some ⟨16384, false, false, false⟩
  | 0, false, 1 => some ⟨49152, true, false, false⟩
  | 0, false, 2 => some ⟨getF d (F.S_ENG.COEFWIN.SIZE r), true, true, true⟩
  | 1, false, 1 => some ⟨1048576, true, false, false⟩
  | 5, false, 1 => some ⟨512, false, true, true⟩
  | 5, false, 2 => some ⟨4096, true, true, true⟩
  | 8, false, s =>
    if 1 ≤ s ∧ s ≤ 6 then
      some ⟨64, false, decide (3 ≤ s) && pllIdle d (s - 3), decide (3 ≤ s) && decide (Regions.eff d.regions r = .running)⟩
    else none
  | _, _, _ => none

/-- Whether a Spin operation uses its constants: C0 and C1 (R222, R223). -/
def spinUses (op : Nat) : Bool × Bool :=
  if op = 0x05 ∨ op = 0x0D ∨ op = 0x10 ∨ op = 0x11 ∨ op = 0x14 ∨ op = 0x15 ∨ op = 0x16 ∨ op = 0x19 ∨ op = 0x1A then
    (true, true)
  else if op = 0 ∨ op = 0x09 ∨ op = 0x0A ∨ op = 0x13 ∨ op = 0x17 ∨ op = 0x18 ∨ 0x1B ≤ op then (false, false)
  else (true, false)

/-- Whether a stage's constants keep its operation's rules (R220, R222, R223): bits it does not use are 0. -/
def spinConstsOk (op c0 c1 : Nat) : Bool :=
  let u := spinUses op
  if op = 0x06 ∨ op = 0x07 ∨ op = 0x08 then decide (c0 < 2 ^ 8) && decide (c1 = 0)
  else if op = 0x0D then decide ((BitVec.ofNat 32 c0).toInt ≤ (BitVec.ofNat 32 c1).toInt)
  else if op = 0x10 ∨ op = 0x11 then decide (c1 < 32)
  else if op = 0x19 ∨ op = 0x1A then decide (c0 < 32 ∧ 1 ≤ c1 ∧ c1 ≤ 32)
  else (u.1 || decide (c0 = 0)) && (u.2 || decide (c1 = 0))

/-- Whether word `i` of a Spin program keeps R220 and R222 in the program whose 64 words are `g`: a word of an active stage
is judged with the two others of its stage, one of an inactive stage is not. -/
def spinWordOk (g : Nat → Nat) (i : Nat) : Bool :=
  if i = 0 then decide (g 0 ≤ 16)
  else if i < 4 ∨ 52 ≤ i then decide (g i = 0)
  else
    let j := (i - 4) / 3
    decide (g 0 % 32 ≤ j)
      || (decide (g (4 + 3 * j) < 64) && spinConstsOk (g (4 + 3 * j) % 32) (g (5 + 3 * j)) (g (6 + 3 * j)))

/-- Whether a band table word keeps R296. -/
def bandWordOk (v : Nat) : Bool :=
  decide (v = 0) || (decide (v < 2 ^ 24) && decide (v % 2 ^ 12 < v / 2 ^ 12))

/-! ### The PLL defaults block of the secure partition (R297) -/

/-- A word of the secure partition as the latest reset sequence read it, by byte offset. -/
def secAt (d : Device) (o : Nat) : Nat := (sparseGet wordZero d.partAt (o / 4)).toNat

/-- Consecutive words of the partition as read at reset. -/
def secWords (d : Device) (o n : Nat) : List Word := (List.range n).map (fun i => BitVec.ofNat 32 (secAt d (o + 4 * i)))

/-- Whether the PLL defaults block passes MAGIC, CRC and every value range. -/
def pllBlockOk (d : Device) : Bool :=
  decide (secAt d 0x8000 = 0x504C0001)
    && decide ((crcOf (secWords d 0x8000 3 ++ secWords d 0x8010 384)).toNat = secAt d 0x800C)
    && decide (clkRule 0x10 (secAt d 0x8004) = [] ∧ clkRule 0x11 (secAt d 0x8008) = [])
    && (List.range 384).all (fun i => bandWordOk (secAt d (0x8010 + 4 * i)))

/-- The reset values of S_CLK.REF and S_CLK.CTRL by their offset. -/
def clkDefault (d : Device) (o : Nat) : Nat :=
  if pllBlockOk d then secAt d (if o = 0x40 then 0x8004 else 0x8008) else if o = 0x40 then 25000 else 400

/-! ### Dependency rules of a resumption (R72) -/

/-- The device as the resumptions of a COMMIT would bring it about: the regions resumed, and those already PENDING, run. -/
def asResumed (d : Device) (rl : List Nat) : Device :=
  let regions := d.regions.map (fun e => if e.2.st = .pending then (e.1, { e.2 with st := .running }) else e)
  rl.foldl (fun d r => setRgn d r { rgn d r with st := .running }) { d with regions := regions }

/-- Whether a region is RUNNING or PENDING, or is being resumed, in a device so brought about: one that is QUIESCING is
not. -/
def inService (d : Device) (r : Nat) : Bool :=
  regionPresent d r && decide ((rgn d r).st = .running ∨ (rgn d r).st = .pending)

/-- An engine region's rally lengths. -/
def passlen (d : Device) (r t : Nat) : Nat := (reg d (srsAddr r (0x10 + t))).toNat % 2 ^ 16

/-- The budget of R160 for an engine region at an operating point, at a nominal rate. -/
def budgetAt (d : Device) (fs o : Nat) : Nat := budget d fs o

/-- R163's dependency conditions on an engine's own fields. -/
def engFieldsOk (d : Device) (r : Nat) : Bool :=
  let w := (reg d (srsAddr r 0x14)).toNat
  let b := w % 2 ^ 16
  let s := w / 2 ^ 16
  let io := (reg d (srsAddr r 0x15)).toNat
  decide (passlen d r 0 ≤ passlen d r 1 ∧ passlen d r 1 ≤ passlen d r 2 ∧ passlen d r 2 ≤ passlen d r 3)
    && (decide (passlen d r 0 ≠ 0) || decide (passlen d r 3 = 0))
    && (decide (s = 0) || decide (b + s ≤ io) || decide (io + 128 ≤ b))

/-- R163's tier conditions for an engine at a nominal rate and a floor operating point. -/
def engTierOk (d : Device) (r fs o : Nat) : Bool :=
  decide (passlen d r 0 ≤ budgetAt d fs o)
    && decide (passlen d r 1 ≤ budgetAt d fs 3 ∧ passlen d r 2 ≤ budgetAt d fs 3 ∧ passlen d r 3 ≤ budgetAt d fs 3)

/-- R448: the rally of the highest tier the Coach allows the engine's group fits at the present frequency. -/
def engCoachOk (d : Device) (r fs : Nat) : Bool :=
  decide (passlen d r (bitsOf (reg d Adr.COACH_GRP).toNat (2 * (r / 8)) 2) ≤ budgetAt d fs (getF d F.PWR_DVFSSTAT.FIDX))

/-- The slot schedule checks of R189 for engine role `n` against bank group `g`: the codes of those that fail. -/
def slotCode (d : Device) (g n : Nat) : List Nat :=
  let named := (List.range 8).any (fun j => (List.range (getF d (F.S_DLY.CTL.PERIOD (0x40 + g)))).any (fun e =>
    let v := slotEntry d ⟨(8 * g + j) % 128, by omega⟩ e
    decide (0x80 ≤ v ∧ v % 64 = n)))
  let k := getF d (F.S_DLY.CTL.DOMAIN (0x40 + g))
  if named then need (decide (k = (rgnDomain d n).val)) Rej.schedule ++ need (domConfigured d (dom k)) Rej.depend else []

/-- R214 for a Spin unit: the engines it serves that are in service are in its domain. -/
def spinDomOk (d : Device) (u : Nat) : Bool :=
  (List.range 4).all (fun j =>
    let n := 4 * u + j
    !inService d n || decide (rgnDomain d n = rgnDomain d (0x90 + u)))

/-- Whether some ASRC unit binds a port. -/
def asrcBinds (d : Device) (n : Nat) : Bool :=
  (List.range 8).any (fun u => [0, 4].any (fun side =>
    asrcPortSide d u side && decide (asrcPort d u side = n) && decide (asrcNch d u ≠ 0)))

/-- R257 for a port at a nominal rate of its domain. -/
def portOk (d : Device) (n fs : Nat) : Bool :=
  let k := rgnDomain d (0x50 + n)
  let bits := sapNslot d n * sapField d n 0x40 8 6
  let f := fs * bits
  let master := decide (sapField d n 0x44 0 1 = 1)
  let rxq := sapField d n 0x58 0 8
  let txq := sapField d n 0x58 8 8
  let hi := f * (10 ^ 6 + pullPpm d)
  domConfigured d k
    && decide (hi ≤ 49152000 * 10 ^ 6)
    && (!master || (decide (bits ≠ 0) && decide (fs * rateKdiv d k % Nat.max 1 f = 0)))
    && (!master || decide (sapField d n 0x44 16 10 + 8 ≤ bits))
    && (!master || lambdaOk d n fs (resCycles d k))
    && (decide (sapMode d n ≠ 2) || ((decide (rxq = 0) || queCreated d (queNo rxq)) && (decide (txq = 0) || queCreated d (queNo txq))))
    && (decide (sapMode d n ≠ 1) || asrcBinds d n)

/-- The nominal rate of a side of an ASRC unit. -/
def asrcRate (d : Device) (u side : Nat) : Nat :=
  rateFs d (if asrcPortSide d u side then rgnDomain d (0x50 + asrcPort d u side) else asrcDom d u side)

/-- R274 for the unit's two sides and the other units; a unit without channels binds no slot. -/
def asrcOk (d : Device) (u : Nat) : Bool :=
  let n := asrcNch d u
  let side := fun s : Nat =>
    !asrcPortSide d u s
      || (decide (sapMode d (asrcPort d u s) = 1) && decide (asrcFirst d u s + n ≤ sapNslot d (asrcPort d u s))
          && (List.range 8).all (fun v => decide (v = u) || !asrcPortSide d v s || decide (asrcPort d v s ≠ asrcPort d u s)
              || decide (n = 0 ∨ asrcNch d v = 0)
              || decide (asrcFirst d v s + asrcNch d v ≤ asrcFirst d u s) || decide (asrcFirst d u s + n ≤ asrcFirst d v s)))
  let i := asrcRate d u 0
  let o := asrcRate d u 4
  side 0 && side 4 && decide (i ≤ 8 * o ∧ o ≤ 8 * i)

/-- R274 for the units that bind a port. -/
def asrcPortOk (d : Device) (n : Nat) : Bool :=
  (List.range 8).all (fun u =>
    !((asrcPortSide d u 0 && decide (asrcPort d u 0 = n)) || (asrcPortSide d u 4 && decide (asrcPort d u 4 = n))) || asrcOk d u)

/-- A field of a link's region as records have written it. -/
def linkReg (d : Device) (n o lo len : Nat) : Nat := bitsOf (reg d (0x1F070000 + 0x1000 * n + o)).toNat lo len

/-- Whether another link is enabled (R324) and names a rate domain other than `k`: with the fields records have written where
it is in service after the resumptions, with those of its last resumption where it is QUIESCING or QUIESCED. -/
def linkElsewhere (d : Device) (m : Nat) (k : Fin 4) : Bool :=
  if inService d (0x70 + m) then decide (linkReg d m 0x40 0 1 = 1 ∧ linkReg d m 0x40 4 2 ≠ k.val)
  else linkServed d m && decide (linkField d m 0x40 0 1 = 1 ∧ linkField d m 0x40 4 2 ≠ k.val)

/-- The slot limit of R337 by fabric rate and slowest allowed rate. -/
def slotLimit (fs : Nat) (slow : Bool) : Nat := (if fs = 48000 then 4096 else if fs = 96000 then 2048 else 1024) / (if slow then 2 else 1)

/-- R337 for a link. -/
def linkOk (d : Device) (n : Nat) : Bool :=
  let k := dom (linkReg d n 0x40 4 2)
  let slow := decide (linkReg d n 0x40 2 1 = 1)
  let ngrp := linkReg d n 0x40 8 8
  decide (linkReg d n 0x40 0 1 = 0)
    || (decide (linkReg d n 0x40 1 2 ≠ 0) && domConfigured d k && decide (cellsAt (rateFs d k) ≠ 0)
      && (List.range 8).all (fun m => decide (m = n) || !linkElsewhere d m k)
      && decide (16 * (ngrp + 1) ≤ slotLimit (rateFs d k) slow)
      && lambdaLink d (rateFs d k) (resCycles d k) ngrp (linkReg d n 0x48 0 16) slow)

/-- The queues of the map that are created, with the words they occupy. -/
def queSpans (d : Device) : List (Nat × Nat × Nat) :=
  (List.range 255).filterMap (fun i =>
    let w := (reg d (0x1F0A1080 + 8 * (i + 1))).toNat
    let s := w / 2 ^ 16 % 2 ^ 13
    if s = 0 then none else some (i + 1, 16 * (w % 2 ^ 15), 2 * s))

/-- R390 for the queue map. -/
def queMapOk (d : Device) : Bool :=
  let l := queSpans d
  l.all (fun e => decide ((reg d (0x1F0A1084 + 8 * e.1)).toNat % 2 ^ 13 ≤ e.2.2)
    && l.all (fun f => decide (f.1 = e.1) || decide (e.2.1 + e.2.2 ≤ f.2.1) || decide (f.2.1 + f.2.2 ≤ e.2.1)))

/-- A word of region 0x0A2 as records have written it. -/
def clkReg (d : Device) (o : Nat) : Nat := (reg d (0x1F0A2000 + o)).toNat

/-- R301 for the clock and rate domains. -/
def clkOk (d : Device) : Bool :=
  let fhz := fun m : Nat => clkReg d (0x68 + 4 * (m % 4))
  decide (fhz (clkReg d 0x48 % 4) ≠ 0) && (List.range 4).all (fun k =>
    let w := clkReg d (0x78 + 8 * k)
    let f := fhz (w / 2 % 4)
    let mdiv := w / 2 ^ 8 % 2 ^ 8
    decide (w % 2 = 0) || (decide (f ≠ 0) && decide (clkReg d (0x7C + 8 * k) % 2 ^ 19 * mdiv * (w / 2 ^ 16) = f)
      && decide (f ≤ 196608000 * mdiv)))

/-! ### The route graph's descriptors (R236) -/

/-- The row of R228 a source index lies in. -/
def srcRow (s : Nat) : Nat :=
  if s < 0x400 then 0 else if s < 0x1400 then 1 else if s < 0x1800 then 2 else if s < 0x1880 then 3
  else if s < 0x18C0 then 4 else if s < 0x4000 then 5 else if s < 0x8000 then 6 else 7

/-- The row of R231 a sink index lies in. -/
def sinkRow (x : Nat) : Nat :=
  if x < 0x1000 then 0 else if x < 0x2000 then 1 else if x < 0x2400 then 2 else if x < 0x2480 then 3
  else if x < 0x2880 then 4 else if x < 0x4000 then 5 else if x < 0x8000 then 6 else 7

/-- The descriptors in use, in order: sink, source and count. -/
def descriptors (d : Device) : List (Nat × Nat × Nat) :=
  (List.range (getF d (F.S_ROUTE.NDESC.COUNT 0xA0))).map (fun j =>
    let w := (reg d (0x1F0A0480 + 8 * j)).toNat
    (w % 2 ^ 15, w / 2 ^ 16 % 2 ^ 15, (reg d (0x1F0A0484 + 8 * j)).toNat % 2 ^ 15))

/-- Whether a descriptor's ranges lie inside single rows. -/
def descRows (e : Nat × Nat × Nat) : Bool :=
  decide (e.2.2 = 0) || (decide (sinkRow e.1 = sinkRow (e.1 + e.2.2 - 1)) && decide (srcRow e.2.1 = srcRow (e.2.1 + e.2.2 - 1)))

/-- The sinks with the selects the descriptors give them; every other sink takes 0x3FFF. -/
def descSinks (d : Device) : Sparse Sink :=
  (descriptors d).foldl (fun m e =>
    sparseFill (fun _ => Sink.reset) (fun x => { Sink.reset with sel := e.2.1 + (x - e.1) }) e.1 e.2.2 m) []

/-- Whether every select then in effect keeps R14 and R233; a sink that does not exist has no domain for R14 to judge. -/
def selectsLegal (d : Device) (among : Nat → Nat → Bool) : Bool :=
  d.sinks.all (fun e =>
    match sinkDom d e.1 with
    | none => !among e.1 e.2.sel || !asrcLoop e.1 e.2.sel
    | some k => !among e.1 e.2.sel || routeLegal d k e.1 e.2.sel)

/-- The region whose unit consumes a sink; none for a fabric channel. -/
def sinkRegion (x : Nat) : Option Nat :=
  match sinkRow x with
  | 0 => some (x / 64)
  | 1 => some (0x80 + (x - 0x1000) / 256)
  | 2 => some (0x50 + (x - 0x2000) / 32)
  | 3 => some 0xA4
  | 4 => some 0xA0
  | _ => none

/-- The region whose unit produces a source; none for the generators and the fabric. -/
def srcRegion (s : Nat) : Option Nat :=
  match srcRow s with
  | 0 => some (0x50 + s / 32)
  | 1 => some ((s - 0x400) / 64)
  | 2 => some (0x80 + (s - 0x1400) / 64)
  | 3 => some 0xA4
  | _ => none

/-- Whether the RES of every configured domain stays within R235, R266 and R337, where the resumptions raise it. -/
def resOk (before after : Device) : Bool :=
  (List.finRange 4).all (fun k =>
    !domConfigured after k || decide (resCycles after k ≤ resCycles before k)
      || (resFits after k && mastersOk after k && linksOk after k))

/-- The dependency codes of one region that a COMMIT would resume (R72, and the region's chapter): `d` is the device as
the resumptions would bring it about. -/
def resumeCodes (d : Device) (r : Nat) : List Nat :=
  match regionClass r with
  | some 0 =>
    let k := rgnDomain d r
    let fs := rateFs d k
    need (domConfigured d k && engFieldsOk d r) Rej.depend
      ++ need (engTierOk d r fs (floorOpp d) && engCoachOk d r fs) Rej.tierFit
      ++ (List.range (groupCount d)).flatMap (fun g => if inService d (0x40 + g) then slotCode d g r else [])
      ++ need (decide (spinCount d ≤ r / 4) || spinDomOk d (r / 4)) Rej.depend
      ++ need (!(getB d (F.ENG_HOLDER.VACANT r)) || getB d (F.S_ENG.CTL.BENCH r)) Rej.depend
  | some 1 =>
    (List.range (engCount d)).flatMap (fun n => slotCode d (r - 0x40) n)
  | some 2 => need (portOk d (r - 0x50) (rateFs d (rgnDomain d r)) && asrcPortOk d (r - 0x50)) Rej.depend
  | some 3 => need (linkOk d (r - 0x70)) Rej.depend
  | some 5 => need (spinDomOk d (r - 0x90)) Rej.depend
  | some 6 =>
    need ((descriptors d).all descRows) Rej.lenOver
      ++ need ((List.range 16).all (fun b =>
        let q := bitsOf (reg d (0x1F0A0048 + 4 * (b / 4))).toNat (8 * (b % 4)) 8
        !meterOn d b || decide (q = 0) || queCreated d (queNo q))) Rej.depend
  | some 7 => need (queMapOk d) Rej.depend
  | some 8 => need (clkOk d) Rej.depend
  | some 9 =>
    (List.range (engCount d)).flatMap (fun n =>
        need (!inService d n || decide (passlen d n 0 ≤ budgetAt d (rateFs d (rgnDomain d n)) (floorOpp d))) Rej.tierFit)
      ++ need ((List.finRange 4).all (fun k => !domConfigured d k || resFits d k)) Rej.route
      ++ (List.range 32).flatMap (fun n =>
        need (!inService d (0x50 + n) || portOk d n (rateFs d (rgnDomain d (0x50 + n)))) Rej.depend)
      ++ (List.range 8).flatMap (fun n => need (!inService d (0x70 + n) || linkOk d n) Rej.depend)
      ++ need (domConfigured d (dom (getF d (F.S_COACH.CTL.SETDOM 0xA3)))) Rej.depend
  | some 10 => (List.range 8).flatMap (fun u => need (asrcOk d u) Rej.depend)
  | some 15 =>
    need ([F.S_FAB.UQ.RXQ 0xFF, F.S_FAB.UQ.TXQ 0xFF].all (fun f => decide (getF d f = 0) || queCreated d (queNo (getF d f))))
      Rej.depend
  | _ => []

/-- Where a code of a COMMIT stands in R72's table. -/
def commitRank (c : Nat) : Nat :=
  if c = Rej.region then 0 else if c = Rej.absent then 1 else if c = Rej.depend then 2
  else if c = Rej.tierFit then 3 else if c = Rej.schedule then 4 else 5

/-- The code of the first row of R72's table that holds. -/
def firstCommitCode : List Nat → Option Nat
  | [] => none
  | c :: cs =>
    match firstCommitCode cs with
    | none => some c
    | some e => if commitRank c ≤ commitRank e then some c else some e

end Sys2Proof.Machine
end

