-- ==== Sys2Proof/Machine/Lyath.lean ====
section
/-! DEFINITION. The Lyath lane: 64B/66B blocks and their scrambler (R322, R323), training sets (R325), and the blocks of a
frame (R329 to R334). -/

namespace Sys2Proof.Machine

/-! ### The scrambler x^58 + x^39 + 1 (R322) -/

/-- A payload descrambled, and the last 58 bits of the lane after it, the oldest in bit 0: each bit is the sum of the received
bit and of those 39 and 58 before it. -/
def descramble (prev : BitVec 58) (w : BitVec 64) : BitVec 64 × BitVec 58 :=
  let lane := w.zeroExtend 122 <<< 58 ||| prev.zeroExtend 122
  (w ^^^ lane.extractLsb' 19 64 ^^^ lane.extractLsb' 0 64, lane.extractLsb' 64 58)

/-- A payload scrambled, and the last 58 bits of the lane after it. The first 39 bits depend on bits of the lane before the
payload only; those fix the bits 39 before the others. -/
def scramble (prev : BitVec 58) (w : BitVec 64) : BitVec 64 × BitVec 58 :=
  let first := w.extractLsb' 0 39 ^^^ prev.extractLsb' 19 39 ^^^ prev.extractLsb' 0 39
  let lane := first.zeroExtend 122 <<< 58 ||| prev.zeroExtend 122
  let rest := w.extractLsb' 39 25 ^^^ lane.extractLsb' 58 25 ^^^ lane.extractLsb' 39 25
  let s := rest.zeroExtend 64 <<< 39 ||| first.zeroExtend 64
  (s, (s.zeroExtend 122 <<< 58 ||| prev.zeroExtend 122).extractLsb' 64 58)

/-- A run of blocks as the lane carries it: sync headers are not scrambled. -/
def scrambleRun : BitVec 58 → List Block66 → List Block66
  | _, [] => []
  | s, b :: bs => ⟨b.hdr, (scramble s b.pay).1⟩ :: scrambleRun (scramble s b.pay).2 bs

/-! ### Blocks (R323) -/

/-- The block types of a link: a data block, an idle block, an ordered set with D1 to D3, a start block with D1 to D7 and a
terminate block with D0 to D6. -/
inductive LyBlock where
  | data (w : BitVec 64)
  | idle
  | oset (d : BitVec 24)
  | start (h : BitVec 56)
  | term (t : BitVec 56)
  deriving DecidableEq, Repr

/-- A block as sync header and payload, byte 0 being its type (R322, R323). -/
def LyBlock.code : LyBlock → Block66
  | .data w => ⟨0b01, w⟩
  | .idle => ⟨0b10, 0x1E⟩
  | .oset d => ⟨0b10, d.zeroExtend 64 <<< 8 ||| 0x4B⟩
  | .start h => ⟨0b10, h.zeroExtend 64 <<< 8 ||| 0x78⟩
  | .term t => ⟨0b10, t.zeroExtend 64 <<< 8 ||| 0xFF⟩

/-- The block a sync header and a payload are, none for a block error (R323). -/
def blockOf (b : Block66) : Option LyBlock :=
  let rest := b.pay.extractLsb' 8 56
  if b.hdr = 0b01 then some (.data b.pay)
  else if b.hdr ≠ 0b10 then none
  else
    match (b.pay.extractLsb' 0 8).toNat with
    | 0x1E => if rest = 0 then some .idle else none
    | 0x4B => if rest.extractLsb' 24 32 = 0 then some (.oset (rest.extractLsb' 0 24)) else none
    | 0x78 => some (.start rest)
    | 0xFF => some (.term rest)
    | _ => none

/-- A training set: TS1, or TS2, with RATES and NGRP (R325). -/
def trainingSet (ts2 : Bool) (rates ngrp : Nat) : LyBlock :=
  .oset (BitVec.ofNat 24 ((if ts2 then 0xA2 else 0xA1) + rates % 4 * 2 ^ 8 + ngrp % 256 * 2 ^ 16))

/-! ### Frames (R329 to R334) -/

/-- Some bits of a word. -/
def wordBits (w : BitVec 64) (lo len : Nat) : Nat := (w.extractLsb' lo len).toNat

/-- The frame header (R330). -/
def frameHead (f : LyFrame) : BitVec 56 :=
  BitVec.ofNat 56 (f.fver % 256 + f.src % 2 ^ 10 * 2 ^ 8 + f.epoch % 2 ^ 16 * 2 ^ 20 + f.fcnt % 2 ^ 20 * 2 ^ 36)

/-- The time block TB0, TB1 (R331). -/
def timeBlock (f : LyFrame) : List (BitVec 64) :=
  [BitVec.ofNat 64 f.txtod,
   BitVec.ofNat 64 (f.echo % 2 ^ 32 + f.echocnt % 2 ^ 20 * 2 ^ 32 + f.tdist % 2 ^ 8 * 2 ^ 52 + f.tstate % 4 * 2 ^ 60
     + f.tlock.toNat * 2 ^ 62)]

/-- Eight bytes as a data block. -/
def bytesBlock (bs : List Nat) : BitVec 64 := BitVec.ofNat 64 (bs.foldr (fun b v => b % 256 + 256 * v) 0)

/-- A cell as its blocks CB0 to CB3 (R332): payload bytes at and beyond LEN are 0. -/
def cellBlocks (c : LyCell) : List (BitVec 64) :=
  let pay := c.pay.take c.len ++ List.replicate 24 0
  [BitVec.ofNat 64 (c.ctype % 2 ^ 8 + c.dst % 2 ^ 10 * 2 ^ 8 + c.orig % 2 ^ 10 * 2 ^ 18 + c.hops % 2 ^ 5 * 2 ^ 28
     + c.oepoch % 2 ^ 16 * 2 ^ 36 + c.len % 2 ^ 5 * 2 ^ 52 + c.seq % 2 ^ 7 * 2 ^ 57),
   bytesBlock (pay.take 8), bytesBlock ((pay.drop 8).take 8), bytesBlock ((pay.drop 16).take 8)]

/-- The empty cell (R332). -/
def cellEmpty : LyCell := ⟨0, 0, 0, 0, 0, 0, 0, []⟩

/-- The cell in blocks CB0 to CB3 (R332). -/
def cellOfBlocks (bs : List (BitVec 64)) : LyCell :=
  let b := bs.getD 0 0
  let len := wordBits b 52 5
  ⟨wordBits b 0 8, wordBits b 8 10, wordBits b 18 10, wordBits b 28 5, wordBits b 36 16, len, wordBits b 57 7,
    (List.range (Nat.min len 24)).map (fun k => wordBits (bs.getD (1 + k / 8) 0) (8 * (k % 8)) 8)⟩

/-- The channel area of slots: slot s at bit 36s, in blocks of 64 bits (R333). -/
def slotBlocks (slots : List (BitVec 36)) : List (BitVec 64) :=
  let area := slots.foldr (fun w v => w.toNat + 2 ^ 36 * v) 0
  (List.range ((36 * slots.length + 63) / 64)).map (fun b => BitVec.ofNat 64 (area / 2 ^ (64 * b)))

/-- The slots of a channel area (R333). -/
def slotsOfBlocks (bs : List (BitVec 64)) : List (BitVec 36) :=
  let area := bs.foldr (fun w v => w.toNat + 2 ^ 64 * v) 0
  (List.range (64 * bs.length / 36)).map (fun s => BitVec.ofNat 36 (area / 2 ^ (36 * s)))

/-- The data blocks of a frame with `nc` cells (R329). -/
def frameData (nc : Nat) (f : LyFrame) : List (BitVec 64) :=
  timeBlock f ++ ((f.cells ++ List.replicate nc cellEmpty).take nc).flatMap cellBlocks ++ slotBlocks f.slots

/-- The frame check: the CRC of R59 over D1 to D7 of the start block and the bytes of the data blocks (R334). -/
def frameCrc (h : BitVec 56) (ds : List (BitVec 64)) : Word :=
  let c := crcBits 24 (crcWord crcInit (h.extractLsb' 0 32) ^^^ (h.extractLsb' 32 24).zeroExtend 32)
  ~~~ (ds.foldl (fun c w => crcWord (crcWord c (w.extractLsb' 0 32)) (w.extractLsb' 32 32)) c)

/-- The terminate block of a frame: the CRC and the number of data blocks (R334). -/
def termOf (h : BitVec 56) (ds : List (BitVec 64)) : BitVec 56 :=
  BitVec.ofNat 56 ((frameCrc h ds).toNat + ds.length % 2 ^ 16 * 2 ^ 32)

/-- The blocks of a frame with `nc` cells (R329). -/
def frameBlocks (nc : Nat) (f : LyFrame) : List LyBlock :=
  .start (frameHead f) :: (frameData nc f).map .data ++ [.term (termOf (frameHead f) (frameData nc f))]

/-- The frame of a start block, its data blocks and a terminate block (R329 to R334), with `nc` cells: it is intact when the CRC
matches and DBLK is the number of its data blocks. -/
def frameOf (nc : Nat) (h : BitVec 56) (ds : List (BitVec 64)) (t : BitVec 56) (rxtod : Nat) : LyFrame :=
  let hd := h.zeroExtend 64
  let tb := ds.getD 1 0
  let dblk := (t.extractLsb' 32 16).toNat
  { intact := decide (t.extractLsb' 0 32 = frameCrc h ds) && decide (dblk = ds.length)
    dblk := dblk
    fver := wordBits hd 0 8
    src := wordBits hd 8 10
    epoch := wordBits hd 20 16
    fcnt := wordBits hd 36 20
    txtod := (ds.getD 0 0).toNat
    echo := wordBits tb 0 32
    echocnt := wordBits tb 32 20
    tdist := wordBits tb 52 8
    tstate := wordBits tb 60 2
    tlock := tb.getLsbD 62
    cells := (List.range nc).map (fun c => cellOfBlocks ((ds.drop (2 + 4 * c)).take 4))
    slots := slotsOfBlocks (ds.drop (2 + 4 * nc))
    rxtod := rxtod }

end Sys2Proof.Machine
end

