-- ==== Sys2Proof/Machine/Link.lean ====
section
/-! DEFINITION. Lyath links (R322 to R345): training, slot maps, frames received and sent, delay and time. -/

namespace Sys2Proof.Machine

/-! ### Training (R324 to R328) -/

/-- The training state of a link. -/
def linkState (d : Device) (n : Fin 8) : Nat := getF d (F.LINK_STAT.STATE n.val)

/-- Whether a link is to train (R324). -/
def linkTrains (d : Device) (n : Fin 8) : Bool :=
  let s := Regions.eff d.regions (0x70 + n.val)
  decide (n.val < linkCount d) && decide (s = .running ∨ s = .quiescing ∨ s = .quiesced)
    && decide (linkField d n.val 0x40 0 1 = 1) && awake d

/-- What a link keeps when it enters a state. -/
def enterLink (x : LinkX) (st : Nat) : LinkX :=
  match st with
  | 0 => { x with lastSet := none, setRun := 0, reached := false }
  | 1 => { x with lastSet := none, setRun := 0, reached := false }
  | 4 => { x with lastSet := none, setRun := 0, reached := true }
  | 6 => { x with ts2rx := 0, ts2tx := 0 }
  | 7 => { x with delays := [], measured := 0, frames := [], arrived := false, content := [], echo := none, sent := [],
                  since := 3, rxOpen := none }
  | _ => x

/-- A link's state replaced, with the effects of entering and leaving UP (R328, R354). -/
def setLinkState (d : Device) (n : Fin 8) (st : Nat) : Device :=
  let was := decide (linkState d n = 7)
  let d := setF (setLk d n (enterLink (lk d n) st)) (F.LINK_STAT.STATE n.val) st
  if was ∧ st ≠ 7 then
    let d := setB (setB d (F.LINK_STAT.UP n.val) false) (F.LINK_STAT.DLYVALID n.val) false
    let d := setLk d n { lk d n with frames := [], arrived := false, content := [], rxCells := [], txCells := [], rxOpen := none }
    let d := adjDrop (raiseEv d (0x128 + n.val)) n
    fabRefresh (setAdj d n (droppedAdj (adj d n)))
  else if st = 7 ∧ ¬ was then
    raiseEv (setB (setF d (F.LINK_DELAY.DELAY n.val) 0) (F.LINK_STAT.UP n.val) true) (0x120 + n.val)
  else d

/-- A link starts DETECT at the highest rate it allows (R327). -/
def linkStart (d : Device) (n : Fin 8) : Device :=
  setB (setLinkState d n 1) (F.LINK_STAT.RATE n.val) (decide (linkField d n.val 0x40 1 1 = 0))

/-- A link that must not train is DISABLED, one that must leaves DISABLED (R324). -/
def linkSync (d : Device) (n : Fin 8) : Device :=
  if linkTrains d n then (if linkState d n = 0 then linkStart d n else d)
  else if linkState d n = 0 then d else setLinkState d n 0

/-- The training settings of a link: EN, R12G, R6 and NGRP (R338). -/
def trainSettings (d : Device) (n : Fin 8) : Nat × Nat := (linkField d n.val 0x40 0 3, linkField d n.val 0x40 8 8)

/-- DLYERR and its event once LINK_DELAY exceeds MAXDLY (R343). -/
def delayCheck (d : Device) (n : Fin 8) : Device :=
  if 10 * linkField d n.val 0x48 0 16 * 256 < getF d (F.LINK_DELAY.DELAY n.val) ∧ getB d (F.LINK_STAT.DLYERR n.val) = false then
    raiseEv (setB d (F.LINK_STAT.DLYERR n.val) true) (0x148 + n.val)
  else d

/-- A link's region resumes (R338): its fields take effect, and changed training settings restart it. -/
def linkResume (d : Device) (n : Fin 8) : Device :=
  let old := trainSettings d n
  let d := (List.range 3).foldl (fun d j =>
    let a := 0x1F070040 + 0x1000 * n.val + 4 * j
    { d with eff := sparsePut regReset d.eff a (reg d a) }) d
  let d := delayCheck d n
  if trainSettings d n ≠ old ∧ linkState d n ≠ 0 then
    linkSync (if linkTrains d n then linkStart d n else d) n
  else linkSync d n

/-- LINK_SIGNAL_DETECT. -/
def linkSignal (d : Device) (n : Fin 8) : Device := if linkState d n = 1 then setLinkState d n 2 else d

/-- CDR_LOCK. -/
def linkCdr (d : Device) (n : Fin 8) : Device := if linkState d n = 2 then setLinkState d n 3 else d

/-- BLOCK_LOCK. -/
def linkBlock (d : Device) (n : Fin 8) : Device := if linkState d n = 3 then setLinkState d n 4 else d

/-- The higher rate both ends allow, as LINK_STAT.RATE gives it (R326). -/
def commonRate (d : Device) (n : Fin 8) (rates : Nat) : Option Bool :=
  if linkField d n.val 0x40 1 1 = 1 ∧ rates / 2 % 2 = 1 then some false
  else if linkField d n.val 0x40 2 1 = 1 ∧ rates % 2 = 1 then some true
  else none

/-- Eight identical TS1 in EXCHANGE (R326). -/
def linkCompare (d : Device) (n : Fin 8) (rates ngrp : Nat) : Device :=
  match commonRate d n rates with
  | none => setB (setLinkState d n 8) (F.LINK_STAT.MISMATCH n.val) true
  | some slow =>
    if ngrp ≠ linkField d n.val 0x40 8 8 then setB (setLinkState d n 8) (F.LINK_STAT.MISMATCH n.val) true
    else if slow = getB d (F.LINK_STAT.RATE n.val) then setLinkState d n 6
    else
      let d := setLinkState d n 5
      setLk d n { lk d n with slow := slow }

/-- UP is entered once eight TS2 have been received and sixteen sent (R324). -/
def linkConfirm (d : Device) (n : Fin 8) : Device :=
  let x := lk d n
  if linkState d n = 6 ∧ 8 ≤ x.ts2rx ∧ 16 ≤ x.ts2tx then setLinkState d n 7 else d

/-- The open frame of a link, if any, fails: it ended early (R323, R345). -/
def frameCut (d : Device) (n : Fin 8) : Device :=
  match (lk d n).rxOpen with
  | none => d
  | some _ => raiseEv (incF (setLk d n { lk d n with rxOpen := none }) (F.LINK_ERR.CRC n.val)) (0x138 + n.val)

/-- A block error: the block is discarded and counted, and an open frame fails (R345). -/
def blockError (d : Device) (n : Fin 8) : Device := frameCut (incF d (F.LINK_ERR.BLK n.val)) n

/-- The training set a link sends (R324, R325). -/
def ownSet (d : Device) (n : Fin 8) : LyBlock :=
  trainingSet (decide (linkState d n = 6)) (linkField d n.val 0x40 2 1 + 2 * linkField d n.val 0x40 1 1)
    (linkField d n.val 0x40 8 8)

/-- TRAINING_SET_RX: one ordered set with its bytes D1 to D3 (R323, R325, R326). -/
def linkSet (d : Device) (n : Fin 8) (d1 d2 d3 : Nat) : Device :=
  let x := lk d n
  if linkState d n = 0 then d
  else if (d1 ≠ 0xA1 ∧ d1 ≠ 0xA2) ∨ 3 < d2 ∨ 255 < d3 then blockError d n
  else
    match linkState d n with
    | 4 =>
      let run := if d1 ≠ 0xA1 then 0 else if x.lastSet = some (d1, d2, d3) then x.setRun + 1 else 1
      let d := setLk d n { x with lastSet := some (d1, d2, d3), setRun := run }
      if 8 ≤ run then linkCompare d n d2 d3 else d
    | 6 => if d1 = 0xA2 then linkConfirm (setLk d n { x with ts2rx := x.ts2rx + 1 }) n else d
    | 8 => if d1 = 0xA1 ∧ x.lastSet ≠ some (d1, d2, d3) then setLinkState d n 4 else d
    | _ => d

/-- TS2_SENT: one TS2 sent in CONFIRM (R324). -/
def linkTs2 (d : Device) (n : Fin 8) : Device :=
  if linkState d n = 6 then linkConfirm (setLk d n { lk d n with ts2tx := (lk d n).ts2tx + 1 }) n else d

/-- RATE_CHANGE_DONE (R324). -/
def linkRated (d : Device) (n : Fin 8) : Device :=
  if linkState d n = 5 then setLinkState (setB d (F.LINK_STAT.RATE n.val) (lk d n).slow) n 2 else d

/-- RATE_FALLBACK (R327). -/
def linkFallback (d : Device) (n : Fin 8) : Device :=
  let st := linkState d n
  if (st = 1 ∨ st = 2 ∨ st = 3) ∧ getB d (F.LINK_STAT.RATE n.val) = false ∧ linkField d n.val 0x40 2 1 = 1
      ∧ (lk d n).reached = false then
    let d := setLinkState d n 5
    setLk d n { lk d n with slow := true }
  else d

/-- LINK_TRAIN_TIMEOUT (R327). -/
def linkTimeout (d : Device) (n : Fin 8) : Device :=
  if linkState d n = 0 ∨ linkState d n = 7 then d
  else linkStart (raiseEv (incF d (F.LINK_STAT.TRAINFAIL n.val)) (0x130 + n.val)) n

/-- LINK_HIBER (R324, R345): HIBER in UP, or the loss of block lock from BLOCK onward. -/
def linkHiber (d : Device) (n : Fin 8) (lockLoss : Bool) : Device :=
  if lockLoss then (if 3 ≤ linkState d n then setLinkState d n 1 else d)
  else if linkState d n = 7 then setLinkState (setB d (F.LINK_STAT.HIBER n.val) true) n 1
  else d

/-- LINK_RETRAIN (R327). -/
def linkRetrain (d : Device) (n : Fin 8) : Device := if linkState d n = 0 then d else linkStart d n

/-! ### Slot maps (R339 to R341) -/

/-- The entry LINK_MAPIDX addresses. -/
def mapKey (d : Device) (n : Fin 8) : Nat := getF d (F.LINK_MAPIDX.SLOT n.val) + 4096 * getF d (F.LINK_MAPIDX.MAP n.val)

/-- SLOT after an access of LINK_MAPDATA. -/
def mapAdvance (d : Device) (n : Fin 8) : Device :=
  if getB d (F.LINK_MAPIDX.AUTOINC n.val) then
    setF d (F.LINK_MAPIDX.SLOT n.val) ((getF d (F.LINK_MAPIDX.SLOT n.val) + 1) % 4096)
  else d

/-- A write of LINK_MAPDATA (R8, R339, R341). -/
def mapWrite (d : Device) (n : Fin 8) (v : Nat) : Device :=
  let d :=
    if getF d (F.LINK_MAPIDX.MAP n.val) = 1 then mapPut d n (mapKey d n) (v % 2 ^ 14 + v / 2 ^ 16 % 2 * 2 ^ 16)
    else if v / 2 ^ 18 % 4 = 3 then ignored d
    else mapPut d n (mapKey d n) (v % 2 ^ 16 + v / 2 ^ 18 % 4 * 2 ^ 18)
  mapAdvance d n

/-- LINK_MAPDATA as it reads (R341). -/
def mapRead (d : Device) (n : Fin 8) : Nat := sparseGet natZero (lk d n).mapNext (mapKey d n)

/-! ### Frames received (R336, R342 to R345, R351) -/

/-- DBLK of a link's frames (R329). -/
def localDblk (d : Device) (n : Fin 8) : Nat :=
  2 + 4 * cellsAt (rateFs d (dom (linkField d n.val 0x40 4 2))) + 9 * (linkField d n.val 0x40 8 8 + 1)

/-- How a frame that passes its checks is handled (R351). -/
inductive Accept where
  | full | answered | old | other
  deriving DecidableEq, Repr

/-- The case of R351 for a frame with epoch `e`. -/
def acceptOf (d : Device) (n : Fin 8) (e : Nat) : Accept :=
  let a := adj d n
  if a.full ∧ e = a.recEpoch then .full
  else if (a.uid.bind (tombOf d)).any (fun t => !newer e t.epoch) then .answered
  else if a.full ∧ newer a.recEpoch e then .old
  else .other

/-- FAB_STALE.FRAMES counts, with EVT_FAB_STALE once a period (R351). -/
def staleFrame (d : Device) : Device :=
  let d := if d.fab.staleNow then d else raiseEv { d with fab := { d.fab with staleNow := true } } 0x19C
  incF d F.FAB_STALE.FRAMES

/-- The mean delay in units of 2^-8 ns (R343). -/
def meanDelay (l : List Int) : Int := l.foldl (· + ·) (0 : Int) * 256 / ((Nat.max 1 l.length : Nat) : Int)

/-- LINK_DELAY takes a mean (R343): where the unsigned field cannot hold it, a free value. -/
def putDelayMean (d : Device) (n : Fin 8) (v : Int) : Device :=
  if 0 ≤ v ∧ v < 2 ^ 32 then setF d (F.LINK_DELAY.DELAY n.val) v.toNat
  else
    let f := fresh d
    setF f.2 (F.LINK_DELAY.DELAY n.val) (Config.freeWord f.1).toNat

/-- One delay measurement (R343). -/
def delayMeasure (d : Device) (n : Fin 8) (f : LyFrame) : Device :=
  let x := lk d n
  match x.sent.find? (fun e => decide (e.1 = f.echocnt)) with
  | none => d
  | some (_, t1) =>
    if f.echo = 0xFFFFFFFF then d
    else
      let m : Int := ((f.rxtod : Int) - t1 - f.echo) / 2
      let l := (m :: x.delays).take 64
      let d := putDelayMean (setLk d n { x with delays := l, measured := Nat.min 64 (x.measured + 1) }) n (meanDelay l)
      delayCheck (if 64 ≤ x.measured + 1 then setB d (F.LINK_STAT.DLYVALID n.val) true else d) n

/-- The reference event of a frame on the time link (R344). -/
def linkTime (d : Device) (n : Fin 8) (f : LyFrame) : Device :=
  if getF d F.TIME_CTL.REFSEL = 4 ∧ getB d (F.LINK_STAT.TUP n.val) ∧ getB d (F.LINK_STAT.DLYVALID n.val) then
    servoEvent d ((f.txtod : Int) + (getF d (F.LINK_DELAY.DELAY n.val) / 256 : Nat) - f.rxtod)
  else d

/-- The cells of a frame that passes its checks (R332, R346, R351). -/
def frameCells (d : Device) (n : Fin 8) (a : Accept) (cs : List LyCell) : Device :=
  cs.foldl (fun d c =>
    if 24 < c.len ∨ c.ctype = 0xFF then incF d (F.LINK_ERR.CELL n.val)
    else if c.ctype = 0 then d
    else if a = .full ∨ (c.ctype = 1 ∧ a ≠ .old) then
      if 9 < c.ctype then cellBad d
      else setLk d n { lk d n with rxCells := (lk d n).rxCells ++ [c] }
    else d) d

/-- What a frame accepted by R351 gives: channel content and time block. -/
def frameAccepted (d : Device) (n : Fin 8) (f : LyFrame) : Device :=
  let d := setLk d n { lk d n with frames := (lk d n).frames ++ [(f.fcnt % 2 ^ 20, f.slots)] }
  let d := setAdj d n { adj d n with tdist := f.tdist, tlock := f.tlock, accAt := d.fab.frame }
  linkTime (delayMeasure d n f) n f

/-- A frame that passes the checks of R345. -/
def framePassed (d : Device) (n : Fin 8) (f : LyFrame) : Device :=
  let d := setLk d n { lk d n with since := 0, echo := some (f.fcnt % 2 ^ 20, f.rxtod) }
  let d := setF (setF d (F.LINK_PARTNER.ADDR n.val) f.src) (F.LINK_PARTNER.EPOCH n.val) f.epoch
  let a := acceptOf d n f.epoch
  let d := match a with
    | .full => frameAccepted d n f
    | .answered => staleFrame d
    | .old => staleFrame d
    | .other => adjDrop d n
  fabRefresh (frameCells d n a f.cells)

/-- A frame whose terminate block has arrived (R336, R345). -/
def frameRx (d : Device) (n : Fin 8) (f : LyFrame) : Device :=
  let d := setLk d n { lk d n with rxOpen := none, arrived := true }
  if f.intact ∧ f.dblk = localDblk d n ∧ f.fver = 1 then framePassed d n f
  else raiseEv (incF d (F.LINK_ERR.CRC n.val)) (0x138 + n.val)

/-- A block of a link that is UP (R323, R329): a data block outside a frame and a terminate block outside one end nothing; a block
of another type within a frame ends it early. `rxtod` is the local stamp of a start block. -/
def upBlock (d : Device) (n : Fin 8) (rxtod : Nat) (b : LyBlock) : Device :=
  match b, (lk d n).rxOpen with
  | .start h, _ =>
    let d := frameCut d n
    setLk d n { lk d n with rxOpen := some ⟨h, [], rxtod⟩ }
  | .data w, some o => setLk d n { lk d n with rxOpen := some { o with blocks := w :: o.blocks } }
  | .term t, some o =>
    frameRx d n (frameOf (cellsAt (rateFs d (dom (linkField d n.val 0x40 4 2)))) o.head o.blocks.reverse t o.stamp)
  | .idle, some _ => frameCut d n
  | .oset _, some _ => frameCut d n
  | _, none => d

/-- A block of a link with block lock (R323, R345); frames are taken in UP only. -/
def lyathBlock (d : Device) (n : Fin 8) (rxtod : Nat) (b : Option LyBlock) : Device :=
  match b with
  | none => blockError d n
  | some b =>
    let d := if linkState d n = 7 then upBlock d n rxtod b else d
    match b with
    | .oset s => linkSet d n (s.toNat % 2 ^ 8) (s.toNat / 2 ^ 8 % 2 ^ 8) (s.toNat / 2 ^ 16)
    | _ => d

/-- LYATH_FRAME_RX: a run of blocks as the lane carries them (R322, R323, R345). Before block lock, and while the rate changes,
they only pass the descrambler. -/
def lyathRx (d : Device) (n : Fin 8) (bs : List Block66) (rxtod : Nat) : Device :=
  bs.foldl (fun d b =>
    let r := descramble (lk d n).rxScr b.pay
    let d := setLk d n { lk d n with rxScr := r.2 }
    if 4 ≤ linkState d n ∧ linkState d n ≠ 5 then lyathBlock d n rxtod (blockOf ⟨b.hdr, r.1⟩) else d) d

/-! ### The kickoff of the fabric domain (R336, R340, R341) -/

/-- A slot as carried on the wire (R333). -/
def slotWord (b : BitVec 36) : TWord := ⟨b.extractLsb' 0 32, tagOfCode (b.extractLsb' 32 4).toNat⟩

/-- What a slot without content reads as. -/
def slotInvalid (_ : Nat) : TWord := TWord.zero .invalid

/-- The content of a list of slots. -/
def slotsContent (l : List (BitVec 36)) : Sparse TWord :=
  (l.zip (List.range l.length)).foldl (fun m e => sparsePut slotInvalid m e.2 (slotWord e.1)) []

/-- A link's receive content for frame `p` (R336, R345): an enabled link without a frame of its count counts it, UP or not. -/
def linkContent (d : Device) (n : Fin 8) (p : Nat) : Device :=
  let x := lk d n
  let d := setLk d n { x with frames := [], arrived := false, content := [] }
  if ¬ linkTrains d n then d
  else
    match x.frames.reverse.find? (fun e => decide (e.1 = (p + 2 ^ 20 - 1) % 2 ^ 20)) with
    | none => raiseEv (incF d (if x.arrived then F.LINK_MISS.SEQ n.val else F.LINK_MISS.MISS n.val)) (0x140 + n.val)
    | some e => setLk d n { lk d n with content := slotsContent (e.2.take (linkSlots d n)) }

/-- The written map entries take effect (R341), and a period passes. -/
def linkMaps (d : Device) (n : Fin 8) : Device :=
  setLk d n { lk d n with map := (lk d n).mapNext, since := Nat.min 3 ((lk d n).since + 1) }

/-- The links of a rate domain that run, in ascending number. -/
def domLinks (d : Device) (k : Fin 4) : List (Fin 8) :=
  (List.finRange 8).filter (fun n =>
    decide (n.val < linkCount d) && decide (linkField d n.val 0x40 0 1 = 1) && decide (dom (linkField d n.val 0x40 4 2) = k))

/-- The enabled receive entries of a link: slot and channel (R340). -/
def rxEntries (d : Device) (n : Fin 8) : List (Nat × Nat) :=
  (lk d n).map.filterMap (fun e =>
    if 4096 ≤ e.1 ∧ e.1 - 4096 < linkSlots d n ∧ e.2 / 2 ^ 16 % 2 = 1 then some (e.1 - 4096, e.2 % 2 ^ 14) else none)

/-- Deliveries of one link added: channel, link and value; a channel named again replaces the earlier one, whose link
counts a duplicate (R340). -/
def linkDeliver (r : Device × Sparse (Fin 8 × TWord)) (n : Fin 8) : Device × Sparse (Fin 8 × TWord) :=
  (rxEntries r.1 n).foldl (fun r e =>
    let d := match sparseFind r.2 e.2 with
      | none => r.1
      | some old => incF r.1 (F.LINK_ERR.DUP old.1.val)
    (d, sparseInsert r.2 e.2 (n, sparseGet slotInvalid (lk r.1 n).content e.1))) r

/-- The fabric receive entries that no link fills deliver INVALID (R229, R340): `filled` are the channels delivered. -/
def fabUnfilled (d : Device) (filled : List Nat) : Device :=
  let gone := (d.rtCur.map (·.1)).filter (fun s => decide (0x4000 ≤ s) && !filled.contains (s - 0x4000))
  gone.foldl (fun d s => putEntry d s (TWord.zero .invalid)) d

/-- The links at a kickoff of domain `k` that completes frame `p` (R336, R340, R341). -/
def linkKickoff (d : Device) (k : Fin 4) (p : Nat) : Device :=
  let ls := domLinks d k
  if (List.finRange 4).all (fun j => decide (domLinks d j = [])) then fabUnfilled d []
  else if ls = [] then d
  else
    let d := ls.foldl (fun d n => linkContent (linkMaps d n) n p) d
    let r := ls.foldl linkDeliver (d, [])
    let d := r.2.foldl (fun d e =>
      let s := 0x4000 + e.1
      putEntry d s (faded d (0x70 + e.2.1.val) k e.2.2 (entry d s))) r.1
    fabTick (fabUnfilled d (r.2.map (·.1)))

/-- Whether LINK_UP[n] of R111 is 1 (R328). -/
def linkAlive (d : Device) (n : Fin 8) : Bool := linkUp d n && decide ((lk d n).since ≤ 2)

/-! ### Frames sent (R335, R339, R349) -/

/-- The order in which cells fill a frame (R349). -/
def cellOrder (l : List LyCell) : List LyCell :=
  let pick := fun (p : Nat → Bool) => l.filter (fun c => p c.ctype)
  pick (fun t => decide (t = 1)) ++ pick (fun t => decide (t = 6 ∨ t = 7 ∨ t = 8)) ++ pick (fun t => decide (t = 5))
    ++ pick (fun t => decide (t = 2 ∨ t = 3 ∨ t = 4)) ++ pick (fun t => decide (t = 9))

/-- A word as a slot carries it. -/
def wordSlot (w : TWord) : BitVec 36 := BitVec.ofNat 36 (w.p.toNat + w.t.code * 2 ^ 32)

/-- The value of a transmit slot for a frame of domain `k` (R339, R369, R461). -/
def txSlot (d : Device) (k : Fin 4) (n : Fin 8) (s : Nat) : Device × TWord :=
  let e := sparseGet natZero (lk d n).map s
  if Regions.stopped d.regions (0x70 + n.val) ∨ getB d F.FAB_STAT.GATED ∨ d.gated then (d, TWord.zero .invalid)
  else
    match e / 2 ^ 18 % 4 with
    | 1 => deliver d k (0x4000 + e % 2 ^ 14)
    | 2 =>
      let m := lkNo (e / 2 ^ 12)
      if linkUp d m ∧ dom (linkField d m.val 0x40 4 2) = k then (d, sparseGet slotInvalid (lk d m).content (e % 2 ^ 12))
      else (d, TWord.zero .invalid)
    | _ => (d, TWord.zero .invalid)

/-- The transmit slots from `s`. -/
def txSlots36 (d : Device) (k : Fin 4) (n : Fin 8) : Nat → Nat → Device × List (BitVec 36)
  | _, 0 => (d, [])
  | s, m + 1 =>
    let r := txSlot d k n s
    let rest := txSlots36 r.1 k n (s + 1) m
    (rest.1, wordSlot r.2 :: rest.2)

/-- One frame of a link for frame `p`; `txtod` is the time of day at which its start block leaves (R331, R335, R353). -/
def linkSend (d : Device) (k : Fin 4) (p : Nat) (n : Fin 8) (txtod : Nat) : Device :=
  if linkState d n ≠ 7 then d
  else
    let d := if adjFull d n then d else sendHello d n
    let r := txSlots36 d k n 0 (linkSlots d n)
    let d := r.1
    let x := lk d n
    let q := cellOrder x.txCells
    let nc := cellsAt (rateFs d k)
    let f : LyFrame :=
      ⟨true, localDblk d n, 1, ownAddr d, ownEpoch d, p % 2 ^ 20, txtod,
        match x.echo with
        | none => 0xFFFFFFFF
        | some e => Nat.min (2 ^ 32 - 2) (txtod - e.2),
        (x.echo.map (·.1)).getD 0, tdist d, getF d F.TIME_STAT.STATE, getB d F.TIME_STAT.LOCKED, q.take nc, r.2, 0⟩
    setLk d n { x with txCells := q.drop nc, txFrame := some f, sent := ((p % 2 ^ 20, txtod) :: x.sent).take 4 }

/-- The links of domain `k` send frame `p` (R335); `tods` gives each link's TXTOD. -/
def linkTransmit (d : Device) (k : Fin 4) (p : Nat) (tods : List Nat) : Device :=
  let ls := domLinks d k
  if ls = [] then d
  else ls.foldl (fun d n => linkSend d k p n (tods.getD n.val (tod d))) (userSend d (cellsAt (rateFs d k)))

/-! ### What a link transmits (R323, R324) -/

/-- What leaves a transmit lane: nothing, with the pads floating or driven; a training set in one of every so many blocks, idle blocks
between; or the blocks of a frame, and idle blocks around it. -/
inductive LinkOut where
  | off
  | quiet
  | sets (b : LyBlock) (every : Nat)
  | frames (bs : List LyBlock)
  deriving DecidableEq, Repr

/-- What a link transmits in its state (R324, R329, R335); in a domain that produces no kickoffs, idle blocks only. -/
def linkOut (d : Device) (n : Fin 8) : LinkOut :=
  let k := dom (linkField d n.val 0x40 4 2)
  match linkState d n with
  | 0 => .off
  | 4 => .sets (ownSet d n) 16
  | 5 => .quiet
  | 6 => .sets (ownSet d n) 16
  | 7 => .frames (if produces d k then ((lk d n).txFrame.map (frameBlocks (cellsAt (rateFs d k)))).getD [] else [])
  | _ => .sets (ownSet d n) 1

end Sys2Proof.Machine
end

