-- ==== Sys2Proof/Machine/Sap.lean ====
section
/-! DEFINITION. Serial audio ports (R257 to R274, R277): the lane's settings, transmit and receive frames, slips,
concealment, mute, dither and the words sent. -/

namespace Sys2Proof.Machine

/-! ### A lane's slots -/

/-- The key of a transmit slot: its Guard channel (R278). -/
def slotKey (n : Fin 32) (k : Nat) : Nat := 32 * n.val + k

/-- A transmit slot's concealment. -/
def concOf (d : Device) (c : Nat) : Conc := sparseGet (fun _ => Conc.reset) d.conc c

/-- A transmit slot's concealment replaced. -/
def putConc (d : Device) (c : Nat) (x : Conc) : Device :=
  { d with conc := sparsePut (fun _ => Conc.reset) d.conc c x }

/-- A port resumes (R84, R264, R268, R271, R281): its lane takes the fields written, its slots start afresh. -/
def sapResume (d : Device) (n : Fin 32) : Device :=
  let d := (0x1F05000C :: (List.range 7).map (fun j => 0x1F050040 + 4 * j)).foldl (fun d o =>
    let a := o + 0x1000 * n.val
    { d with eff := sparsePut regReset d.eff a (reg d a) }) d
  let seed := sparseGet regReset d.eff (0x1F050054 + 0x1000 * n.val)
  let d := setSap d n { sap d n with tx := [], rx := [], rxSeen := false, dith := seed, frame := none, fresh := true, due := none }
  let d := (List.range 32).foldl (fun d k => guardResume (putConc d (slotKey n k) Conc.reset) (slotKey n k)) d
  if laneMaster d n then setB d (F.SAP_STAT.CLKOK n.val) true else d

/-! ### Slips (R263 to R265) -/

/-- `k` slips of one direction. -/
def slips (d : Device) (n : Fin 32) (f : Fld) (k : Nat) : Device :=
  if k = 0 then d
  else
    let d := incF (setB d f true) (F.SAP_STAT.SLIP n.val) k
    (List.range k).foldl (fun d _ => raiseEv d (0xE0 + n.val)) d

/-- The values of a port's output sinks enter its transmit queue at a resolution of domain `k` (R263). -/
def txLatch (d : Device) (k : Fin 4) (n : Fin 32) : Device :=
  if laneOn d n ∧ laneMode d n = 0 ∧ portDom d n = k then
    let r := deliverRun d k (0x2000 + 32 * n.val) (laneSlots d n)
    setSap r.1 n { sap r.1 n with tx := (sap r.1 n).tx ++ [r.2] }
  else d

/-- The frame a frame-mode port takes at a boundary, of the first `ready` queued ones (R263): none is a frame produced
without a value. -/
def txTake (d : Device) (n : Fin 32) (ready : Nat) : Device × Option (List TWord) :=
  let x := sap d n
  let r := Nat.min ready x.tx.length
  if r = 0 then (slips d n (F.SAP_STAT.TXSLIP n.val) 1, none)
  else (slips (setSap d n { x with tx := x.tx.drop r }) n (F.SAP_STAT.TXSLIP n.val) (r - 1), x.tx[r - 1]?)

/-- The input entries of a frame that begins (R264): the latest completed receive frame. -/
def rxCapture (d : Device) (k : Fin 4) (n : Fin 32) : Device :=
  let put := fun (d : Device) (vs : Nat → TWord) =>
    (List.range 32).foldl (fun d j =>
      let s := 32 * n.val + j
      putEntry d s (if j < laneSlots d n then faded d (portRegion n) k (vs j) (entry d s) else TWord.zero .invalid)) d
  if portDom d n ≠ k ∨ ¬ laneOn d n then d
  else if laneMode d n ≠ 0 then
    setSap (put d (fun _ => TWord.zero .invalid)) n { sap d n with ok := false }
  else
    let x := sap d n
    match x.rx.getLast? with
    | none =>
      let d := if x.rxSeen then slips d n (F.SAP_STAT.RXSLIP n.val) 1 else d
      put (setSap d n { x with ok := false }) (fun _ => TWord.zero .invalid)
    | some f =>
      let d := slips d n (F.SAP_STAT.RXSLIP n.val) (x.rx.length - 1)
      let good := (rxSlots d n).all (fun j => decide ((f.getD j (TWord.zero .invalid)).t = .sample))
      put (setSap d n { x with rx := [], ok := good }) (fun j => f.getD j (TWord.zero .invalid))

/-! ### Concealment and mute (R268 to R270) -/

/-- A valid sample, with its fade-in (R269). -/
def concValid (r : Nat) (c : Conc) (x : Int) : Conc × Int :=
  let i := if c.due then 1 else c.fade
  if i = 0 then ({ c with h := x, run := 0 }, x)
  else
    let y := x * i / r
    ({ c with h := y, run := 0, due := false, fade := if i < r then i + 1 else 0 }, y)

/-- A concealed sample falls inside a fade-in: the next valid sample restarts it (R269). -/
def fadeBroken (c : Conc) : Conc := { c with due := c.due || decide (c.fade ≠ 0), fade := 0 }

/-- What concealment gives: its state, its output, and whether the output is forced to 0. `r` is R, `mode` INVMODE. -/
structure Concealed where
  c : Conc
  y : Int
  zero : Bool
  held : Bool
  ramped : Bool
  deriving DecidableEq, Repr

/-- Concealment of one slot value that does not mute (R268, R269). -/
def conceal (r mode : Nat) (c : Conc) (v : TWord) : Concealed :=
  match v.t with
  | .held => ⟨{ fadeBroken c with run := 0 }, c.h, false, true, false⟩
  | .invalid =>
    if mode = 0 then ⟨{ fadeBroken c with run := 0 }, c.h, false, true, false⟩
    else if mode = 1 then ⟨{ c with h := 0, run := 0, fade := 0, due := true }, 0, true, false, true⟩
    else
      let h0 := if c.run = 0 then c.h else c.h0
      let i := c.run + 1
      let y := if i < r then h0 * (r - i : Nat) / (r : Nat) else 0
      ⟨{ c with h := y, h0 := h0, run := Nat.min i r, fade := 0, due := true }, y, decide (r ≤ i), false, true⟩
  | _ =>
    let z := concValid r c v.p.toInt
    ⟨z.1, z.2, false, false, false⟩

/-- Whether a tag mutes the port. -/
def mutes (t : Tag) : Bool := decide (t = .poison ∨ t = .uninit)

/-- The mute of a port over one frame (R270): `bad` is the worst muting tag of its enabled slots. Answers whether the
frame is muted. -/
def muteFrame (d : Device) (n : Fin 32) (bad : Option Tag) : Device × Bool :=
  let x := sap d n
  let muted := getB d (F.SAP_STAT.MUTED n.val)
  match bad with
  | some t =>
    let d := setSap d n { x with clean := 0 }
    if muted then (d, true)
    else
      let d := setF (setB d (F.SAP_STAT.MUTED n.val) true) (F.SAP_STAT.MUTECAUSE n.val) t.code
      (raiseEv (setSap d n { x with clean := 0, unmute := false }) (0xC0 + n.val), true)
  | none =>
    if ¬ muted then (d, false)
    else if (if lane d n 0x50 8 1 = 1 then x.clean = 64 else x.unmute = true) then
      let d := setB (setSap d n { x with clean := 0, unmute := false }) (F.SAP_STAT.MUTED n.val) false
      ((List.range 32).foldl (fun d k =>
        putConc d (slotKey n k) { concOf d (slotKey n k) with due := true, fade := 0 }) d, false)
    else (setSap d n { x with clean := Nat.min 64 (x.clean + 1) }, true)

/-- The worst muting tag among slot values. -/
def muteTag (vs : List TWord) : Option Tag :=
  if vs.any (fun v => decide (v.t = .poison)) then some .poison
  else if vs.any (fun v => decide (v.t = .uninit)) then some .uninit else none

/-- SAP_UNMUTE (R270). -/
def sapUnmute (d : Device) (n : Fin 32) : Device :=
  if getB d (F.SAP_STAT.MUTED n.val) then setSap d n { sap d n with unmute := true } else d

/-! ### Dither and truncation (R259, R271, R272) -/

/-- The value of a slot after dither: two steps of the register, their top `n` bits, narrowed (R271). -/
def dithered (r : Word) (n : Nat) (x : Int) : Int :=
  let r1 := galois r
  let r2 := galois r1
  (narrow 32 true (x + (r1.toNat / 2 ^ (32 - n) : Nat) - (r2.toNat / 2 ^ (32 - n) : Nat))).r

/-- Whether a port's pads are held (R52). -/
def padHeld (d : Device) (n : Fin 32) : Bool := (reg64 d Adr.PWR_PADHOLD).testBit n.val

/-- Whether a port's held input pads have their buffers disabled: a release frees them at once (R52, R429). -/
def padInOff (d : Device) (n : Fin 32) : Bool := padHeld d n && !d.sapRel.getLsbD n.val

/-- A slot after Guard: exactly 0 where it is forced to 0, dither where it is enabled, truncation, and the word sent (R271,
R272); a held pad keeps its level (R52, R57). -/
def sendSlot (d : Device) (n : Fin 32) (k : Nat) (x : Int) (forced : Bool) : Device :=
  let w := laneWordW d n
  let s := sap d n
  let on := decide (lane d n 0x50 9 1 = 1)
  let v := if forced then 0 else if on then dithered s.dith (32 - w) x else x
  let d := if on then setSap d n { s with dith := galois (galois s.dith) } else d
  if padHeld d n then d else { d with dout := sparsePut wordZero d.dout (slotKey n k) (BitVec.ofInt 32 v >>> (32 - w)) }

/-- One transmit slot through the output chain (R267, R293): `zero` is Whistle or gating. -/
def sendValue (d : Device) (n : Fin 32) (muted : Bool) (k : Nat) (v : TWord) (zero : Bool) : Device :=
  let key := slotKey n k
  let c := concOf d key
  let o : Concealed := if muted then ⟨{ fadeBroken c with h := 0, run := 0 }, 0, true, false, false⟩
    else conceal (laneRamp d n) (lane d n 0x50 0 2) c v
  let d := putConc d key o.c
  let d := if o.held then incF d (F.SAP_CONCEAL.HOLDS n.val) else d
  let d := if o.ramped then incF d (F.SAP_CONCEAL.ZEROS n.val) else d
  let g := guardProcess d key o.y zero
  sendSlot g.1 n k g.2.1 (o.zero || g.2.2)

/-! ### The frame boundary (R258 to R263, R273, R277) -/

/-- The slot values of a frame in ASRC mode (R277). -/
def asrcSlots (d : Device) (n : Fin 32) : List Nat → Device × List TWord
  | [] => (d, [])
  | k :: ks =>
    let r := match asrcBound d 4 n.val k with
      | none => (d, TWord.zero .invalid)
      | some (u, c) => asrcPortOut d (portDom d n) u c
    let rest := asrcSlots r.1 n ks
    (rest.1, r.2 :: rest.2)

/-- The values of the enabled transmit slots of the frame that begins. -/
def slotValues (d : Device) (n : Fin 32) (ready : Nat) : Device × List TWord :=
  let ks := txSlots d n
  match laneMode d n with
  | 0 =>
    let r := txTake d n ready
    (r.1, match r.2 with
      | none => ks.map (fun _ => TWord.zero .held)
      | some f => ks.map (fun k => f.getD k (TWord.zero .invalid)))
  | 1 => asrcSlots d n ks
  | _ =>
    let q := lane d n 0x58 8 8
    if q = 0 then (d, ks.map (fun _ => TWord.zero .invalid)) else quePops d (queNo q) ks.length

/-- A slave's frame of the wrong length (R260). -/
def badLength (d : Device) (n : Fin 32) (len : Option Nat) : Bool :=
  !laneMaster d n && len.any (fun l => decide (l ≠ laneSlots d n * laneSlotW d n))

/-- What ended at a boundary is recorded: CLKOK, SAP_PHASE, and a frame length error (R260). -/
def boundaryStatus (d : Device) (n : Fin 32) (len : Option Nat) (phase : Nat) : Device :=
  let d := setF (setB d (F.SAP_STAT.CLKOK n.val) true) (F.SAP_PHASE.PHASE n.val) phase
  let d := match len with
    | none => d
    | some l => setF d (F.SAP_PHASE.FRAMELEN n.val) l
  if badLength d n len then raiseEv (setB d (F.SAP_STAT.FRAMEERR n.val) true) (0x100 + n.val) else d

/-- Whether a slot of the frame that ends at a boundary had begun before it (R258, R260): in a frame of `len` bit clocks of a
slave port, those whose first bit period lies before its end. -/
def slotBegun (d : Device) (n : Fin 32) (len : Option Nat) (k : Nat) : Bool :=
  let fmt := lane d n 0x40 0 2
  let delay := if fmt = 0 then 1 else if fmt = 1 then 0 else lane d n 0x40 20 1
  laneMaster d n || len.all (fun l => decide (laneSlotW d n * k + delay < l))

/-- The first slot of the frame being sent that the Whistle zeroes; 32 is none (R57, R292, R294). An assertion before the frame
zeroes all of it, but for a slot 0 that began fewer than 3 bit clocks after it; a release fewer than 3 bit clocks before
the frame leaves it zeroed; an assertion within the frame zeroes the slots from `zeroFrom` on. -/
def whistleFrom (x : Sap) (f : SapFrame) (zeroFrom : Nat) : Nat :=
  if f.whistle then (if x.zeroed ∨ f.fresh then 0 else Nat.min zeroFrom 1)
  else if x.whSeen then zeroFrom
  else if x.zeroed ∧ zeroFrom = 0 then 0
  else 32

/-- Whether the outputs are gated (R369, R467). -/
def gatedNow (d : Device) : Bool := d.gated || getB d F.FAB_STAT.GATED

/-- The next valid sample of every slot of a port is faded in (R269, R294). -/
def fadeInPort (d : Device) (n : Fin 32) : Device :=
  (List.range 32).foldl (fun d j => putConc d (slotKey n j) { concOf d (slotKey n j) with due := true, fade := 0 }) d

/-- The frame that ends at a boundary has been sent (R260, R267 to R273, R292 to R294): each slot that had begun passed through
the output chain. A gate that has opened meanwhile opens for the next frame, as a mute release (R462). -/
def endFrame (d : Device) (n : Fin 32) (len : Option Nat) (zeroFrom : Nat) : Device :=
  match (sap d n).frame with
  | none => d
  | some f =>
    let z := whistleFrom (sap d n) f zeroFrom
    let gate := f.gate || gatedNow d
    let d := if (sap d n).zeroed ∧ 0 < z then fadeInPort d n else d
    let d := ((txSlots d n).zip f.vals).foldl (fun d (e : Nat × TWord) =>
      if slotBegun d n len e.1 then sendValue d n f.muted e.1 e.2 (gate || decide (z ≤ e.1)) else d) d
    let d := if f.gate ∧ ¬ gatedNow d then fadeInPort d n else d
    setSap d n { sap d n with frame := none, zeroed := decide (z < laneSlots d n) }

/-- The frame that begins at a boundary takes its values (R263, R270): `ready` queued frames entered at least 6 bit clocks
before the boundary. -/
def startFrame (d : Device) (n : Fin 32) (ready : Nat) : Device :=
  let r := slotValues d n ready
  let vs := r.2.map (fun v => faded r.1 (portRegion n) (portDom d n) v (TWord.zero .held))
  let m := muteFrame r.1 n (muteTag vs)
  let x := sap m.1 n
  setSap m.1 n { x with
    frame := some ⟨vs, m.2, gatedNow d, d.whistle, x.fresh⟩
    fresh := false
    whSeen := false
    due := none }

/-- A frame boundary of a port releases its pads if a release waits (R429): the frame that begins is the first released. -/
def padBoundary (d : Device) (n : Fin 32) : Device :=
  if d.sapRel.getLsbD n.val then
    let hold := reg64 d Adr.PWR_PADHOLD
    setReg64 { setSap d n { sap d n with fresh := true } with sapRel := d.sapRel &&& ~~~ (1#32 <<< n.val) } Adr.PWR_PADHOLD
      (hold - Nat.land hold (2 ^ n.val))
  else d

/-- Whether a frame boundary may come now: a master places one PHASE bit clocks after each kickoff of its domain (R262); a
slave has one whenever its clocks arrive, not while they are held (R52). -/
def mayBound (d : Device) (n : Fin 32) : Bool :=
  laneOn d n &&
  (if laneMaster d n then (sap d n).due.any (fun t => decide (t ≤ todFine d + edgeStep d)) else !padInOff d n)

/-- SAP_FRAME_BOUNDARY (R258 to R263, R429): the frame that ended had `len` bit clocks, `phase` is the measured phase. -/
def sapBoundary (d : Device) (n : Fin 32) (len : Option Nat) (phase ready zeroFrom : Nat) : Device :=
  if mayBound d n then
    startFrame (padBoundary (boundaryStatus (endFrame d n len zeroFrom) n len phase) n) n ready
  else d

/-- The words of a receive frame by slot (R259, R260): `ws` are the words as received. -/
def rxWords (d : Device) (n : Fin 32) (bad : Bool) (ws : List Word) : List TWord :=
  (List.range (laneSlots d n)).map (fun k =>
    if bad ∨ ¬ laneRx d n k then TWord.zero .invalid
    else ⟨(ws.getD k 0) <<< (32 - laneWordW d n), .sample⟩)

/-- SAP_RX_FRAME_END (R52, R260, R264, R273, R277): a receive frame of `len` bit clocks has ended. A held pad's input reads 0,
and a slave whose clock inputs are held receives nothing. -/
def sapRxEnd (d : Device) (n : Fin 32) (len : Nat) (ws : List Word) : Device :=
  if ¬ laneOn d n ∨ (padInOff d n ∧ ¬ laneMaster d n) then d
  else
    let f := rxWords d n (badLength d n (some len)) (if padInOff d n then [] else ws)
    match laneMode d n with
    | 0 => setSap d n { sap d n with rx := (sap d n).rx ++ [f], rxSeen := true }
    | 1 =>
      (rxSlots d n).foldl (fun d k =>
        match asrcBound d 0 n.val k with
        | none => d
        | some (u, c) => asrcPush d u c (f.getD k (TWord.zero .invalid))) d
    | _ =>
      let q := lane d n 0x58 0 8
      if q = 0 then d else queCross d (queNo q) ((rxSlots d n).map (fun k => f.getD k (TWord.zero .invalid)))

/-- SAP_CLOCK_LOSS (R260): no boundary within two frame times; a running master port always has its clock. -/
def sapClockLoss (d : Device) (n : Fin 32) : Device :=
  if laneOn d n && laneMaster d n then d
  else setB (setSap d n { sap d n with fresh := true }) (F.SAP_STAT.CLKOK n.val) false

end Sys2Proof.Machine
end

