-- ==== Sys2Proof/Machine/Resume.lean ====
section
/-! DEFINITION. Quiescing, reloading and resuming structure regions (R25, R80 to R86, R103, R391, R438), and what each
class of unit does when its region stops, is reloaded or resumes. -/

namespace Sys2Proof.Machine

/-! ### Stopping -/

/-- Whether an untimed region carries audio (R83): links, the route graph, the ASRC. -/
def carriesAudio (r : Nat) : Bool :=
  match regionClass r with
  | some c => decide (c = 3 ∨ c = 6 ∨ c = 10)
  | none => false

/-- Whether a region fades in a rate domain (R82, R83): it produces kickoffs, and is a timed region's own. -/
def fadesIn (d : Device) (r : Nat) (k : Fin 4) : Bool :=
  produces d k && (if rgnTimed r then decide (rgnDomain d r = k) else carriesAudio r)

/-- The route graph stops: crossfades in progress end with the old select retired (R84). -/
def routeStop (d : Device) : Device :=
  let calm := d.sinks.map (fun e => (e.1, { e.2 with fading := false, old := 0x3FFF, pos := 0, n := 0, deferred := none }))
  { d with sinks := calm.filter (fun e => decide (e.2 ≠ Sink.reset)) }

/-- What the unit of a region does when its region stops (R84). -/
def stopUnit (d : Device) (r : Nat) : Device :=
  match regionClass r with
  | some 6 => routeStop d
  | some 9 => coachCheck d
  | _ => d

/-- A region in service stops: QUIESCED, with the policy of its quiesce request, or that in force when it stops without one;
its next applied record resets it (R80, R82, R83). -/
def stopRegion (d : Device) (r : Nat) : Device :=
  let x := rgn d r
  let mode := if x.st = .quiescing then x.stopMode else rgnZero d r
  stopUnit (setRgn d r { x with st := .quiesced, resetDue := true, stopMode := mode, fades := Vector.replicate 4 .stopped }) r

/-- A region goes to INCOMPLETE (R64, R74). -/
def incomplete (d : Device) (r : Nat) : Device :=
  let d := if Regions.live d.regions r then stopRegion d r else d
  let x := rgn d r
  let mode := if Regions.eff d.regions r = .empty then rgnZero d r else x.stopMode
  let d := setRgn d r { x with st := .incomplete, stopMode := mode, fades := Vector.replicate 4 .stopped }
  if regionClass r = some 3 then linkSync d (lkNo (r - 0x70)) else d

/-- A Q = 1 record's request to a RUNNING region (R81 to R83). -/
def quiesce (d : Device) (r : Nat) : Device :=
  setRgn d r { rgn d r with
    st := .quiescing
    stopMode := rgnZero d r
    fades := Vector.ofFn (fun k => if fadesIn d r k then .req else .none) }

/-- Whether a region may be quiesced (R84): the clock and global regions only while every other region is stopped. -/
def mayQuiesce (d : Device) (r : Nat) : Bool :=
  if r = 0xA2 ∨ r = 0xFF then
    (List.range 256).all (fun x => decide (x = r) || !regionPresent d x ||
      (let s := (rgn d x).st
       decide (s = .empty ∨ s = .quiesced ∨ s = .incomplete)))
  else true

/-- Whether a QUIESCING region still fades in a domain that produces kickoffs. -/
def stillFading (d : Device) (r : Nat) : Bool :=
  (List.finRange 4).any (fun k => produces d k &&
    (match (rgn d r).fades[k] with
      | .req => true
      | .out _ => true
      | _ => false))

/-- REGION_QUIESCED (R81, R83): a QUIESCING region with no fade left to run enters QUIESCED. -/
def regionQuiesced (d : Device) (r : Nat) : Device :=
  if (rgn d r).st = .quiescing ∧ ¬ stillFading d r then stopRegion d r else d

/-! ### Fades at a kickoff (R82, R83, R85) -/

/-- One step of a region's fade at a kickoff of a domain; `zero` is QMODE, `q` QFADE. -/
def fadeStep (zero : Bool) (q : Nat) : Fade → Fade
  | .none => .none
  | .req => if zero then .out 0 else .stopped
  | .out i => if i < q then .out (i + 1) else .stopped
  | .stopped => .stopped
  | .resume => if zero then .into 0 else .none
  | .into i => if i < q then .into (i + 1) else .none

/-- A region at a kickoff of domain `k`: its fade steps, and a QUIESCING region whose last fade has ended stops. -/
def fadeRegion (d : Device) (k : Fin 4) (r : Nat) : Device :=
  let x := rgn d r
  let f := fadeStep (if x.st = .quiescing then x.stopMode else rgnZero d r) (rgnFade d r) x.fades[k]
  if f = x.fades[k] then d
  else
    let d := setRgn d r { x with fades := x.fades.set k f }
    if x.st = .quiescing ∧ ¬ stillFading d r then stopRegion d r else d

/-- Every region's fade steps at a kickoff of domain `k`. -/
def fadeAll (d : Device) (k : Fin 4) : Device := (d.regions.map (·.1)).foldl (fun d r => fadeRegion d k r) d

/-! ### Reloading (R25, R80, R103) -/

/-- Registers from `lo` up to `hi` return to their reset values. -/
def regsReset (d : Device) (lo hi : Nat) : Device := { d with regs := sparseClear d.regs lo hi }

/-- An engine at a reload of its region (R103, R216): the cells of the column, and no other state; a load or a division not
yet landed does not land over them. -/
def engReload (e : Engine) : Engine :=
  { e with
    w := Work.reset
    rs := Vector.replicate 8 0
    rsDepth := 0
    rsTop := 0
    lc := 0
    repLeft := 0
    repN := 0
    repCur := 0
    pc := 0
    npc := 0
    curt := 0
    tierStk := []
    resv := none
    chk := false
    chkPend := none
    flags := []
    pend := []
    div := none
    pair := none
    spin := Vector.replicate 8 (TWord.zero .uninit) }

/-- The registers of a region's unit return to their reset values (R25); status bits that are cleared by writing 1 and
saturating counters stay. A delay bank group has no register of its own; the routes of the Scoreboard (R84) and the enables
and targets of the media PLLs (R84) stay in effect until their regions resume, and take their reset values there. -/
def unitReload (d : Device) (r : Nat) : Device :=
  match regionClass r with
  | some 0 =>
    if getB d (F.ENG_HOLDER.VACANT r) then d else
    let n := holder d r
    let d := setAg d n (engReload (ag d n))
    regsReset d (Adr.ENG_USED n.val) (Adr.ENG_USEDMAX n.val + 4)
  | some 2 =>
    let n := r - 0x50
    setReg d (Adr.SAP_PHASE n) (regReset (Adr.SAP_PHASE n))
  | some 3 =>
    let n : Fin 8 := ⟨(r - 0x70) % 8, by omega⟩
    let d := setReg d (Adr.LINK_MAPIDX n.val) (regReset (Adr.LINK_MAPIDX n.val))
    setLk d n { lk d n with map := [], mapNext := [] }
  | some 4 =>
    let m : Fin 16 := ⟨(r - 0x80) % 16, by omega⟩
    let d := regsReset (regsReset d (Adr.MIX_CTL m.val) (Adr.MIX_STAT m.val)) (Adr.MIX_XPRD m.val) (Adr.MIX_CTL m.val + 0x1000)
    setMix d m { MixUnit.reset with fill := (mixUnit d m).fill }
  | some 5 =>
    let u := r - 0x90
    regsReset d (Adr.SPIN_RDADDR u) (Adr.SPIN_RDADDR u + 0x10)
  | some 6 =>
    let d := regsReset d 0x1C050000 0x1C060000
    { d with
      sinks := []
      rtStage := Vector.replicate 4 []
      rtArmed := Vector.replicate 4 none
      bypSel := []
      noiseReg := []
      taps := [] }
  | some 7 =>
    { d with
      regs := d.regs.filter (fun e => !(decide (Adr.QUE_CFG 1 ≤ e.1 ∧ e.1 < Adr.QUE_CFG 256) && decide (e.1 % 16 < 8)))
      que := Vector.ofFn (fun q => if q.val = 0 then d.que[q] else { d.que[q] with wm := false }) }
  | some 8 =>
    (List.finRange 4).foldl hoDrop
      (regsReset (regsReset d (Adr.CLK_HO 0) (Adr.CLK_HOKO 3 + 4)) (Adr.CLK_WCLKOUT 0) (Adr.CLK_PPSOUT + 4))
  | some 9 => regsReset d Adr.COACH_CTL (Adr.COACH_TCRIT + 4)
  | some 10 =>
    (List.range 8).foldl (fun d u => setReg (setB d (F.ASRC_STAT.LOCK u) false) (Adr.ASRC_RATIO u) (regReset (Adr.ASRC_RATIO u))) d
  | some 15 =>
    let d := setReg d Adr.FAB_ROUTEIDX (regReset Adr.FAB_ROUTEIDX)
    setReg d Adr.FAB_RUNSEL (regReset Adr.FAB_RUNSEL)
  | _ => d

/-- The fields of a region, its policy apart, return to their reset values: those of S_CLK.REF and S_CLK.CTRL are the PLL
defaults (R297). -/
def fieldsReset (d : Device) (r : Nat) : Device :=
  let d := regsReset d (srsAddr r 0x10) (srsAddr r 0x400)
  if r = 0xA2 then
    [0x40, 0x44].foldl (fun d o => setReg d (0x1F0A2000 + o) (BitVec.ofNat 32 (clkDefault d o))) d
  else d

/-- The first record applied after a quiesce returns the region's fields, its policy apart, and registers to their reset
values (R80). -/
def reloadDue (d : Device) (r : Nat) : Device :=
  let x := rgn d r
  if x.resetDue then unitReload (fieldsReset (setRgn d r { x with resetDue := false }) r) r else d

/-! ### Resuming (R85) -/

/-- One queue's registers at their reset values (R391). -/
def queRegsReset (d : Device) (q : Nat) : Device :=
  setReg (setReg d (Adr.QUE_CFG q) (regReset (Adr.QUE_CFG q))) (Adr.QUE_EV q) (regReset (Adr.QUE_EV q))

/-- The queues of the map start empty, with their registers at reset (R391); queue 0 stays as it is. -/
def queResume (d : Device) : Device :=
  let e := (List.range 255).foldl (fun e i => queRegsReset e (i + 1)) d
  { e with que := Vector.ofFn (fun q => if q.val = 0 then e.que[q] else Queue.reset) }

/-- The words of region 0x0A2 that make up the settings of PLL `j`. -/
def pllWords (j : Nat) : List Nat :=
  [0x40, 0x50 + 4 * j] ++ (if j = 1 then [0x44] else []) ++ (if 2 ≤ j then [0x68 + 4 * (j - 2)] else [])

/-- Region 0x0A2 resumes (R84, R299, R303, R304): its fields take effect, a PLL whose settings changed starts again, the
anchors return to (0, 0), and every domain starts afresh. -/
def clkResume (d : Device) (reloaded : Bool) : Device :=
  let changed := (List.range 6).filter (fun j =>
    (pllWords j).any (fun o => decide (clkWord d o ≠ clkReg d o)) || decide (bandOf d.bands j ≠ bandOf d.bandsEff j))
  let ran := (List.range 6).filter (fun j => pllRuns d j)
  let e := (List.range 22).foldl (fun d i => setClkWord d (0x40 + 4 * i) (clkReg d (0x40 + 4 * i))) d
  let e := (List.range 4).foldl (fun e m =>
    let e := if reloaded then setReg e (Adr.CLK_MCTL m) (regReset (Adr.CLK_MCTL m)) else e
    if reloaded ∨ changed.contains (2 + m) then setF e (F.CLK_MTGT.FHZ m) (clkReg e (0x68 + 4 * m)) else e) e
  let e := setF e F.TIME_STAT.TSRC (clkReg e 0x48 % 4)
  let e := (List.finRange 4).foldl hoDrop { e with
    bandsEff := e.bands
    anchors := Vector.replicate 4 ⟨0, 0, 1⟩
    started := Vector.replicate 4 false }
  let e := (List.range 6).foldl (fun e j =>
    if ¬ pllRuns e j then (if ran.contains j then pllMute e j else e)
    else if changed.contains j ∨ ¬ ran.contains j ∨ pllTarget e j ≠ pllTarget d j then pllStart e j else e) (idleBits e)
  coachCheck (restartDomains (timeSrcState e) (fun _ => true))

/-- The Scoreboard's routes at the resumption of the events region (R388). -/
def evtResume (d : Device) : Device :=
  evtSettle ((List.range 512).foldl (fun d v => setReg d (Adr.EVT_ROUTE v) (reg d (Adr.S_EVT.ROUTE 0xA5 v))) d)

/-- The tiers of a group whose engines are all out of service (R438): no fade, and the positions of the allowed tier. -/
def tiersQuiet (d : Device) (g : Nat) : Device :=
  let allowed := bitsOf (reg d Adr.COACH_GRP).toNat (2 * g) 2
  { d with tiers := (List.range 16).foldl (fun m i =>
      sparsePut tierRun m (16 * g + i) (if i % 4 ≤ allowed then ⟨0, .run⟩ else ⟨tierLen d g, .off⟩)) d.tiers }

/-- Whether no engine of a group was in service before the resumptions of this kickoff (R438). -/
def groupQuiet (d : Device) (g : Nat) : Bool :=
  (List.range 8).all (fun j => d.firstRally.contains (8 * g + j) || !Regions.live d.regions (8 * g + j))

/-- What the unit of a region does when its region resumes; `reloaded` says whether a record has been applied to the region
since it stopped. -/
def resumeUnit (d : Device) (r : Nat) (reloaded : Bool) : Device :=
  match regionClass r with
  | some 0 =>
    if getB d (F.ENG_HOLDER.VACANT r) then d else
    let n := holder d r
    let e := ag d n
    setAg d n { e with io := [], phase := .idle, role := r, genid := getF d (F.ENG_GEN.GEN r), bench := getB d (F.S_ENG.CTL.BENCH r) }
  | some 2 => sapResume d ⟨(r - 0x50) % 32, by omega⟩
  | some 3 => linkResume d ⟨(r - 0x70) % 8, by omega⟩
  | some 4 =>
    let m : Fin 16 := ⟨(r - 0x80) % 16, by omega⟩
    let f := fresh d
    setMix f.2 m { mixUnit f.2 m with lim := [], fill := tagOfCode (Config.freeTag f.1).toNat }
  | some 6 =>
    let t := descSinks d
    t.foldl (fun d e => selAbsent d e.2.sel) { d with sinks := t }
  | some 7 => queResume d
  | some 8 => clkResume d reloaded
  | some 10 => { d with asrcSpan := [], asrcLast := [] }
  | some 9 => { d with counting := false, coachReq := none }
  | some 11 => evtResume d
  | _ => d

/-- A region becomes RUNNING at count `n` of the COMMIT's domain `k` (R85). -/
def resumeRegion (d : Device) (r : Nat) (k : Fin 4) (n : Nat) (late : Bool) : Device :=
  let zero := rgnZero d r
  let own := if zero then Fade.into 0 else Fade.none
  let fades : Vector Fade 4 := Vector.ofFn (fun j =>
    if rgnTimed r then (if j = rgnDomain d r then own else .none)
    else if carriesAudio r then (if j = k then own else .resume)
    else .none)
  let quiet := match regionClass r with
    | some 0 => groupQuiet d (r / 8)
    | _ => false
  let d := if quiet then { tiersQuiet d (r / 8) with firstRally := r :: d.firstRally } else d
  resumeUnit (setRgn d r { rgn d r with st := .running, late := late, resumed := n % 2 ^ 32, resetDue := false, fades := fades }) r
    (!(rgn d r).resetDue)

/-- A region returned to EMPTY by the abandonment of a boot slot (R463): its fields and registers at reset (R25); an engine's rally is
given up. -/
def emptyRegion (d : Device) (r : Nat) : Device :=
  let d := unitReload (fieldsReset d r) r
  let x := rgn d r
  let d := setRgn d r { x with st := .empty, late := false, resetDue := false, stopMode := true, fades := Vector.replicate 4 .none }
  match regionClass r with
  | some 0 => if getB d (F.ENG_HOLDER.VACANT r) then d else setAg d (holder d r) { ag d (holder d r) with phase := .idle }
  | some 3 => linkSync d ⟨(r - 0x70) % 8, by omega⟩
  | some 7 => queResume d
  | some 8 =>
    let d := (List.finRange 4).foldl hoDrop (idleBits d)
    coachCheck ((List.range 4).foldl (fun (d : Device) (m : Nat) => if pllRuns d (2 + m) then d else pllMute d (2 + m)) d)
  | some 9 => coachCheck d
  | _ => d

end Sys2Proof.Machine
end

