-- ==== Sys2Proof/Machine/Records.lean ====
section
/-! DEFINITION. The loader (R58 to R75, R86 to R92): the record paths, the checks in their order, payloads written as they
arrive, COMMITs, batches and commanded loads. Path 0 is the boot load, 1 the commanded load, 2 queue 0. -/

namespace Sys2Proof.Machine

/-! ### A record's header (R58) -/

/-- The fields of a record header. -/
structure Header where
  type : Nat
  r : Nat
  kind : Nat
  q : Bool
  off : Nat
  sel : Nat
  len : Nat
  reserved : Bool
  deriving DecidableEq, Repr

/-- The header of three words. -/
def headerOf (w0 w1 w2 : Nat) : Header where
  type := w0 % 2 ^ 8
  r := w0 / 2 ^ 8 % 2 ^ 12
  kind := w0 / 2 ^ 24 % 4
  q := decide (w0 / 2 ^ 28 % 2 = 1)
  off := w1 % 2 ^ 20
  sel := w1 / 2 ^ 20 % 2 ^ 12
  len := w2 % 2 ^ 24
  reserved := decide (w0 / 2 ^ 20 % 16 ≠ 0 ∨ w0 / 2 ^ 26 % 4 ≠ 0 ∨ w0 / 2 ^ 29 % 8 ≠ 0 ∨ w2 / 2 ^ 24 % 2 ^ 8 ≠ 0)

/-- The header of the words taken of a record. -/
def headerIn (got : List Word) : Header := headerOf (got.getD 0 0).toNat (got.getD 1 0).toNat (got.getD 2 0).toNat

/-- Whether a type's payload is written as it arrives (R64). -/
def streams (h : Header) : Bool := decide (h.type = 3 ∨ h.type = 4)

/-- The class of a header's region; 16 is none. -/
def classIn (h : Header) : Nat := (regionClass h.r).getD 16

/-- Whether a record's target is the field block, or a COMMIT's or an END's carrier. -/
def isBlock (h : Header) : Bool := decide (h.type = 1 ∨ h.type = 5 ∨ h.type = 6) || (decide (h.type = 2) && decide (h.sel = 0))

/-- The table target of a header. -/
def headTarget (d : Device) (h : Header) : Option Target62 :=
  if isBlock h then (if h.sel = 0 then some ⟨classSize (classIn h), false, false, false⟩ else none)
  else targetFor d h.r (classIn h) (decide (h.type = 4)) h.sel

/-! ### The checks of R87 -/

/-- A failing check: its place in the order, and its code. -/
abbrev Failed := Nat × Nat

/-- The check of the length (R60, R61): a type's legal lengths. -/
def lengthCheck (h : Header) : List Failed :=
  let lo := if h.type = 2 then 2 else if h.type = 5 then 3 else if h.type = 6 then 1 else 0
  let hi := if h.type = 2 then 2 else if h.type = 5 then 259 else if h.type = 6 then 1 else 2 ^ 24
  if hi < h.len then [(9, Rej.lenOver)] else if h.len < lo then [(9, Rej.field)] else []

/-- Whether a region's state takes the record, or it waits or asks for QUIESCED (check 11, R81). -/
def stateCheck (d : Device) (h : Header) (t : Target62) : List Failed :=
  if h.type = 5 ∨ h.type = 6 then []
  else
    match (rgn d h.r).st with
    | .pending => [(11, Rej.notQuiesced)]
    | .running =>
      if h.q then (if mayQuiesce d h.r then [] else [(11, Rej.depend)])
      else if t.running then [] else [(11, Rej.notQuiesced)]
    | _ => []

/-- Checks 8 to 12 of a header whose region is present. -/
def targetChecks (d : Device) (h : Header) (count : Nat) : List Failed :=
  match headTarget d h with
  | none => [(8, Rej.target)]
  | some t =>
    (if h.kind ≠ 0 ∧ ¬ t.tagged then [(8, Rej.hdr)] else [])
      ++ lengthCheck h
      ++ (if h.type < 5 ∧ t.size < h.off + count then [(9, Rej.lenOver)] else [])
      ++ (if h.type = 4 ∧ (h.off % 2 = 1 ∨ h.len % 2 = 1) then [(10, Rej.align)] else [])
      ++ stateCheck d h t
      ++ (if (h.type = 5 ∨ h.type = 6) ∧ h.off ≠ 0 then [(12, Rej.field)] else [])

/-- Checks 4 to 12 of a header; `count` is the number of words of the target it covers. -/
def headChecks (d : Device) (h : Header) (count : Nat) : List Failed :=
  if h.type = 0 ∨ 7 ≤ h.type then [(4, Rej.type)]
  else if h.reserved then [(5, Rej.hdr)]
  else if regionClass h.r = none ∨ ((h.type = 5 ∨ h.type = 6) ∧ h.r ≠ 0xFF) ∨ (h.type = 4 ∧ 0x40 ≤ h.r) then [(6, Rej.region)]
  else if ¬ regionPresent d h.r then [(7, Rej.absent)]
  else targetChecks d h count

/-- The code of the failing check of lowest number. -/
def firstFailed : List Failed → Option Nat
  | [] => none
  | f :: fs =>
    match (firstFailedAt fs) with
    | none => some f.2
    | some g => if f.1 ≤ g.1 then some f.2 else some g.2
where
  /-- The failing check of lowest number. -/
  firstFailedAt : List Failed → Option Failed
    | [] => none
    | f :: fs =>
      match firstFailedAt fs with
      | none => some f
      | some g => if f.1 ≤ g.1 then some f else some g

/-! ### Table payloads (R63, R64) -/

/-- The key of a table target among a region's marks: its selector, from 0x10 for the program banks. -/
def markKey (h : Header) : Nat := if h.type = 4 then 0x10 + h.sel else h.sel

/-- The processor whose memories an engine region's records write: its holder. -/
def recEngine (d : Device) (r : Nat) : Option (Fin 68) := if getB d (F.ENG_HOLDER.VACANT r) then none else some (holder d r)

/-- One word of an engine's tables, in the holder and in a substitute that mirrors it (R475). -/
def putEngTable (d : Device) (h : Header) (i : Nat) (v : Word) : Device :=
  ((recEngine d h.r).toList ++ (mirrorOf d h.r).toList).foldl (fun d n =>
    let e := ag d n
    let t : TWord := ⟨v, tagOfCode h.kind⟩
    if h.type = 4 then
      setAg d n (if h.sel = 1 then { e with progShadow := sparsePut wordZero e.progShadow i v }
        else { e with prog := sparsePut wordZero e.prog i v })
    else if h.sel = 1 then putLocal d n i t
    else setAg d n { e with shadow := sparsePut cellUninit e.shadow i (cellOf t) }) d

/-- One word of a delay preload: the group's eight banks in order; a bank that is not ready takes none (R208). -/
def putPreload (d : Device) (h : Header) (i : Nat) (v : Word) : Device :=
  let w := (h.r - 0x40) * 0x100000 + i
  (hostDelayBlocked d .loader w (delayAddr w)).getD (putDelay d w ⟨v, tagOfCode h.kind⟩)
where
  /-- The device address of a delay word. -/
  delayAddr (w : Nat) : Nat := 4 * w

/-- One word of a table target. -/
def putTable (d : Device) (h : Header) (i : Nat) (v : Word) : Device :=
  match classIn h with
  | 0 => putEngTable d h i v
  | 1 => putPreload d h i v
  | 5 =>
    let u : Fin 16 := ⟨(h.r - 0x90) % 16, by omega⟩
    let x := d.spin[u]
    let y := if h.sel = 1 then { x with progShadow := sparsePut wordZero x.progShadow i v }
      else { x with tabShadow := sparsePut cellUninit x.tabShadow i (cellOf ⟨v, tagOfCode h.kind⟩) }
    { d with spin := d.spin.set u y }
  | 8 => { d with bands := sparsePut bandDflt d.bands (64 * (h.sel - 1) + i) v }
  | _ => d

/-- Words of a table target from word `i`. -/
def putTables (d : Device) (h : Header) : Nat → List Word → Device
  | _, [] => d
  | i, v :: vs => putTables (putTable d h i v) h (i + 1) vs

/-- Whether the payload of a passing header keeps the target's own field rules (R88), as the target stands after it:
`n` words from the record's offset. -/
def payloadOk (d : Device) (h : Header) (n : Nat) : Bool :=
  match classIn h, h.sel with
  | 5, 1 =>
    let x := d.spin[(⟨(h.r - 0x90) % 16, by omega⟩ : Fin 16)]
    (List.range n).all (fun i =>
      let p := (h.off + i) / 64
      spinWordOk (fun k => (sparseGet wordZero x.progShadow (64 * p + k)).toNat) ((h.off + i) % 64))
  | 8, s => (List.range n).all (fun i => bandWordOk (sparseGet bandDflt d.bands (64 * (s - 1) + h.off + i)).toNat)
  | _, _ => true

/-! ### Reporting -/

/-- A path's state. -/
def path (d : Device) (p : Fin 3) : LdrPath := d.ldr[p]

/-- A path's state replaced. -/
def setPath (d : Device) (p : Fin 3) (x : LdrPath) : Device := { d with ldr := d.ldr.set p x }

/-- A rejection of a record (R35, R87): the region's LASTCODE and REJECTED too, when it is present. -/
def recReject (d : Device) (p : Fin 3) (code r off : Nat) : Device :=
  let d := setF (reject d code (if p = 2 then 8 else 7) (r * 2 ^ 20 + off)) F.LDR_STAT.LASTCODE code
  if regionPresent d r then
    let x := rgn d r
    setRgn d r { x with lastCode := code, rejected := Nat.min (x.rejected + 1) 0xFFFF }
  else d

/-- APPLIED of a region. -/
def countApplied (d : Device) (r : Nat) : Device :=
  let x := rgn d r
  setRgn d r { x with applied := Nat.min (x.applied + 1) 0xFFFF }

/-- A record applied to a region: it counts, and the batch notes whether the region runs on. -/
def noteApplied (d : Device) (p : Fin 3) (r : Nat) : Device :=
  let d := countApplied d r
  let x := path d p
  setPath d p { x with applied := (r, decide ((rgn d r).st = .running)) :: x.applied, load := if x.load.contains r then x.load else r :: x.load }

/-- A target is marked incomplete (R64). -/
def markTarget (d : Device) (r key : Nat) : Device :=
  let x := rgn d r
  setRgn d r { x with marks := if x.marks.contains key then x.marks else key :: x.marks }

/-- A band table of a media PLL written while its region runs is not used: NOBAND (R64). -/
def bandSpoilt (d : Device) (key : Nat) : Device := setB d (F.CLK_PLLSTAT.NOBAND (key - 1)) true

/-- A record's target is left incomplete (R64): a shadow bank is marked; another target puts its region in INCOMPLETE. -/
def targetIncomplete (d : Device) (p : Fin 3) (h : Header) (shadow : Bool) : Device :=
  let d := markTarget d h.r (markKey h)
  if shadow then (if h.r = 0xA2 then bandSpoilt d (markKey h) else d)
  else
    let x := path d p
    incomplete (setPath d p { x with broken := h.r :: x.broken }) h.r

/-- Whether a region's mark is one of a shadow bank: S_RGN_STATE.SHADOW_BAD. -/
def shadowBad (d : Device) (r : Nat) : Bool :=
  (rgn d r).marks.any (fun k =>
    match regionClass r with
    | some 0 => decide (k = 2 ∨ k = 0x11)
    | some 5 => true
    | some 8 => decide (3 ≤ k) && Regions.live d.regions r
    | _ => false)

/-! ### Batches (R73, R74) -/

/-- The batch-open bit of a path. -/
def batchBit (d : Device) (p : Fin 3) (b : Bool) : Device :=
  let d := setPath d p { path d p with batch := b }
  if p = 1 then setB d F.LDR_STAT.BATCH b else if p = 2 then setB d F.LDR_STAT.Q0BATCH b else d

/-- A batch has ended: the next record begins another. -/
def batchClear (d : Device) (p : Fin 3) (passed : Bool) : Device :=
  let x := path d p
  let d := batchBit d p false
  setPath d p { LdrPath.reset with feed := x.feed, passed := passed, load := x.load }

/-- Pending COMMITs of a domain. -/
def commitsOf (d : Device) (k : Fin 4) : List Commit := d.commits[k]

/-- Pending COMMITs of a domain replaced, with their count in COMMIT_STAT. -/
def setCommits (d : Device) (k : Fin 4) (l : List Commit) : Device :=
  setF { d with commits := d.commits.set k l } (F.COMMIT_STAT.PEND k.val) l.length

/-- A COMMIT is cancelled: the regions it placed in PENDING return to the state they were in (R74). -/
def cancelCommit (d : Device) (c : Commit) : Device :=
  c.rlist.foldl (fun d r =>
    let x := rgn d r
    if x.st = .pending then setRgn d r { x with st := x.from_ } else d) d

/-- The held actions of a path are cancelled, with COMMIT_LATE.CANCEL (R74). -/
def cancelHeld (d : Device) (p : Fin 3) : Device :=
  (List.finRange 4).foldl (fun d k =>
    let mine := (commitsOf d k).filter (fun c => c.held && decide (c.path = p.val))
    if mine = [] then d
    else
      let d := setCommits d k ((commitsOf d k).filter (fun c => !(c.held && decide (c.path = p.val))))
      setF (mine.foldl cancelCommit d) ⟨Adr.COMMIT_LATE, 4 + k.val, 1⟩ 1) d

/-- A failed or aborted batch of a live load (R74, R92): of the regions it applied records to only one that stayed RUNNING
throughout keeps running. At boot the slot is unwound instead (R463). -/
def batchFail (d : Device) (p : Fin 3) : Device :=
  if p = 0 then batchClear d p false
  else
    let x := path d p
    let d := cancelHeld d p
    let d := x.applied.foldl (fun d e =>
      if x.applied.any (fun f => decide (f.1 = e.1) && !f.2) ∨ (rgn d e.1).st ≠ .running then incomplete d e.1 else d) d
    let d := x.shadows.foldl (fun d e =>
      let d := markTarget d e.1 e.2
      if e.1 = 0xA2 then bandSpoilt d e.2 else d) d
    raiseCtrl (batchClear d p false) 0x18B

/-! ### COMMIT (R66 to R72) -/

/-- The form of a COMMIT (R66, R67): reserved bits, the presence of the list, and the clock and global regions alone. -/
def commitForm (ps : List Nat) : Bool :=
  let p0 := ps.getD 0 0
  let p2 := ps.getD 2 0
  let rl := ps.drop 3
  decide (Nat.land p0 0x1F3 = p0 ∧ p2 < 2 ^ 24) && rl.all (fun e => decide (e < 2 ^ 12))
    && decide ((p0 / 2 ^ 7 % 2 = 1) ↔ rl ≠ [])
    && (!(rl.contains 0xA2 || rl.contains 0xFF)
        || (decide (rl.length = 1) && decide (p0 / 2 ^ 8 % 2 = 1 ∧ p0 / 2 ^ 4 % 8 = 0 ∧ p2 = 0)))

/-- The COMMIT of a payload that passes its form check. -/
def commitOf (d : Device) (p : Fin 3) (ps : List Nat) : Commit :=
  let p0 := ps.getD 0 0
  let p2 := ps.getD 2 0
  ⟨targetOf d (dom p0) (decide (p0 / 2 ^ 8 % 2 = 1)) (ps.getD 1 0), decide (p0 / 2 ^ 4 % 2 = 1), decide (p0 / 2 ^ 5 % 2 = 1),
    decide (p0 / 2 ^ 6 % 2 = 1), p2 % 2 ^ 8, p2 / 2 ^ 8 % 2 ^ 16, ps.drop 3, p.val, decide (p ≠ 0)⟩

/-- The engines whose banks a COMMIT may swap in domain `k` (R68). -/
def swapEngines (d : Device) (k : Fin 4) (mask : Nat) : List Nat :=
  (List.range (engCount d)).filter (fun n =>
    decide (mask / 2 ^ (n / 8) % 2 = 1) && decide (rgnDomain d n = k)
      && (let s := (rgn d n).st
          decide (s = .running ∨ s = .pending)))

/-- The Spin units whose banks a COMMIT may swap in domain `k` (R68). -/
def swapSpins (d : Device) (k : Fin 4) (mask : Nat) : List Nat :=
  (List.range (spinCount d)).filter (fun u =>
    decide (mask / 2 ^ u % 2 = 1) && decide (rgnDomain d (0x90 + u) = k)
      && (let s := (rgn d (0x90 + u)).st
          decide (s = .running ∨ s = .pending)))

/-- Whether a COMMIT would swap a bank marked incomplete (R72). -/
def swapsMarked (d : Device) (k : Fin 4) (c : Commit) : Bool :=
  (swapEngines d k c.egMask).any (fun n =>
    (c.coef && (rgn d n).marks.contains 2) || (c.prog && (rgn d n).marks.contains 0x11))
  || (c.spin && (swapSpins d k c.spinMask).any (fun u => (rgn d (0x90 + u)).marks ≠ []))

/-- The codes of R71 and R72 for a COMMIT in domain `k`. -/
def commitCode (d : Device) (k : Fin 4) (c : Commit) : Option Nat :=
  if 16 ≤ (commitsOf d k).length then some Rej.commitFull
  else if c.rlist.any (fun r => decide (regionClass r = none)) then some Rej.region
  else if c.rlist.any (fun r => !regionPresent d r)
      ∨ (List.range 8).any (fun g => decide (c.egMask / 2 ^ g % 2 = 1 ∧ engCount d ≤ 8 * g))
      ∨ (List.range 16).any (fun u => decide (c.spinMask / 2 ^ u % 2 = 1 ∧ spinCount d ≤ u)) then some Rej.absent
  else if c.rlist.any (fun r =>
      let s := (rgn d r).st
      !(decide (s = .empty ∨ s = .quiesced)) || (rgnTimed r && decide (rgnDomain d r ≠ k))) then some Rej.depend
  else
    let after := asResumed d c.rlist
    let after := if c.rlist.contains 0xA0 then { after with sinks := descSinks after } else after
    if swapsMarked after k c then some Rej.depend
    else
      let among := fun x s => c.rlist.contains 0xA0 ||
        (sinkRegion x).any (fun r => c.rlist.contains r) || (srcRegion s).any (fun r => c.rlist.contains r)
      firstCommitCode (c.rlist.flatMap (resumeCodes after)
        ++ need (selectsLegal after among) Rej.route ++ need (resOk d after) Rej.route)

/-- A region of an accepted COMMIT's list becomes PENDING (R72, R527). -/
def pendRegion (d : Device) (r : Nat) : Device :=
  let x := rgn d r
  if x.st = .pending then d else setRgn d r { x with st := .pending, from_ := x.st }

/-- Whether a COMMIT resumes region 0x0A2 or 0x0FF, and so waits for no kickoff (R67). -/
def immediate (c : Commit) : Bool := c.rlist.contains 0xA2 || c.rlist.contains 0xFF

/-- A COMMIT that waits for no kickoff applies. -/
def applyNow (d : Device) (k : Fin 4) (c : Commit) : Device :=
  c.rlist.foldl (fun d r => if (rgn d r).st = .pending then resumeRegion d r k (d.seen[k]) false else d) d

/-- An accepted COMMIT (R72, R74). -/
def acceptCommit (d : Device) (k : Fin 4) (c : Commit) : Device :=
  let d := c.rlist.foldl pendRegion d
  if immediate c ∧ ¬ c.held then applyNow d k c else setCommits d k (commitsOf d k ++ [c])

/-- The held actions of a path are released by its END (R74). -/
def releaseHeld (d : Device) (p : Fin 3) : Device :=
  (List.finRange 4).foldl (fun d k =>
    let freed := (commitsOf d k).map (fun c => if c.held ∧ c.path = p.val then { c with held := false } else c)
    let now := freed.filter (fun c => immediate c && !c.held)
    let d := setCommits d k (freed.filter (fun c => !(immediate c && !c.held)))
    now.foldl (fun d c => applyNow d k c) d) d

/-- A batch passes its END (R74, R86). -/
def batchPass (d : Device) (p : Fin 3) : Device :=
  let d := releaseHeld d p
  let x := path d p
  let d := x.applied.foldl (fun d e =>
    let y := rgn d e.1
    if y.st = .incomplete ∧ ¬ x.broken.contains e.1 then setRgn d e.1 { y with st := .quiesced } else d) d
  batchClear d p true

/-! ### Sources -/

/-- Words of the control-core memories from a word address. -/
def ccWords (d : Device) (w : Nat) (n : Nat) : List TWord := (List.range n).map (fun i => cellRead (ccCell d (w + i)))

/-- The next words of a path, at most `n`. -/
def available (d : Device) (p : Fin 3) (n : Nat) : List TWord :=
  if p = 2 then ((que d 0).words.take n).map cellRead
  else if p = 1 ∧ getB d F.LDR_CTL.SRC ∧ d.live.isNone then
    ccWords d (getF d F.LDR_SRC.ADDR / 4 + getF d F.LDR_POS.WORDS) (Nat.min n (d.cmdLeft.getD 0))
  else ((path d p).feed.take n).map (fun w => ⟨w, .sample⟩)

/-- `n` words of a path are consumed. -/
def consume (d : Device) (p : Fin 3) (n : Nat) : Device :=
  if p = 2 then (quePops d 0 n).1
  else
    let x := path d p
    let d := setPath d p { x with feed := x.feed.drop n }
    if p = 1 then setF { d with cmdLeft := d.cmdLeft.map (· - n) } F.LDR_POS.WORDS (getF d F.LDR_POS.WORDS + n)
    else { d with imgLeft := d.imgLeft - n }

/-- Words of a path's source that are left, where it has an end. -/
def remaining (d : Device) (p : Fin 3) : Option Nat := if p = 0 then some d.imgLeft else if p = 1 then d.cmdLeft else none

/-- Words are taken until the record in progress has `need` of them; whether a word was not tagged SAMPLE (check 1). -/
def gather (d : Device) (p : Fin 3) (need : Nat) : Device × Bool :=
  let x := path d p
  let ws := available d p (need - x.got.length)
  let good := if p = 2 then ws.takeWhile (fun w => decide (w.t = .sample)) else ws
  let bad := decide (good.length < ws.length)
  let d := consume d p (good.length + bad.toNat)
  let y := path d p
  (setPath d p { y with got := y.got ++ good.map (·.p) }, bad)

/-! ### A record's end -/

/-- A record is finished with: its words enter the batch CRC, and the next record may begin. -/
def closeRecord (d : Device) (p : Fin 3) : Device :=
  let x := path d p
  setPath d p { x with crc := crcRun x.crc x.got, got := [], judged := none, badField := false }

/-- How a record step ended: nothing happened, the record waits, it is finished with, its END failed, or it was aborted
with a code. -/
inductive RecEnd where
  | idle | wait | done | endFail | aborted (code : Nat)
  deriving DecidableEq, Repr

/-- The words of the payload written so far. -/
def payloadIn (x : LdrPath) (h : Header) : List Word := (x.got.drop 3).take h.len

/-- Whether a TABLE or PROGRAM record has written its target: its header passed and a payload word came. -/
def wrote (x : LdrPath) (h : Header) : Bool := decide (x.judged = some 0) && decide (payloadIn x h ≠ [])

/-- The record in progress of a path ends before its last word (R64): a target it has written is left incomplete. -/
def cutRecord (d : Device) (p : Fin 3) : Device :=
  let x := path d p
  let h := headerIn x.got
  if decide (3 ≤ x.got.length) && streams h && wrote x h then targetIncomplete d p h ((headTarget d h).any (·.shadow)) else d

/-- An abort of the record in progress (R64, R87, R91). -/
def abortRecord (d : Device) (p : Fin 3) (code : Nat) : Device × RecEnd :=
  let x := path d p
  let h := headerIn x.got
  let known := decide (3 ≤ x.got.length)
  let d := recReject d p code (if known then h.r else 0xFFF) (if known then h.off else 0)
  let d := batchFail (cutRecord d p) p
  let d := if p = 2 then (quePops (setB d F.LDR_STAT.Q0SYNC false) 0 (que d 0).words.length).1
    else if p = 1 then setB { d with cmdLeft := none } F.LDR_STAT.BUSY false else d
  (d, .aborted code)

/-- A whole record is rejected and skipped. -/
def skipRecord (d : Device) (p : Fin 3) (h : Header) (code : Nat) : Device × RecEnd :=
  (closeRecord (recReject d p code h.r h.off) p, .done)

/-! ### TABLE and PROGRAM records (R64, R88) -/

/-- The passing end of a TABLE or PROGRAM record: the region's reset if it is due, its counts, and its mark cleared; a
media band table written while the region runs is used at once by a PLL that runs (R305). -/
def streamApplied (d : Device) (p : Fin 3) (h : Header) : Device :=
  let d := noteApplied (reloadDue d h.r) p h.r
  let x := rgn d h.r
  let d := setRgn d h.r { x with marks := x.marks.filter (fun k => decide (k ≠ markKey h)) }
  if h.r = 0xA2 then bandLoaded d (markKey h - 1) else d

/-- The end of a TABLE or PROGRAM record, all of its words taken. -/
def streamEnd (d : Device) (p : Fin 3) (h : Header) : Device × RecEnd :=
  let x := path d p
  let shadow := (headTarget d h).any (·.shadow)
  if crcOf (x.got.take (h.len + 3)) ≠ x.got.getD (h.len + 3) 0 then abortRecord d p Rej.recCrc
  else
    match x.judged with
    | some 0 =>
      if payloadOk d h h.len then (closeRecord (streamApplied d p h) p, .done)
      else skipRecord (targetIncomplete d p h shadow) p h Rej.field
    | some c => skipRecord d p h c
    | none => (d, .wait)

/-- Payload words of a TABLE or PROGRAM record are taken and, when its header passed, written (R64). -/
def streamWords (d : Device) (p : Fin 3) (h : Header) : Device × RecEnd :=
  let had := (payloadIn (path d p) h).length
  let r := gather d p (h.len + 4)
  let x := path r.1 p
  let new := (payloadIn x h).drop had
  let shadow := (headTarget r.1 h).any (·.shadow)
  let d := if x.judged = some 0 ∧ new ≠ [] then
      let d := putTables r.1 h (h.off + had) new
      if shadow ∧ ¬ x.shadows.contains (h.r, markKey h) then
        setPath d p { path d p with shadows := (h.r, markKey h) :: x.shadows } else d
    else r.1
  if r.2 then abortRecord d p Rej.stream
  else if (path d p).got.length = h.len + 4 then streamEnd d p h
  else (d, .wait)

/-- A TABLE or PROGRAM record with its header taken (R88): the header is judged once, after any quiesce. -/
def streamStep (d : Device) (p : Fin 3) (h : Header) : Device × RecEnd :=
  match (path d p).judged with
  | some _ => streamWords d p h
  | none =>
    match firstFailed (headChecks d h h.len) with
    | some c => streamWords (setPath d p { path d p with judged := some c }) p h
    | none =>
      if (rgn d h.r).st = .quiescing then (d, .wait)
      else if (rgn d h.r).st = .running ∧ h.q then (quiesce d h.r, .wait)
      else streamWords (setPath d p { path d p with judged := some 0 }) p h

/-! ### WRITE, FILL, COMMIT and END records (R65) -/

/-- Words written into a region's field block. -/
def putBlock (d : Device) (r : Nat) : Nat → List Nat → Device
  | _, [] => d
  | w, v :: vs => putBlock (setReg d (srsAddr r w) (BitVec.ofNat 32 v)) r (w + 1) vs

/-- Whether a FILL keeps the field rules of a table target (R88). -/
def fillOk (d : Device) (h : Header) (v : Word) (n : Nat) : Bool := payloadOk (putTables d h h.off (List.replicate n v)) h n

/-- The failing checks of a whole record's payload (check 12). -/
def payloadChecks (d : Device) (h : Header) (ps : List Nat) : List Failed :=
  let size := classSize (classIn h)
  let block := fun vs : List Nat => (blockCodes d h.r (classIn h) h.off (vs.take (size - h.off))).map (fun c => (codeRank c, c))
  if ¬ regionPresent d h.r then []
  else if h.type = 1 then block ps
  else if h.type = 2 ∧ h.len = 2 then
    let n := ps.getD 1 0
    if h.sel = 0 then block (List.replicate (Nat.min n (size - h.off)) (ps.getD 0 0))
    else
      match headTarget d h with
      | none => []
      | some t => if h.off + n ≤ t.size ∧ ¬ fillOk d h (BitVec.ofNat 32 (ps.getD 0 0)) n then [(12, Rej.field)] else []
  else if h.type = 5 ∧ 3 ≤ h.len ∧ h.len ≤ 259 then (if commitForm ps then [] else [(12, Rej.field)])
  else []

/-- The code of a whole record that fails a check from 4 to 13. -/
def heldCode (d : Device) (p : Fin 3) (h : Header) (ps : List Nat) : Option Nat :=
  let count := if h.type = 2 then ps.getD 1 0 else h.len
  match firstFailed (headChecks d h count ++ (if h.type = 0 ∨ 7 ≤ h.type ∨ h.reserved then [] else payloadChecks d h ps)) with
  | some c => some c
  | none => if h.type = 5 then commitCode d (dom (ps.getD 0 0)) (commitOf d p ps) else none

/-- A WRITE or FILL that passes (R60, R61, R80). -/
def applyWrite (d : Device) (p : Fin 3) (h : Header) (ps : List Nat) : Device :=
  let d := reloadDue d h.r
  let shadow := (headTarget d h).any (·.shadow)
  let d :=
    if h.type = 1 then putBlock d h.r h.off ps
    else if h.sel = 0 then putBlock d h.r h.off (List.replicate (ps.getD 1 0) (ps.getD 0 0))
    else
      let d := putTables d h h.off (List.replicate (ps.getD 1 0) (BitVec.ofNat 32 (ps.getD 0 0)))
      let d := if h.r = 0xA2 then bandLoaded d (h.sel - 1) else d
      if shadow then setPath d p { path d p with shadows := (h.r, markKey h) :: (path d p).shadows } else d
  noteApplied d p h.r

/-- A WRITE, FILL, COMMIT or END record whose CRC holds. The Q bit of a COMMIT or an END is ignored: its carrier region 0x0FF
is not quiesced (DESIGN CHOICE, log 83). -/
def heldEnd (d : Device) (p : Fin 3) (h : Header) : Device × RecEnd :=
  let x := path d p
  let ps := (payloadIn x h).map (·.toNat)
  match heldCode d p h ps with
  | some c => skipRecord d p h c
  | none =>
    if h.type = 6 then
      if ps.getD 0 0 = (~~~ x.crc).toNat then (batchPass (countApplied d h.r) p, .done)
      else (batchFail (recReject d p Rej.imageCrc h.r h.off) p, .endFail)
    else if h.type = 5 then
      (closeRecord (acceptCommit (countApplied d h.r) (dom (ps.getD 0 0)) (commitOf d p ps)) p, .done)
    else if (rgn d h.r).st = .quiescing then (d, .wait)
    else if (rgn d h.r).st = .running ∧ h.q then (quiesce d h.r, .wait)
    else (closeRecord (applyWrite d p h ps) p, .done)

/-- A WRITE, FILL, COMMIT or END record, or one of an undefined type, with its header taken. -/
def heldStep (d : Device) (p : Fin 3) (h : Header) : Device × RecEnd :=
  let r := gather d p (h.len + 4)
  if r.2 then abortRecord r.1 p Rej.stream
  else
    let x := path r.1 p
    if x.got.length < h.len + 4 then (r.1, .wait)
    else if crcOf (x.got.take (h.len + 3)) ≠ x.got.getD (h.len + 3) 0 then abortRecord r.1 p Rej.recCrc
    else heldEnd r.1 p h

/-! ### One record of a path -/

/-- Whether a path has a record for the loader, in progress or to begin (R90). -/
def pathWaits (d : Device) (p : Fin 3) : Bool :=
  if p = 1 then d.cmdLeft.any (fun n => decide (0 < n)) || decide ((path d 1).got ≠ [])
  else getB d F.LDR_CTL.Q0EN && getB d F.LDR_STAT.Q0SYNC && (decide ((que d 0).words ≠ []) || decide ((path d 2).got ≠ []))

/-- Whether the loader serves a path: it runs, no record of another path is in progress, and the path does not begin a second
record while the other waits for one: the two alternate at record boundaries (R90). -/
def pathServed (d : Device) (p : Fin 3) : Bool :=
  if p = 0 then true
  else
    let booting := decide (getF d F.BOOT_STAT.PHASE = 1)
    let turn := fun o : Fin 3 => decide ((path d p).got ≠ []) || decide (d.lastPath ≠ some p) || !pathWaits d o
    if p = 1 then d.cmdLeft.isSome && decide ((path d 2).got = []) && !booting && turn 2
    else getB d F.LDR_CTL.Q0EN && decide ((path d 1).got = []) && !booting && turn 1

/-- The header of the record in progress is taken; then the record goes on by its type. -/
def recordBody (d : Device) (p : Fin 3) : Device × RecEnd :=
  let d := if (path d p).batch then d else batchBit d p true
  if (path d p).got = [] ∧ (remaining d p).any (fun n => decide (n < 4)) then abortRecord d p Rej.lenOver
  else
    let r := gather d p 3
    if r.2 then abortRecord r.1 p Rej.stream
    else
      let x := path r.1 p
      let h := headerIn x.got
      if x.got.length < 3 then (r.1, .wait)
      else if (remaining r.1 p).any (fun n => decide (n + x.got.length < h.len + 4)) then abortRecord r.1 p Rej.lenOver
      else if streams h then streamStep r.1 p h else heldStep r.1 p h

/-- The type of the record in progress, or of the next one. -/
def nextType (d : Device) (p : Fin 3) : Option Nat :=
  match (path d p).got with
  | w :: _ => some (w.toNat % 2 ^ 8)
  | [] => ((available d p 1)[0]?).map (fun w => w.p.toNat % 2 ^ 8)

/-- A commanded load's ABORT takes place at a record boundary (R74, R92). -/
def abortLoad (d : Device) : Device :=
  let d := batchFail { d with cmdAbort := false, cmdLeft := none } 1
  setB d F.LDR_STAT.BUSY false

/-- After a record, an ABORT that waited for its boundary. -/
def atBoundary (d : Device) (p : Fin 3) : Device :=
  if p = 1 ∧ d.cmdAbort ∧ (path d 1).got = [] ∧ d.cmdLeft.isSome then abortLoad d else d

/-- One step of the record in progress of a path, when its type is one of those wanted. After an abort on queue 0 its
words are discarded (R91). -/
def recordStep (d : Device) (p : Fin 3) (want : Nat → Bool) : Device × RecEnd :=
  if ¬ pathServed d p then (d, .idle)
  else if p = 2 ∧ ¬ getB d F.LDR_STAT.Q0SYNC then ((quePops d 0 (que d 0).words.length).1, .idle)
  else
    match nextType d p with
    | none => (d, .idle)
    | some t =>
      if want t then
        let r := recordBody d p
        let d := if r.2 = .wait then r.1 else { r.1 with lastPath := some p }
        (atBoundary d p, r.2)
      else (d, .idle)

/-- Words that a flash source supplies to the commanded load (R90). -/
def supplyFlash (d : Device) (ws : List Word) : Device :=
  if getB d F.LDR_CTL.SRC ∨ d.live.isSome then d
  else
    let x := path d 1
    setPath d 1 { x with feed := (x.feed ++ ws).take (d.cmdLeft.getD 0) }

/-- A record row: the next record of a path, with the words its source supplies if that is the flash. -/
def recordRow (d : Device) (p : Fin 3) (ws : List Word) (want : Nat → Bool) : Device :=
  (recordStep (if p = 1 then supplyFlash d ws else d) p want).1

/-! ### Commanded loads and queue 0 (R75, R90 to R92) -/

/-- The end of the flash slot or control-core memory that holds a load address; none is no such memory. -/
def loadLimit (src : Bool) (a : Nat) : Option Nat :=
  if src then
    (if 0x18000000 ≤ a ∧ a < 0x18100000 then some (a / 0x40000 * 0x40000 + 0x40000)
     else if 0x18100000 ≤ a ∧ a < 0x18200000 then some 0x18200000 else none)
  else if a < 0x2000000 then some 0x2000000
  else if a < 0x4000000 then some 0x4000000 else none

/-- LDR_CTL.GO (R90, LDR_LEN). -/
def ldrGo (d : Device) (q : Req) : Device :=
  let a := getF d F.LDR_SRC.ADDR / 4 * 4
  let n := getF d F.LDR_LEN.WORDS
  if getB d F.LDR_STAT.BUSY ∨ getF d F.BOOT_STAT.PHASE = 1 ∨ d.live.isSome then rejectReq d Rej.busy q Adr.LDR_CTL
  else
    match loadLimit (getB d F.LDR_CTL.SRC) a with
    | none => rejectReq d Rej.field q Adr.LDR_CTL
    | some lim =>
      if lim < a + 4 * n then rejectReq d Rej.lenOver q Adr.LDR_CTL
      else
        let d := setPath { d with cmdLeft := some n, cmdAbort := false } 1 LdrPath.reset
        setF (setB d F.LDR_STAT.BUSY true) F.LDR_POS.WORDS 0

/-- LDR_CTL.ABORT: at the record boundary. -/
def ldrAbort (d : Device) : Device :=
  if d.cmdLeft.isSome ∧ d.live.isNone then atBoundary { d with cmdAbort := true } 1 else d

/-- A write of LDR_CTL: the source and Q0EN, then ABORT, then GO. -/
def ldrCtl (d : Device) (q : Req) (v : Nat) : Device :=
  let d := setB (setB d F.LDR_CTL.SRC (decide (v / 4 % 2 = 1))) F.LDR_CTL.Q0EN (decide (v / 2 ^ 8 % 2 = 1))
  let d := if v / 2 % 2 = 1 then ldrAbort d else d
  if v % 2 = 1 then ldrGo d q else d

/-- COMMANDED_LOAD_END (R75, R92): the source of a commanded load is used up at a record boundary; without a final END, as in
a load of no words, its batch has failed. -/
def loadEnd (d : Device) : Device :=
  if d.cmdLeft = some 0 ∧ (path d 1).got = [] ∧ d.live.isNone then
    let d := { d with cmdLeft := none }
    let d := setB d F.LDR_STAT.BUSY false
    if (path d 1).batch ∨ getF d F.LDR_POS.WORDS = 0 then batchFail (recReject d 1 Rej.imageCrc 0xFF 0) 1
    else if (path d 1).passed then raiseCtrl d 0x18A else d
  else d

/-- QUEUE0_GAP_TIMEOUT (R87 check 1): a gap inside a record on queue 0 longer than LDR_Q0TIMEOUT. -/
def gapTimeout (d : Device) : Device :=
  let x := path d 2
  let stalled := decide (3 ≤ x.got.length) && decide ((rgn d (headerIn x.got).r).st = .quiescing)
  let us := getF d F.LDR_Q0TIMEOUT.US
  if x.got ≠ [] ∧ ¬ stalled ∧ us ≠ 0 ∧ us * 1000 < d.q0Ns then (abortRecord d 2 Rej.stream).1 else d

/-- A flush of queue 0 (R91): a record inside it is aborted, its open batch fails, and a new batch begins in step. -/
def loaderResync (d : Device) : Device :=
  let d := if (path d 2).got ≠ [] then (abortRecord d 2 Rej.stream).1
    else if (path d 2).batch then batchFail d 2 else d
  batchClear (setB d F.LDR_STAT.Q0SYNC true) 2 false

end Sys2Proof.Machine
end

