-- ==== Sys2Proof/Machine/Coach.lean ====
section
/-! DEFINITION. The voltage and frequency sequencer (R431 to R434) and the Coach (R437 to R446). -/

namespace Sys2Proof.Machine

/-! ### The sequencer (R431 to R434) -/

/-- The frequency index in force. -/
def fidx (d : Device) : Nat := getF d F.PWR_DVFSSTAT.FIDX

/-- The confirmed voltage index. -/
def vidx (d : Device) : Nat := getF d F.PWR_DVFSSTAT.VIDX

/-- Whether an engine role's region is RUNNING, PENDING or QUIESCING. -/
def roleServed (d : Device) (r : Nat) : Bool :=
  let s := (rgn d r).st
  decide (s = .running ∨ s = .pending ∨ s = .quiescing)

/-- The highest tier of a group that runs in a domain (R174). -/
def topTier (d : Device) (g : Nat) (k : Fin 4) : Nat :=
  (List.range 4).foldl (fun m t => if tierRuns (tierOf d g k t) then t else m) 0

/-- The test fit(n) of R443 with the highest tier of each role given. -/
def fits (d : Device) (n : Nat) (tier : Nat → Nat) : Bool :=
  decide (floorOpp d ≤ n) && (List.range (engCount d)).all (fun r =>
    !roleServed d r || decide (passlen d r (tier r) ≤ budgetAt d (rateFs d (rgnDomain d r)) n))

/-- The highest tier that runs for a role (R443). -/
def roleTier (d : Device) (r : Nat) : Nat := topTier d (r / 8) (rgnDomain d r)

/-- The steps of a request (R432): kind 0 OPP, 1 voltage only, 2 frequency only; steps that change nothing are skipped. -/
def dvfsSteps (d : Device) (kind n : Nat) : List DvfsStep :=
  let f := if n = fidx d then [] else [DvfsStep.freq n]
  let v := if n = vidx d then [] else [DvfsStep.volt n]
  if kind = 1 then v
  else if kind = 2 then f
  else if n < fidx d then f ++ v
  else if vidx d < n then v ++ f
  else f ++ v

/-- The code with which a request is rejected (R415, R432); none is accepted. -/
def dvfsCode (d : Device) (kind n : Nat) : Option Nat :=
  if getB d F.PWR_DVFSSTAT.BUSY ∨ ¬ awake d then some Rej.busy
  else if (kind = 1 ∧ n < fidx d) ∨ (kind = 2 ∧ vidx d < n) then some 0x15
  else if kind ≠ 1 ∧ n ≠ fidx d ∧ ¬ fits d n (roleTier d) then some Rej.tierFit
  else none

/-- A sequence has ended: BUSY clears, and a Coach request reports it (R446). -/
def dvfsEnd (d : Device) : Device :=
  let d := setB { d with dvfs := [] } F.PWR_DVFSSTAT.BUSY false
  if d.dvfsCoach then raiseEv { d with dvfsCoach := false } 0x1C6 else d

/-- The sequence goes on up to its next voltage step: a frequency step takes place at once (R302, R432). -/
def dvfsRun : List DvfsStep → Device → Device
  | [], d => dvfsEnd d
  | .freq n :: l, d => dvfsRun l (setF d F.PWR_DVFSSTAT.FIDX n)
  | .volt n :: l, d => setB { d with dvfs := .volt n :: l } F.PWR_DVFSSTAT.BUSY true

/-- A request of a requester (R432, R446): kind and target. -/
def dvfsRequest (d : Device) (q : Req) (kind n : Nat) : Device :=
  if Regions.eff d.regions 0xA3 = .running ∧ getF d F.COACH_CTL.MODE ≠ 1 then rejectReq d Rej.busy q Adr.PWR_DVFSREQ
  else
    match dvfsCode d kind n with
    | none => dvfsRun (dvfsSteps d kind n) d
    | some c =>
      let d := rejectReq d c q Adr.PWR_DVFSREQ
      if c = 0x15 then raiseEv (incF d F.PWR_DVFSSTAT.ORDERERR) 0x1C2 else d

/-- VOLTAGE_CONFIRM (R433): a READ_VOUT in mV; within TOL of the target VIDX takes the new value. -/
def voltageRead (d : Device) (mv : Nat) : Device :=
  match d.dvfs with
  | .volt n :: l =>
    let d := setF d F.PWR_PMBSTAT.VOUT mv
    let t := getF d (F.PWR_VOPP.MV n)
    let tol := getF d F.PWR_PMBCFG.TOL
    if mv ≤ t + tol ∧ t ≤ mv + tol then dvfsRun l (setF d F.PWR_DVFSSTAT.VIDX n) else d
  | _ => d

/-- VOLTAGE_STEP_FAIL (R434), with the STATUS_WORD then read. -/
def voltageFail (d : Device) (why : VFail) (status : Nat) : Device :=
  match d.dvfs with
  | .volt n :: _ =>
    let d := setF d F.PWR_PMBSTAT.STATUS status
    let d := match why with
      | .settle => d
      | .nack => setB d F.PWR_PMBSTAT.NACK true
      | .clockLow => setB d F.PWR_PMBSTAT.TIMEOUT true
    let d := setF d F.PWR_DVFSSTAT.VIDX (Nat.min (vidx d) n)
    dvfsEnd (raiseEv (setB d F.PWR_DVFSSTAT.FAIL true) 0x1C2)
  | _ => d

/-! ### Weights, trims and sensors (R439, R441) -/

/-- The energy weights and trims in use. -/
structure CoachCal where
  pbase : Nat
  ldbl : Nat
  leak : List Nat
  w : List Nat
  trim : List Int
  deriving DecidableEq, Repr

/-- What the Coach uses when the block fails its checks. -/
def CoachCal.dflt : CoachCal := ⟨2000, 20, [200, 280, 400, 700], List.replicate 8 0x100, List.replicate 12 0⟩

/-- Whether the block of weights and trims passes its checks (R441). -/
def coachBlockOk (d : Device) : Bool :=
  let pl := secAt d 0x9004
  decide (secAt d 0x9000 = 0x43480001)
    && decide ((crcOf ((List.range 26).map (fun i => BitVec.ofNat 32 (secAt d (0x9000 + 4 * i))))).toNat = secAt d 0x9068)
    && decide (5 ≤ pl / 2 ^ 16 % 2 ^ 8 ∧ pl / 2 ^ 16 % 2 ^ 8 ≤ 40 ∧ pl / 2 ^ 24 = 0)
    && (List.range 24).all (fun i => decide (secAt d (0x9008 + 4 * i) < 2 ^ 16))

/-- The weights and trims in use (R441). -/
def coachCal (d : Device) : CoachCal :=
  if coachBlockOk d then
    { pbase := secAt d 0x9004 % 2 ^ 16
      ldbl := secAt d 0x9004 / 2 ^ 16 % 2 ^ 8
      leak := (List.range 4).map (fun n => secAt d (0x9008 + 4 * n))
      w := (List.range 8).map (fun k => secAt d (0x9018 + 4 * k))
      trim := (List.range 12).map (fun n => (BitVec.ofNat 16 (secAt d (0x9038 + 4 * n))).toInt) }
  else CoachCal.dflt

/-- Whether a sensor is present: those of absent engine groups are not (R439). -/
def sensorOn (d : Device) (n : Nat) : Bool := decide (8 ≤ n) || decide (8 * n < engCount d)

/-- THERMAL_SENSOR_CONVERSION (R439): the twelve readings as converted; each is stored with its trim. -/
def thermalConvert (d : Device) (raw : List Int) : Device :=
  let trim := (coachCal d).trim
  (List.range 12).foldl (fun d n =>
    setF d (F.COACH_TS.T n) (if sensorOn d n then (BitVec.ofInt 16 (raw.getD n 0 + trim.getD n 0)).toNat else 0)) d

/-- A trimmed reading in units of 1/16 °C. -/
def sensorTemp (d : Device) (n : Nat) : Int := (BitVec.ofNat 16 (getF d (F.COACH_TS.T n))).toInt

/-- T_hot with the sensor that gives it: the lowest-numbered of the hottest. -/
def hottest (d : Device) : Int × Nat :=
  ((List.range 12).filter (sensorOn d)).foldl (fun h n => if h.1 < sensorTemp d n then (sensorTemp d n, n) else h)
    (if sensorOn d 0 then (sensorTemp d 0, 0) else (sensorTemp d 8, 8))

/-! ### The power model (R440) -/

/-- Sets per SETLEN kickoffs. -/
def setLen (d : Device) : Nat := Nat.max 1 (getF d (F.S_COACH.CTL.SETLEN 0xA3))

/-- The set domain. -/
def setDom (d : Device) : Fin 4 := dom (getF d (F.S_COACH.CTL.SETDOM 0xA3))

/-- Σ w[k] · c[k] in units of 1/16 pJ; `link` and `sap` are the counts of classes 5 and 6. -/
def energy (d : Device) (link sap : Nat) : Nat :=
  ((coachCal d).w.zip (List.range 8)).foldl (fun s e =>
    s + e.1 * (if e.2 = 5 then link else if e.2 = 6 then sap else sparseGet natZero d.act e.2)) 0

/-- pdyn in mW. -/
def powerDyn (d : Device) (link sap : Nat) : Nat :=
  let v := getF d (F.PWR_VOPP.MV (vidx d))
  energy d link sap * v * v * rateFs d (setDom d) / (16 * 850 * 850 * setLen d * 10 ^ 9)

/-- pleak in mW: 2^x by the EXP2 approximation of R224. -/
def powerLeak (d : Device) (thot : Int) : Nat :=
  let c := coachCal d
  let x := (thot - 1360) * 2 ^ 26 / (16 * (Nat.max 1 c.ldbl : Nat) : Int)
  let e := x / 2 ^ 26
  let m := c.leak.getD (vidx d) 0 * (2 ^ 26 + (x - e * 2 ^ 26).toNat)
  if 0 ≤ e then m * 2 ^ e.toNat / 2 ^ 26 else m / 2 ^ (26 + (-e).toNat)

/-! ### The level (R442) -/

/-- tlev of a temperature in 1/16 °C. -/
def tlev (tbase tstep : Nat) (x : Int) : Nat :=
  if x ≤ 16 * (tbase : Int) then 0 else Nat.min 15 (((x - 16 * (tbase : Int)) / (16 * (tstep : Int))).toNat + 1)

/-- A level with the terms a decision leaves. -/
structure CoachLevel where
  level : Nat
  dwell : Nat
  tl : Nat
  pl : Nat
  hot : Bool
  deriving DecidableEq, Repr

/-- One decision (R442). In mode FORCE (2) want is FLEV, and the hysteresis and dwell terms are ignored. -/
def coachLevel (mode flev tbase tstep thyst dwellN tcrit pbudget physt : Nat) (thot : Int) (p : Nat) (x : CoachLevel) :
    CoachLevel :=
  let force := decide (mode = 2)
  let tl := tlev tbase tstep thot
  let fall := tlev tbase tstep (thot + 16 * (thyst : Int))
  let pl :=
    if pbudget < p then Nat.min 15 (x.pl + 1)
    else if (if force then p < pbudget else p + physt < pbudget ∧ x.dwell = 0) then x.pl - 1
    else x.pl
  let want := if force then flev else Nat.max tl pl
  if 16 * (tcrit : Int) ≤ thot then ⟨15, dwellN, tl, pl, true⟩
  else if force then ⟨want, x.dwell, tl, pl, false⟩
  else if x.level < want then ⟨want, dwellN, tl, pl, false⟩
  else if Nat.max fall pl < x.level ∧ x.dwell = 0 then ⟨x.level - 1, dwellN, tl, pl, false⟩
  else ⟨x.level, x.dwell - 1, tl, pl, false⟩

/-! ### Tiers and operating point (R444, R445) -/

/-- The highest t ≤ m for which a condition holds; 0 when none does. -/
def highestTier (ok : Nat → Bool) : Nat → Nat
  | 0 => 0
  | m + 1 => if ok (m + 1) then m + 1 else highestTier ok m

/-- The allowed tier of a group at a level (R444). -/
def allowedTier (d : Device) (g level : Nat) : Nat :=
  let m := getF d (F.S_COACH.LEVMAP.MAXT 0xA3 g level)
  let roles := (List.range 8).map (fun j => 8 * g + j)
  if roles.any (roleServed d) then
    highestTier (fun t => roles.all (fun r =>
      !roleServed d r || decide (passlen d r t ≤ budgetAt d (rateFs d (rgnDomain d r)) (fidx d)))) m
  else m

/-- The request a decision makes (R445): the target, and the tiers that run together with those newly allowed. -/
def coachTarget (d : Device) (target : Nat) (allowed : Nat → Nat) : Option Nat :=
  if fidx d < target ∨ vidx d < target then some target
  else if target < fidx d then
    ((List.range (fidx d - target)).map (fun i => target + i)).find? (fun o =>
      fits d o (fun r => Nat.max (roleTier d r) (allowed (r / 8))))
  else none

/-- The decision's level put into COACH_STAT, with its events (R442). -/
def putLevel (d : Device) (old new : CoachLevel) : Device :=
  let d := setF (setF (setF (setF d F.COACH_STAT.LEVEL new.level) F.COACH_STAT.TL new.tl) F.COACH_STAT.PL new.pl)
    F.COACH_STAT.DWELL new.dwell
  let d := setB d F.COACH_STAT.HOT new.hot
  let d := if old.level = new.level then d else raiseEv d 0x1C5
  if new.hot then raiseEv d 0x1C7 else d

/-- The operating-point request for the next set. -/
def askOpp (d : Device) (n : Option Nat) : Device := { d with coachReq := n }

/-- What a decision at a level leads to: the allowed tiers, TARGET and the request for the set's first kickoff. -/
def putTiers (d : Device) (level : Nat) : Device :=
  let groups := (List.range 8).filter (fun g => decide (8 * g < engCount d))
  let allowed := fun g => allowedTier d g level
  let target := Nat.max (floorOpp d) (getF d (F.S_COACH.OPPCAP.CAP 0xA3 level))
  let req := coachTarget d target allowed
  let e := groups.foldl (fun e g => setF e (F.COACH_GRP.MAXT g) (allowed g)) d
  askOpp (setF e F.COACH_STAT.TARGET target) req

/-- Whether the latest kickoff of the set domain is the last of a set that has no decision yet (R437). -/
def decisionDue (d : Device) : Bool :=
  coachDecides d && d.counting && !d.decided && decide ((d.seen[setDom d] + 1) % setLen d = 0)

/-- COACH_DECISION (R437 to R445): `link` counts the 66-bit blocks of links that are UP, `sap` the bit clocks of running
ports, since the set began. -/
def coachDecide (d : Device) (link sap : Nat) : Device :=
  if ¬ decisionDue d then d
  else
    let d := { d with decided := true }
    let h := hottest d
    let tcrit := getF d F.COACH_TCRIT.C
    if getF d F.COACH_CTL.MODE = 1 ∧ h.1 < 16 * (tcrit : Int) then d
    else
      let leak := powerLeak d h.1
      let p := powerDyn d link sap + leak + (coachCal d).pbase
      let old : CoachLevel := ⟨getF d F.COACH_STAT.LEVEL, getF d F.COACH_STAT.DWELL, getF d F.COACH_STAT.TL,
        getF d F.COACH_STAT.PL, getB d F.COACH_STAT.HOT⟩
      let new := coachLevel (getF d F.COACH_CTL.MODE) (getF d F.COACH_CTL.FLEV) (getF d (F.S_COACH.THERM.TBASE 0xA3))
        (getF d (F.S_COACH.THERM.TSTEP 0xA3)) (getF d (F.S_COACH.THERM.THYST 0xA3)) (getF d (F.S_COACH.THERM.DWELL 0xA3))
        tcrit (getF d F.COACH_BUDGET.PBUDGET) (getF d F.COACH_BUDGET.PHYST) h.1 p old
      let d := setF (setF d F.COACH_PWR.P (Nat.min 0xFFFF p)) F.COACH_PWR.PLEAK (Nat.min 0xFFFF leak)
      let d := setF (setF d F.COACH_THOT.T (BitVec.ofInt 16 h.1).toNat) F.COACH_THOT.SENSOR h.2
      putTiers (putLevel d old new) new.level

/-! ### A set's first kickoff (R172, R173, R245, R437) -/

/-- What an unlisted group's allowed tier reads as: 3, before any decision. -/
def maxtThree (_ : Nat) : Nat := 3

/-- The highest tier a group may run in the current set of a domain (R172, R438). -/
def setTier (d : Device) (k : Fin 4) (g : Nat) : Nat :=
  if engCount d ≤ 8 * g then 0
  else if coachDecides d ∧ d.counting then sparseGet maxtThree d.setMaxt (8 * k.val + g)
  else getF d (F.COACH_GRP.MAXT g)

/-- Whether a group has an engine in service. -/
def groupServed (d : Device) (g : Nat) : Bool := (List.range 8).any (fun j => roleServed d (8 * g + j))

/-- A tier of a group replaced. -/
def putTier (d : Device) (g : Nat) (k : Fin 4) (t : Nat) (x : TierFade) : Device :=
  { d with tiers := sparsePut tierRun d.tiers (16 * g + 4 * k.val + t) x }

/-- A tier's step at a kickoff while the Coach does not decide (R174, R438): a fade in progress goes on and none starts, so
that apart from fades the tiers that run are those the kept allowed tier `maxt` allows. -/
def tierKept (f maxt t : Nat) (x : TierFade) : TierFade :=
  match x.mode with
  | .out => tierStep f x
  | .into => tierStep f x
  | .run => if t ≤ maxt then ⟨0, .run⟩ else ⟨f, .off⟩
  | .off => if t ≤ maxt then ⟨0, .run⟩ else ⟨f, .off⟩

/-- The tiers of a group at a kickoff of a domain; `first` is a set's first kickoff. -/
def groupKick (d : Device) (k : Fin 4) (first : Bool) (g : Nat) : Device :=
  let f := tierLen d g
  let m := setTier d k g
  (List.range 4).foldl (fun d t =>
    let x := tierOf d g k t
    putTier d g k t (if ¬ groupServed d g then (if t ≤ m then ⟨0, .run⟩ else ⟨f, .off⟩)
      else if first then tierSet f m t x
      else if coachDecides d ∧ d.counting then tierStep f x
      else tierKept f m t x)) d

/-- A set begins in a domain: the Coach's decision takes effect there. -/
def setBegin (d : Device) (k : Fin 4) : Device :=
  { d with
    setDue := d.setDue.set k false
    setMaxt := (List.range 8).foldl (fun m g => sparsePut maxtThree m (8 * k.val + g) (getF d (F.COACH_GRP.MAXT g))) d.setMaxt }

/-- The Coach's request is issued (R445, R446); one that is rejected is made again at the next set. -/
def coachIssue (d : Device) : Device :=
  match d.coachReq with
  | none => d
  | some n =>
    match dvfsCode d 0 n with
    | none => dvfsRun (dvfsSteps d 0 n) { d with coachReq := none, dvfsCoach := true }
    | some c => raiseEv (incF d (if c = Rej.tierFit then F.COACH_REFUSE.FIT else F.COACH_REFUSE.BUSY)) 0x1C6

/-- The set's beginnings at kickoff `n` of a domain (R437, R440): the device, and whether a set begins there. -/
def setStart (d : Device) (k : Fin 4) (n : Nat) : Device × Bool :=
  if ¬ coachDecides d then ({ d with counting := false, setDue := Vector.replicate 4 false }, false)
  else if k = setDom d ∧ n % setLen d = 0 then
    let d := { d with counting := true, decided := false, act := [], setDue := Vector.ofFn (fun j => decide (j ≠ k)) }
    (setBegin (coachIssue d) k, true)
  else if d.setDue[k] then (setBegin d k, true)
  else (d, false)

/-- Every group's tiers at a kickoff. -/
def tiersKick (d : Device) (k : Fin 4) (first : Bool) : Device := (List.range 8).foldl (fun d g => groupKick d k first g) d

end Sys2Proof.Machine
end

