-- ==== Sys2Proof/Machine/EngineFlow.lean ====
section
/-! DEFINITION. Flow control, control registers and the words of control cores (R105, R117, R125, R126, R137, R151 to
R154, R169, R175, R371 to R381). -/

namespace Sys2Proof.Machine

/-! ### The return stack (R125) -/

/-- Whether the processor's return stack traps (S_ENG.CTL.RSMODE, S_EVT.CTL.RSMODE). -/
def rsTraps (d : Device) (n : Fin 68) : Bool :=
  if isCc n then decide ((reg d (Adr.S_EVT.CTL 0xA5)).toNat % 2 = 1) else decide (engField d n 0x16 % 2 = 1)

/-- Entry TOP and its neighbours are numbered modulo 8. -/
def rsSlot (k : Nat) : Fin 8 := ⟨k % 8, by omega⟩

/-- An address as a return-stack entry holds it: 13 bits in an engine (R108, R125), 32 in a control core (R371). The address
after word 8,191 is kept modulo 2^13 (DESIGN CHOICE, log 74). -/
def rsEntry (n : Fin 68) (a : Nat) : Word := BitVec.ofNat 32 (if isCc n then a else a % 2 ^ 13)

/-- A push of an entry with depth to spare, or in WRAP mode (R125). -/
def rsPushed (e : Engine) (a : Word) : Engine :=
  { e with
    rs := e.rs.set (rsSlot (e.rsTop + 1)) a
    rsTop := (e.rsTop + 1) % 8
    rsDepth := Nat.min 8 (e.rsDepth + 1)
    statRsw := e.statRsw || decide (8 ≤ e.rsDepth) }

/-- A pop with an entry to take, or in WRAP mode (R125). -/
def rsPopped (e : Engine) : Engine :=
  { e with
    rsTop := (e.rsTop + 7) % 8
    rsDepth := e.rsDepth - 1
    statRsw := e.statRsw || decide (e.rsDepth = 0) }

/-- A call that is taken: the address of the next word is pushed and execution goes to the target. -/
def doCall (d : Device) (n : Fin 68) (target : Nat) : Device :=
  let e := ag d n
  if rsTraps d n ∧ 8 ≤ e.rsDepth then rsFault d n
  else jump (setAg d n (rsPushed e (rsEntry n (e.pc + 1)))) n target

/-- Whether a branch target is one the word can hold: 13 bits for an engine, 32 for a control core (R371). -/
def targetOk (i : Issue) (t : Nat) : Bool := decide (t < if isCc i.who then 2 ^ 32 else 2 ^ 13)

/-- A flow word (format LB): long only, never repeated. -/
def flowWord (i : Issue) (ok : Bool) (d : Device) (f : Device → Device) : Device :=
  withWord i (ok && decide (i.slot = .long)) false d f

/-- DONE: the rally of an engine ends with this cycle (R169). On a control core the major is WAIT (R371, R381). -/
def execDone (i : Issue) (s : State) : Host.Outcome State Fault Refusal :=
  onDev s (fun d => flowWord i (!isCc i.who) d (fun d => endRally d i.who false ((ag d i.who).cur + 1)))

/-- BR. -/
def execBr (i : Issue) (target : Nat) (s : State) : Host.Outcome State Fault Refusal :=
  onDev s (fun d => flowWord i (targetOk i target) d (fun d => jump d i.who target))

/-- BRZ (R151). -/
def execBrz (i : Issue) (gc : GReg) (target : Nat) (s : State) : Host.Outcome State Fault Refusal :=
  onDev s (fun d => flowWord i (targetOk i target) d (fun d =>
    if (readG (srcWork d i) gc).p = 0 then jump d i.who target else d))

/-- BRNZ (R151). -/
def execBrnz (i : Issue) (gc : GReg) (target : Nat) (s : State) : Host.Outcome State Fault Refusal :=
  onDev s (fun d => flowWord i (targetOk i target) d (fun d =>
    if (readG (srcWork d i) gc).p = 0 then d else jump d i.who target))

/-- BRLC: while LC.COUNT is non-zero it is decremented and the branch taken. -/
def execBrlc (i : Issue) (target : Nat) (s : State) : Host.Outcome State Fault Refusal :=
  onDev s (fun d => flowWord i (targetOk i target) d (fun d =>
    let e := ag d i.who
    if e.lc = 0 then d else jump (setAg d i.who { e with lc := e.lc - 1 }) i.who target))

/-- CALL. -/
def execCall (i : Issue) (target : Nat) (s : State) : Host.Outcome State Fault Refusal :=
  onDev s (fun d => flowWord i (targetOk i target) d (fun d => doCall d i.who target))

/-- CALLZ: a call not taken pushes nothing (R151). -/
def execCallz (i : Issue) (gc : GReg) (target : Nat) (s : State) : Host.Outcome State Fault Refusal :=
  onDev s (fun d => flowWord i (targetOk i target) d (fun d =>
    if (readG (srcWork d i) gc).p = 0 then doCall d i.who target else d))

/-- CALLNZ (R151). -/
def execCallnz (i : Issue) (gc : GReg) (target : Nat) (s : State) : Host.Outcome State Fault Refusal :=
  onDev s (fun d => flowWord i (targetOk i target) d (fun d =>
    if (readG (srcWork d i) gc).p = 0 then d else doCall d i.who target))

/-- RET (R125, R154). -/
def execRet (i : Issue) (s : State) : Host.Outcome State Fault Refusal :=
  onDev s (fun d => flowWord i true d (fun d =>
    let e := ag d i.who
    if rsTraps d i.who ∧ e.rsDepth = 0 then rsFault d i.who
    else jump (setAg d i.who (rsPopped e)) i.who (e.rs[rsSlot e.rsTop]).toNat))

/-- The high half of the word at a program address, where the opcode stands: an engine's active program bank, or a
control core's memory. -/
def progHigh (d : Device) (n : Fin 68) (a : Nat) : Nat :=
  if isCc n then (ccCell d (2 * a + 1)).w.p.toNat else (sparseGet wordZero (ag d n).prog (2 * a + 1)).toNat

/-- Whether REP may not repeat a word: majors 0x01 to 0x06 and 0x1D, and 0x07 on a control core (R126, R377). -/
def unrepeatable (cc : Bool) (hi : Nat) : Bool :=
  let major := hi / 2 ^ 24 % 128
  decide (hi < 2 ^ 31) &&
    (decide (1 ≤ major ∧ major ≤ 6) || decide (major = 0x1D) || (cc && decide (major = 7)))

/-- REP n: the word that follows runs n times (R126, R152). A REP at the last word, or before a word that may not be
repeated, is illegal. -/
def execRep (i : Issue) (count : BitVec 12) (s : State) : Host.Outcome State Fault Refusal :=
  onDev s (fun d =>
    let a := (ag d i.who).npc
    flowWord i ((isCc i.who || decide (a < 8191)) && !unrepeatable (isCc i.who) (progHigh d i.who (a + 1))) d (fun d =>
      let e := ag d i.who
      setAg d i.who { e with repLeft := count.toNat + 1, repN := count.toNat + 1 }))

/-- TMARK (R153, R175): an engine word; a count of 0 or above 3, or a tier not above CURT, is illegal. -/
def execTmark (i : Issue) (t : BitVec 12) (target : Nat) (s : State) : Host.Outcome State Fault Refusal :=
  onDev s (fun d => flowWord i (!isCc i.who && targetOk i target && decide (1 ≤ t.toNat ∧ t.toNat ≤ 3)) d (fun d =>
    let e := ag d i.who
    if t.toNat ≤ e.curt then illFault d i.who e.pc
    else if e.runs.getLsbD t.toNat then
      setAg d i.who { e with tierStk := (e.curt, target) :: e.tierStk, curt := t.toNat }
    else jump d i.who target))

/-- ILLEGAL_WORD (R117, R118, R375): an illegal word issues; it has no effect but its fault. -/
def execIllegalWord (i : Issue) (s : State) : Host.Outcome State Fault Refusal :=
  onDev s (fun d => if canIssue d i.who then illWord d i.who (ag d i.who).npc else d)

/-! ### Control registers (R105) -/

/-- The bits of ENG_STAT as the processor reads them. -/
def statWord (e : Engine) : Word :=
  BitVec.ofNat 32 (e.statV.toNat + 2 * e.statSat.toNat + 4 * e.statDz.toNat + 8 * e.statRsw.toNat
    + 2 ^ 16 * e.resv.isSome.toNat)

/-- The bits of ENG_FAULT. -/
def faultWord (e : Engine) : Word :=
  BitVec.ofNat 32 (e.fOvr.toNat + 2 * e.fRs.toNat + 4 * e.fIll.toNat + 8 * e.fTag.toNat + 16 * e.fAddr.toNat
    + 32 * e.fPar.toNat + 2 ^ 16 * (e.fpc % 2 ^ 14))

/-- ENG_STAT with the W1C bits of a write cleared. -/
def clearStat (e : Engine) (v : Word) : Engine :=
  { e with
    statV := e.statV && !v.getLsbD 0
    statSat := e.statSat && !v.getLsbD 1
    statDz := e.statDz && !v.getLsbD 2
    statRsw := e.statRsw && !v.getLsbD 3 }

/-- ENG_FAULT with the W1C bits of a write cleared. -/
def clearFault (e : Engine) (v : Word) : Engine :=
  { e with
    fOvr := e.fOvr && !v.getLsbD 0
    fRs := e.fRs && !v.getLsbD 1
    fIll := e.fIll && !v.getLsbD 2
    fTag := e.fTag && !v.getLsbD 3
    fAddr := e.fAddr && !v.getLsbD 4
    fPar := e.fPar && !v.getLsbD 5 }

/-- The rate domain whose kickoffs an engine rallies at: a fenced one its former domain (R478). -/
def engDomain (d : Device) (n : Fin 68) : Fin 4 := dom (engField d n 3 / 2 ^ 16)

/-- What ENG_ENGID of a physical engine shows outside a rally. -/
def engidNow (d : Device) (n : Fin 68) : Nat :=
  let e := ag d n
  n.val % 64 + 2 ^ 8 * (e.role % 64) + 2 ^ 16 * (n.val % 64 / 8) + 2 ^ 20 * (engField d n 3 / 2 ^ 16 % 4)
    + 2 ^ 22 * e.bench.toNat + 2 ^ 23 * e.mirror.toNat

/-- ENG_ENGID: inside a rally as at its first cycle (R107). -/
def engidWord (d : Device) (n : Fin 68) : Word :=
  let e := ag d n
  BitVec.ofNat 32 (if e.phase = .rallying then e.ident else engidNow d n)

/-- ENG_TIER (R106): MAXT, FADING and OPP inside a rally as at its first cycle (R107), otherwise as they stand; CURT is the
tier of the word last issued. -/
def tierWord (d : Device) (n : Fin 68) : Word :=
  let e := ag d n
  let k := engDomain d n
  let g := e.role / 8
  let now := decide (e.phase = .rallying)
  let maxt := if now then e.maxt else setTier d k g
  let fading := if now then e.fading else groupFading d g k
  let opp := if now then e.opp else fidx d
  BitVec.ofNat 32 (maxt % 4 + 4 * (e.curt % 4) + 16 * fading.toNat + 2 ^ 8 * (opp % 4))

/-- ICTL of a control core (R378). -/
def ictlWord (x : CoreX) : Word :=
  BitVec.ofNat 32 (x.ie.toNat + 2 ^ 4 * (x.curLev % 16) + 2 ^ 8 * x.act.toNat + 2 ^ 9 * (x.istk.length % 32))

/-- The control register a MOVC read selects; none is a reserved selector (R105, R371). LC.REPLEFT has 12 bits: with all 4,096
repetitions still to run it shows 0 (DESIGN CHOICE, log 75). -/
def controlReg (d : Device) (n : Fin 68) (c : Fin 16) : Option Word :=
  let e := ag d n
  let x := d.ccx[coreOf n]
  match c.val with
  | 0x0 => some (BitVec.ofNat 32 e.pc)
  | 0x1 => some (BitVec.ofNat 32 (e.rsDepth + 16 * e.rsTop))
  | 0x2 => some (BitVec.ofNat 32 (e.lc.toNat + 2 ^ 16 * (e.repLeft % 2 ^ 12)))
  | 0x3 => some (statWord e)
  | 0x4 => some (if isCc n then BitVec.ofNat 32 (0x80000000 + (coreOf n).val) else engidWord d n)
  | 0x5 => some (BitVec.ofNat 32 e.chk.toNat)
  | 0x6 => some (faultWord e)
  | 0x7 => some (if isCc n then 0 else tierWord d n)
  | 0x8 => some (if isCc n then 0 else BitVec.ofNat 32 e.kocnt)
  | 0x9 => if isCc n then some (BitVec.ofNat 32 x.ls) else none
  | 0xA => if isCc n then some (BitVec.ofNat 32 x.le) else none
  | 0xB => if isCc n then some (ictlWord x) else none
  | _ => none

/-- A MOVC write of the selected control register (R105, R137, R371). -/
def putControlReg (d : Device) (n : Fin 68) (c : Fin 16) (v : Word) : Device :=
  let e := ag d n
  let x := d.ccx[coreOf n]
  match c.val with
  | 0x2 => setAg d n { e with lc := v.extractLsb' 0 16 }
  | 0x3 => setAg d n (clearStat e v)
  | 0x5 => setAg d n { e with chk := v.getLsbD 0 }
  | 0x6 => setAg d n (clearFault e v)
  | 0x9 => { d with ccx := d.ccx.set (coreOf n) { x with ls := v.toNat } }
  | 0xA => { d with ccx := d.ccx.set (coreOf n) { x with le := v.toNat } }
  | 0xB => { d with ccx := d.ccx.set (coreOf n) { x with ie := v.getLsbD 0 } }
  | _ => d

/-- MOVC (read): G ← control register C, tag INT. -/
def execMovcRead (i : Issue) (g : GReg) (c : Fin 16) (s : State) : Host.Outcome State Fault Refusal :=
  onDev s (fun d => withWord i (decide (i.slot = .long) && (controlReg d i.who c).isSome) true d (fun d =>
    wrReg d i.who g ⟨(controlReg d i.who c).getD 0, .int⟩))

/-- MOVC (write): control register C ← the payload of G. -/
def execMovcWrite (i : Issue) (g : GReg) (c : Fin 16) (s : State) : Host.Outcome State Fault Refusal :=
  onDev s (fun d => withWord i (decide (i.slot = .long) && (controlReg d i.who c).isSome) true d (fun d =>
    putControlReg d i.who c (readG (srcWork d i) g).p))

/-! ### Words of control cores -/

/-- A control core's own words: the long slot of its processor. -/
def ccIssue (c : Fin 4) : Issue := ⟨ccProc c, .long⟩

/-- WAIT (R381): issue stops until an event is pending. -/
def execWait (c : Fin 4) (s : State) : Host.Outcome State Fault Refusal :=
  onDev s (fun d => flowWord (ccIssue c) true d (fun d =>
    { d with ccx := d.ccx.set c { d.ccx[c] with wait := true } }))

/-- A waiting core resumes when an event is pending for it, or, with IE = 0, any routed event is latched (R381). -/
def execWaitResume (c : Fin 4) (s : State) : Host.Outcome State Fault Refusal :=
  onDev s (fun d =>
    let x := d.ccx[c]
    if x.wait ∧ ((takeable d c).isSome ∨ (x.ie = false ∧ (bestEvent d c).isSome)) then
      { d with ccx := d.ccx.set c { x with wait := false } }
    else d)

/-- Taking an event (R374, R379): the index of the next word, CUR and ACT are pushed, the handler's level and ACT are
set, execution goes on at CC_VBASE + 8v, and the core's reservation is cleared. A WAIT is left (R381). -/
def takeEvent (d : Device) (c : Fin 4) (v l : Nat) : Device :=
  let n := ccProc c
  let e := ag d n
  let x := d.ccx[c]
  let d := { d with ccx := d.ccx.set c { x with
    istk := (e.npc, x.curLev, x.act) :: x.istk, curLev := l, act := true, wait := false } }
  setAg d n { e with npc := (getF d (F.CC_VBASE.ADDR c.val) + 8 * v) / 8, cyc := e.cyc + 4, resv := none, pair := none }

/-- INTERRUPT_ENTRY (R378 to R380): at a word boundary a running core takes the highest pending event. -/
def execInterruptEntry (c : Fin 4) (s : State) : Host.Outcome State Fault Refusal :=
  onDev s (fun d =>
    let x := d.ccx[c]
    let e := ag d (ccProc c)
    if x.run ∧ x.halt = false ∧ awake d ∧ e.repLeft = 0 ∧ e.pair = none then
      match takeable d c with
      | none => d
      | some (v, l) => takeEvent (setAg d (ccProc c) (landDue (finishDiv e))) c v l
    else d)

/-- RETI (R374, R379): the interrupt stack is popped; on an empty stack it faults with FAULT.RS. -/
def execReti (c : Fin 4) (s : State) : Host.Outcome State Fault Refusal :=
  onDev s (fun d => flowWord (ccIssue c) true d (fun d =>
    let x := d.ccx[c]
    let n := ccProc c
    match x.istk with
    | [] => rsFault d n
    | (idx, lev, act) :: st =>
      let d := { d with ccx := d.ccx.set c { x with istk := st, curLev := lev, act := act } }
      jump (setAg d n { ag d n with resv := none }) n idx))

/-- DO (R377): LS, LE and LC.COUNT are set; a register count of 0 branches to LE + 1. -/
def execDo (c : Fin 4) (k : DoCount) (target : Nat) (s : State) : Host.Outcome State Fault Refusal :=
  onDev s (fun d =>
    let n := ccProc c
    flowWord (ccIssue c) (decide ((ag d n).npc + 1 ≤ target) && decide (target < 2 ^ 32)) d (fun d =>
      let e := ag d n
      let count := match k with
        | .imm v => v.toNat + 1
        | .reg g => (readG e.w g).p.toNat % 2 ^ 16
      let d := { d with ccx := d.ccx.set c { d.ccx[c] with ls := e.pc + 1, le := target } }
      let d := setAg d n { e with lc := BitVec.ofNat 16 count }
      if count = 0 then jump d n (target + 1) else d))

end Sys2Proof.Machine
end

