-- ==== Sys2Proof/Machine/Substitute.lean ====
section
/-! DEFINITION. Substitution, fencing and readmission of engines (R469 to R479), and the exchange of engine banks (R178). -/

namespace Sys2Proof.Machine

/-! ### Arming, aborting, readmission -/

/-- The code with which an arm is rejected (R472); none is accepted. -/
def subCode (d : Device) (n b : Nat) : Option Nat :=
  if engCount d ≤ n ∨ engCount d ≤ b then some Rej.absent
  else if d.sub.isSome then some Rej.busy
  else if n = b ∨ (rgn d n).st ≠ .running ∨ getB d (F.S_ENG.CTL.BENCH n) ∨ (rgn d b).st ≠ .running
      ∨ ¬ getB d (F.S_ENG.CTL.BENCH b) ∨ getB d (F.ENG_HOLDER.VACANT b) ∨ rgnDomain d n ≠ rgnDomain d b then some Rej.depend
  else none

/-- The substitution in progress. -/
def setSub (d : Device) (x : Option Subst) : Device := { d with sub := x }

/-- The completed write `v` of SUB_CMD (R472, R473). -/
def subArm (d : Device) (q : Req) (addr v : Nat) : Device :=
  let n := v % 2 ^ 6
  let b := v / 2 ^ 8 % 2 ^ 6
  match subCode d n b with
  | some c => rejectReq d c q addr
  | none =>
    let k := rgnDomain d n
    let next := decide (v / 2 ^ 14 % 2 = 1)
    let t := targetOf d k next (v / 2 ^ 32)
    let d := setReg64 d Adr.SUB_CMD (Nat.land v (0xFFFFFFFFFFFFFF3F))
    let d := setReg d Adr.SUB_STAT 0
    let d := setB (setF d F.SUB_STAT.PHASE 1) F.SUB_STAT.LATE t.late
    let d := setF d F.SUB_SNAP.KICKOFF ((t.at_.getD (d.seen[k] + 1)) % 2 ^ 32)
    setSub d (some ⟨n, b, holder d n, holder d b, t, decide (v / 2 ^ 15 % 2 = 1), v / 2 ^ 16 % 2 ^ 16, 0, false, false⟩)

/-- The original's storage in the substitute (R473). -/
def copyStores (d : Device) (x : Subst) : Device :=
  let o := ag d x.orig
  let e := ag d x.phys
  setAg d x.phys { e with prog := o.prog, progShadow := o.progShadow, loc := o.loc, shadow := o.shadow }

/-- SUB_COPY_DONE (R473): every copied store of the substitute holds what the original's holds. -/
def subCopied (d : Device) : Device :=
  match d.sub with
  | none => d
  | some x => if x.copied then d else setSub (copyStores d x) (some { x with copied := true })

/-- A substitution is cancelled (R477): the substitute returns to its bench role, in the state of a region reload. A spare
issues no words (R469): a rally it was in is over. -/
def subCancel (d : Device) (x : Subst) : Device :=
  let e := engReload (ag d x.phys)
  let d := setAg (setSub d none) x.phys { e with
    role := x.bench, mirror := false, bench := true, phase := .idle, genid := getF d (F.ENG_GEN.GEN x.bench) }
  setF (setB d (F.ENG_HOLDER.VACANT x.bench) false) F.SUB_STAT.PHASE 4

/-- SUB_CTL.ABORT (R477). -/
def subAbort (d : Device) : Device :=
  match d.sub with
  | none => ignored d
  | some x => subCancel d x

/-- Whether SUB_CTL.READMIT of engine `p` to bench role `b` is refused (R479). -/
def readmitBad (d : Device) (p : Fin 68) (b : Nat) : Bool :=
  !(ag d p).fenced || !getB d (F.ENG_HOLDER.VACANT b) || !getB d (F.S_ENG.CTL.BENCH b)

/-- A write of SUB_CTL: a rejected READMIT rejects the write; otherwise ABORT acts before READMIT, which waits for its
kickoff (R477, R479). -/
def subCtl (d : Device) (q : Req) (v : Nat) : Device :=
  let p : Fin 68 := ⟨v / 2 ^ 8 % 64, by omega⟩
  let b := v / 2 ^ 16 % 64
  if v / 2 % 2 = 1 ∧ readmitBad d p b then rejectReq d Rej.depend q Adr.SUB_CTL
  else
    let d := setF (setF d F.SUB_CTL.PHYS (v / 2 ^ 8)) F.SUB_CTL.BROLE (v / 2 ^ 16)
    let d := if v % 2 = 1 then subAbort d else d
    if v / 2 % 2 = 1 then { d with readmits := d.readmits ++ [(p, b)] } else d

/-- The other engine that a write to an engine's stores also reaches (R475). -/
def twin (d : Device) (n : Fin 68) : Option (Fin 68) :=
  match d.sub with
  | some x => if x.orig = n ∧ x.mirroring then some x.phys else none
  | none => none

/-- Whether an engine is the substitute of a substitution in COPY, whose window takes no write (R473). -/
def copyTarget (d : Device) (n : Fin 68) : Bool :=
  match d.sub with
  | some x => decide (x.phys = n) && !x.mirroring
  | none => false

/-! ### At a kickoff -/

/-- R474's state of the original in the substitute at snapshot kickoff `n`. -/
def snapshot (d : Device) (x : Subst) (n : Nat) : Device :=
  let d := copyStores d x
  let o := landAll (ag d x.orig)
  let e := ag d x.phys
  let d := setAg d x.phys { e with
    w := o.w
    rs := o.rs
    lc := o.lc
    flags := o.flags
    chk := o.chkPend.getD o.chk
    chkPend := none
    spin := o.spin
    statV := false
    statSat := false
    statDz := false
    statRsw := false
    fOvr := false
    fRs := false
    fIll := false
    fTag := false
    fAddr := false
    fPar := false
    fpc := 0
    role := x.role
    mirror := true
    bench := false }
  let d := setF (setB d (F.ENG_HOLDER.VACANT x.bench) true) F.SUB_STAT.PHASE 2
  let d := setF d F.SUB_SNAP.KICKOFF (n % 2 ^ 32)
  setSub d (some { x with at_ := n, mirroring := true })

/-- The fields a fenced engine keeps (R478): S_RGN_POLICY, then words 0x10 to 0x16. -/
def formerFields (d : Device) (r : Nat) : List Nat :=
  (reg d (srsAddr r 3)).toNat :: (List.range 7).map (fun i => (reg d (srsAddr r (0x10 + i))).toNat)

/-- The generation an engine carries, and ENG_FENCE with it. -/
def putGenid (d : Device) (n : Fin 68) (g : Nat) : Device :=
  setF (setAg d n { ag d n with genid := g }) (F.ENG_FENCE.GENID n.val) g

/-- Handover (R476). -/
def handover (d : Device) (x : Subst) : Device :=
  let g := (getF d (F.ENG_GEN.GEN x.role) + 1) % 2 ^ 8
  let d := setF d (F.ENG_GEN.GEN x.role) g
  let o := ag d x.orig
  let d := setAg d x.orig { o with fenced := true, former := formerFields d x.role }
  let d := setB d (F.ENG_FENCE.FENCED x.orig.val) true
  let d := putGenid (setAg d x.phys { ag d x.phys with mirror := false }) x.phys g
  let d := setF (setF d (F.ENG_HOLDER.PHYS x.role) x.phys.val) F.SUB_STAT.PHASE 3
  setSub d none

/-- Whether a strict handover is to be cancelled on this cycle K (R477). -/
def strictBad (d : Device) : Bool :=
  match d.sub with
  | some x => x.strict && (decide (getF d F.SUB_STAT.MISMATCH ≠ 0) || getB d F.SUB_STAT.SUBFAULT)
  | none => false

/-- Handover or cancellation once the mirror rallies are done. -/
def mirrorEnd (d : Device) (x : Subst) (n : Nat) (bad : Bool) : Device :=
  if n < x.at_ + x.mirror then d else if bad then subCancel d x else handover d x

/-- The substitution at kickoff `n` of domain `k` (R473, R474, R476). -/
def subKick (d : Device) (k : Fin 4) (n : Nat) (bad : Bool) : Device :=
  match d.sub with
  | none => d
  | some x =>
    if rgnDomain d x.role ≠ k then d
    else if x.mirroring then mirrorEnd d x n bad
    else if ¬ x.target.due n then d
    else if ¬ x.copied then setSub d (some { x with target := ⟨none, true⟩ })
    else
      let d := if x.target.isLate n then setB d F.SUB_STAT.LATE true else d
      let d := snapshot d x n
      match d.sub with
      | none => d
      | some y => mirrorEnd d y n (strictBad d)

/-- Engine `p` becomes the spare of bench role `b` (R479). -/
def readmit (d : Device) (p : Fin 68) (b : Nat) : Device :=
  let e := engReload (ag d p)
  let d := setAg d p { e with fenced := false, former := [], role := b, bench := true, mirror := false, phase := .idle }
  let d := putGenid (setB d (F.ENG_FENCE.FENCED p.val) false) p (getF d (F.ENG_GEN.GEN b))
  setB (setF d (F.ENG_HOLDER.PHYS b) p.val) (F.ENG_HOLDER.VACANT b) false

/-- The readmissions that wait for a kickoff of domain `k`. -/
def readmitKick (d : Device) (k : Fin 4) : Device :=
  let here := d.readmits.filter (fun e => decide (rgnDomain d e.2 = k))
  here.foldl (fun d e => if (ag d e.1).fenced ∧ getB d (F.ENG_HOLDER.VACANT e.2) then readmit d e.1 e.2 else d)
    { d with readmits := d.readmits.filter (fun e => decide (rgnDomain d e.2 ≠ k)) }

/-! ### Bank exchange (R178, R226) -/

/-- Coefficient banks exchanged: `b` and `s` are the window's base and size. -/
def swapCoef (b s : Nat) (e : Engine) : Engine :=
  let win := e.loc.filter (fun c => decide (b ≤ c.1 ∧ c.1 < b + s))
  let sh := e.shadow.filter (fun c => decide (c.1 < s))
  { e with
    loc := sh.foldl (fun m c => sparsePut cellUninit m (b + c.1) c.2) (sparseClear e.loc b (b + s))
    shadow := win.foldl (fun m c => sparsePut cellUninit m (c.1 - b) c.2) (sparseClear e.shadow 0 s) }

/-- Program banks exchanged. -/
def swapProg (e : Engine) : Engine := { e with prog := e.progShadow, progShadow := e.prog }

/-- The processors a role's swaps reach: its holder, and a substitute that mirrors it. -/
def roleEngines (d : Device) (r : Nat) : List (Fin 68) :=
  if getB d (F.ENG_HOLDER.VACANT r) then [] else holder d r :: (twin d (holder d r)).toList

/-- The banks of a role exchanged. -/
def swapRole (d : Device) (coef : Bool) (r : Nat) : Device :=
  (roleEngines d r).foldl (fun d n =>
    setAg d n (if coef then swapCoef (coefBase d n) (coefSize d n) (ag d n) else swapProg (ag d n))) d

/-- Both banks of a Spin unit exchanged (R226). -/
def swapSpin (d : Device) (u : Nat) : Device :=
  let i : Fin 16 := ⟨u % 16, by omega⟩
  let x := d.spin[i]
  { d with spin := d.spin.set i { x with prog := x.progShadow, progShadow := x.prog, tab := x.tabShadow, tabShadow := x.tab } }

end Sys2Proof.Machine
end

