-- ==== Sys2Proof/Machine/Kickoff.lean ====
section
/-! DEFINITION. The kickoff of a rate domain at the engines (R156 to R159, R164 to R176, R178, R471), the start and the
overrun of rallies, and the resolution of a frame (R234). -/

namespace Sys2Proof.Machine

/-! ### Who takes part -/

/-- The power domain of a physical engine is ON. -/
def engPowered (d : Device) (n : Nat) : Bool := decide (getF d (F.PWR_DOMSTAT.STATE (n / 8)) = 0)

/-- Whether an engine rallies in domain `k` (R157, R166, R469, R478). -/
def ralliesIn (d : Device) (k : Fin 4) (n : Fin 68) : Bool :=
  let e := ag d n
  decide (n.val < engCount d) && decide (engDomain d n = k) &&
    (if e.fenced then engPowered d n.val
     else Regions.live d.regions e.role && !e.bench &&
      (e.mirror || (decide (holder d e.role = n) && !getB d (F.ENG_HOLDER.VACANT e.role))))

/-- The physical engines in ascending number. -/
def engines (d : Device) : List (Fin 68) := ((List.finRange 68).filter (fun n => decide (n.val < engCount d)))

/-! ### Overruns (R169, R170) -/

/-- A rally is cut: `kick` is cause KICK, otherwise LEN. -/
def cutRally (d : Device) (n : Fin 68) (kick : Bool) : Device :=
  let e := ag d n
  let d := setAg d n (landAll { e with fOvr := true, fpc := e.pc })
  let d := endRally d n true (if kick then e.cyc else e.limit)
  incF (raiseEv d (0x40 + n.val)) (if kick then F.ENG_OVRCNT.KICK n.val else F.ENG_OVRCNT.LEN n.val)

/-- Whether a rally has issued its L cycles without DONE. -/
def lenDue (d : Device) (n : Fin 68) : Bool := decide ((ag d n).phase = .rallying) && decide ((ag d n).limit ≤ (ag d n).cyc)

/-- OVERRUN_LEN (R169). -/
def overrunLen (d : Device) (n : Fin 68) : Device := if lenDue d n then cutRally d n false else d

/-- The rallies of domain `k` that still run when the engines see the next kickoff (R159). -/
def cutAll (d : Device) (k : Fin 4) : Device :=
  (engines d).foldl (fun d n =>
    if (ag d n).phase = .rallying ∧ engDomain d n = k then cutRally d n (!lenDue d n) else d) d

/-! ### Output blocks (R10, R22, R166, R171, R471, R475, R478) -/

/-- What an unlisted output value reads as. -/
def tInvalid (_ : Nat) : TWord := TWord.zero .invalid

/-- Output `i` of an engine as its rally left it (R22): after a cut or fault the payload of the previous frame, HELD. -/
def rawOut (d : Device) (n : Fin 68) (i : Nat) : TWord :=
  let e := ag d n
  if e.cut then ⟨(sparseGet tInvalid d.engRaw (64 * e.role + i)).p, .held⟩
  else cellRead (sparseGet cellInvalid e.io (64 + i))

/-- Whether an engine has rallied in the period that ends. -/
def rallied (d : Device) (n : Fin 68) : Bool := decide ((ag d n).phase = .ended)

/-- The engine whose rally fills a role's output entries (R471). -/
def outEngine (d : Device) (r : Nat) : Option (Fin 68) :=
  (engines d).find? (fun n => rallied d n && decide ((ag d n).role = r) && decide ((ag d n).own = .owner))

/-- Output entry `i` of a role for the frame that ends, before and after its region's fade and its tier's. -/
def outEntry (d : Device) (k : Fin 4) (r : Nat) (who : Option (Fin 68)) (i : Nat) : Device :=
  let last := sparseGet tInvalid d.engRaw (64 * r + i)
  let raw :=
    if Regions.stopped d.regions r then last
    else
      match who with
      | some n => rawOut d n i
      | none => TWord.zero .invalid
  let e := if Regions.eff d.regions r = .empty then TWord.zero .invalid else faded d r k raw last
  putEntry { d with engRaw := sparsePut tInvalid d.engRaw (64 * r + i) raw } (0x400 + 64 * r + i) (tierBlend d k (64 * r + i) e)

/-- Differing entries of a substitute and the original (R475). -/
def mismatches (d : Device) (a b : Fin 68) : Nat :=
  ((List.range 64).filter (fun i => decide (rawOut d a i ≠ rawOut d b i))).length

/-- The substitute's output block is compared, not delivered. -/
def compareMirror (d : Device) (r : Nat) (who : Option (Fin 68)) : Device :=
  match who, (engines d).find? (fun n => rallied d n && decide ((ag d n).role = r) && decide ((ag d n).own = .mirror)) with
  | some o, some m => incF d F.SUB_STAT.MISMATCH (mismatches d o m)
  | _, _ => d

/-- The output entries of a role. -/
def transferRole (d : Device) (k : Fin 4) (r : Nat) : Device :=
  if rgnDomain d r ≠ k then d
  else
    let who := outEngine d r
    let d := compareMirror d r who
    (List.range 64).foldl (fun d i => outEntry d k r who i) d

/-- Every output block of the domain; a fenced transfer is dropped with one count per rally that stored (R478). -/
def transferAll (d : Device) (k : Fin 4) : Device :=
  let d := (List.range (engCount d)).foldl (fun d r => transferRole d k r) d
  (engines d).foldl (fun d n =>
    let e := ag d n
    if rallied d n ∧ e.own = .fenced ∧ e.stored ∧ engDomain d n = k then fencedDrop d n else d) d

/-! ### COMMITs (R68 to R71, R85, R178, R226, R412) -/

/-- The power domains a COMMIT's actions need are ON (R412). -/
def commitPowered (d : Device) (k : Fin 4) (c : Commit) : Bool :=
  let roles := (if c.coef || c.prog then swapEngines d k c.egMask else []) ++ c.rlist.filter (fun r => decide (r < 0x40))
  let units := (if c.spin then swapSpins d k c.spinMask else [])
    ++ (c.rlist.filter (fun r => decide (0x90 ≤ r ∧ r < 0xA0))).map (· - 0x90)
  roles.all (fun r => engPowered d (holder d r).val) && units.all (fun u => engPowered d (4 * u))

/-- The banks already exchanged at a kickoff (R71): kind 0 coefficients, 1 programs, 2 Spin, and the unit. -/
abbrev Swapped := List (Nat × Nat)

/-- A bank exchanged unless it already was at this kickoff. -/
def swapOnce (f : Device → Nat → Device) (kind : Nat) (r : Device × Swapped) (u : Nat) : Device × Swapped :=
  if r.2.contains (kind, u) then r else (f r.1 u, (kind, u) :: r.2)

/-- The units of a list whose banks a COMMIT may exchange now: a bank marked incomplete cannot be swapped (R64, R226). -/
def unmarked (d : Device) (base : Nat) (keys : List Nat) (us : List Nat) : List Nat :=
  us.filter (fun u => keys.all (fun m => !(rgn d (base + u)).marks.contains m))

/-- A COMMIT applies at kickoff `n` (R70). -/
def commitApply (k : Fin 4) (n : Nat) (r : Device × Swapped) (c : Commit) : Device × Swapped :=
  let d := r.1
  let late := c.target.isLate n
  let eng := swapEngines d k c.egMask
  let r := if c.coef then (unmarked d 0 [2] eng).foldl (swapOnce (fun d u => swapRole d true u) 0) r else r
  let r := if c.prog then (unmarked d 0 [0x11] eng).foldl (swapOnce (fun d u => swapRole d false u) 1) r else r
  let r := if c.spin then (unmarked d 0x90 [1, 2] (swapSpins d k c.spinMask)).foldl (swapOnce swapSpin 2) r else r
  let d := c.rlist.foldl (fun d x => if (rgn d x).st = .pending then resumeRegion d x k n late else d) r.1
  (if late then raiseCtrl (setF d ⟨Adr.COMMIT_LATE, k.val, 1⟩ 1) 0x18C else d, r.2)

/-- One pending COMMIT at kickoff `n`: it waits, or applies; one that is held, or whose power domains are not ON, when its
kickoff comes is late (R69, R74, R412). -/
def commitStep (k : Fin 4) (n : Nat) (r : (Device × Swapped) × List Commit) (c : Commit) : (Device × Swapped) × List Commit :=
  if ¬ c.target.due n then (r.1, r.2 ++ [c])
  else if c.held ∨ ¬ commitPowered r.1.1 k c then (r.1, r.2 ++ [{ c with target := ⟨none, true⟩ }])
  else (commitApply k n r.1 c, r.2)

/-- The pending COMMITs of a domain at kickoff `n`, in the order they were accepted. -/
def commitKick (d : Device) (k : Fin 4) (n : Nat) : Device :=
  let r := (commitsOf d k).foldl (commitStep k n) ((d, []), [])
  setCommits r.1.1 k r.2

/-! ### The rally that begins (R103, R107, R109, R111, R112, R166, R172, R174) -/

/-- A list of bits as a number, the first least significant. -/
def bitsNat : List Bool → Nat
  | [] => 0
  | b :: bs => b.toNat + 2 * bitsNat bs

/-- Status words of the bit space, 0x800 to 0xBFF, by word 64 to 95 (R111), as they stand: `maxt`, `fading` and `first` are
the engine's TIER.MAXT, TIER.FADING and SET_FIRST, `k` its domain. -/
def statusWords (d : Device) (k : Fin 4) (maxt : Nat) (fading first : Bool) : List Nat :=
  let que0 := fun (f : Queue → Bool) (j : Nat) => bitsNat ((List.range 32).map (fun b =>
    let q := queNo (32 * j + b)
    decide (q ≠ 0) && queTakes d q && f (que d q)))
  let sap := bitsNat ((List.finRange 32).map (fun n => decide (n.val < sapCount d) && (Machine.sap d n).ok))
  let mut_ := bitsNat ((List.finRange 32).map (fun n => decide (n.val < sapCount d) && getB d (F.SAP_STAT.MUTED n.val)))
  let links := bitsNat ((List.finRange 8).map (fun n => decide (n.val < linkCount d) && linkAlive d n))
  let misc := 2 ^ 8 * (getB d F.TIME_STAT.LOCKED).toNat + 2 ^ 9 * d.gated.toNat + 2 ^ 10 * d.whistle.toNat
    + 2 ^ 11 * d.wdHold.isSome.toNat
  let grp := (List.range 8).foldl (fun s g => s + 2 ^ (8 + 2 * g) * setTier d k g) 0
  [sap, mut_, links + misc, 0, maxt + 4 * fading.toNat + 8 * first.toNat + 16 * fidx d + grp, 0, 0, 0]
    ++ (List.range 8).map (que0 (·.wm)) ++ (List.range 8).map (que0 (fun q => decide (q.words ≠ [])))
    ++ List.replicate 8 0

/-- Status words as the captured part of a bit space. -/
def asBits (ws : List Nat) : Sparse Word :=
  (ws.zip (List.range ws.length)).foldl (fun m e => sparsePut wordZero m (64 + e.2) (BitVec.ofNat 32 e.1)) []

/-- How an engine stands to its role in the rally that begins (R471, R475). -/
def ownNow (d : Device) (n : Fin 68) : Own :=
  let e := ag d n
  if e.mirror then .mirror
  else if ¬ e.fenced ∧ holder d e.role = n ∧ e.genid = getF d (F.ENG_GEN.GEN e.role) then .owner
  else .fenced

/-- The bits of the tiers that run. -/
def runBits (d : Device) (g : Nat) (k : Fin 4) : BitVec 4 :=
  BitVec.ofNat 4 (bitsNat ((List.range 4).map (fun t => tierRuns (tierOf d g k t))))

/-- The input block of an engine: its role's inputs; a fenced engine's is INVALID. -/
def inputBlock (d : Device) (n : Fin 68) : Sparse Cell :=
  let e := ag d n
  if e.fenced then []
  else (List.range 64).foldl (fun m i => sparsePut cellInvalid m i (cellOf (sparseGet tInvalid d.inVals (64 * e.role + i)))) []

/-- An engine enters the overhead of kickoff `n`; `first` says that a set begins. An engine whose rally lengths are all 0
issues no words (R164). -/
def beginRally (d : Device) (k : Fin 4) (n : Nat) (first : Bool) (a : Fin 68) : Device :=
  let e := ag d a
  let g := e.role / 8
  let maxt := setTier d k g
  let fading := groupFading d g k
  let limit := engField d a (0x10 + topTier d g k) % 2 ^ 16
  let sf := first || d.firstRally.contains e.role
  let e := landAll e
  setAg d a { e with
    phase := if limit = 0 then .ended else .overhead
    pc := 0
    npc := 0
    rsDepth := 0
    rsTop := 0
    curt := 0
    tierStk := []
    resv := none
    chk := e.chkPend.getD e.chk
    chkPend := none
    cyc := 0
    cur := 0
    repLeft := 0
    repN := 0
    repCur := 0
    pair := none
    div := none
    acc := []
    cut := false
    warn := false
    stored := false
    maxt := maxt
    fading := fading
    opp := fidx d
    ident := engidNow d a
    kocnt := n % 2 ^ 32
    runs := runBits d g k
    limit := limit
    own := ownNow d a
    captured := asBits (statusWords d k maxt fading sf)
    io := inputBlock d a }

/-- The Spin results of an engine that are still on their way at a kickoff, in the cycles of the rally that begins (R217): it
starts 16 cycles after the kickoff, and the kickoff comes no earlier than the cycles the last rally has had. -/
def rebaseFly (d : Device) (a : Fin 68) : Device :=
  let u := spinUnitOf d a
  let x := d.spin[u]
  if x.fly = [] then d
  else
    let by_ := (ag d a).cyc + 16
    let fly := x.fly.map (fun f => if f.dest.head? = some a then { f with due := f.due - by_ } else f)
    { d with spin := d.spin.set u { x with fly := fly } }

/-- The inputs of a role as the route frame delivers them, and the bypass values of its outputs (R166, R247). -/
def fillRole (d : Device) (k : Fin 4) (r : Nat) : Device :=
  if rgnDomain d r ≠ k ∨ ¬ Regions.live d.regions r then d
  else
    let v := deliverRun d k (64 * r) 64
    let d := { v.1 with inVals := (v.2.zip (List.range 64)).foldl (fun m (e : TWord × Nat) => sparsePut tInvalid m (64 * r + e.2) e.1) v.1.inVals }
    (List.range 64).foldl (fun d i => bypassTake k d (64 * r + i)) d

/-- Engines of the domain that do not rally wait for the next kickoff. -/
def restAll (d : Device) (k : Fin 4) : Device :=
  (engines d).foldl (fun d n =>
    if engDomain d n = k ∧ ¬ ralliesIn d k n then setAg d n { landAll (ag d n) with phase := .idle } else d) d

/-! ### ENGINE_KICKOFF, RALLY_START -/

/-- What the frame that ends gives: the output blocks, the receive frames, the links' content and the generators. -/
def frameEnds (d : Device) (k : Fin 4) (n : Nat) : Device :=
  let d := transferAll d k
  let d := (List.finRange 32).foldl (fun d p => if p.val < sapCount d then rxCapture d k p else d) d
  stepGenerators (linkKickoff d k (n + 2 ^ 20 - 1)) k

/-- Route and mix changes at kickoff `n` (R240, R253). -/
def routesKick (d : Device) (k : Fin 4) (n : Nat) : Device :=
  let d := routeApply (stepFades d k) k n
  (List.finRange 16).foldl (fun d m => if mixDom d m = k then mixApply d m n else d) d

/-- The engines of a domain see kickoff `n` (R159, R166). -/
def kickoffAt (d : Device) (k : Fin 4) (n : Nat) : Device :=
  let d := cutAll { d with seen := d.seen.set k n } k
  let bad := strictBad d
  let d := fadeAll (frameEnds d k n) k
  let d := readmitKick (subKick (commitKick d k n) k n bad) k
  let s := setStart d k n
  let d := routesKick (tiersKick s.1 k s.2) k n
  let d := (List.range (engCount d)).foldl (fun d r => fillRole d k r) d
  let d := (engines d).foldl (fun d a => if ralliesIn d k a then beginRally (rebaseFly d a) k n s.2 a else d) (restAll d k)
  { d with
    firstRally := d.firstRally.filter (fun r => decide (rgnDomain d r ≠ k))
    resolve := d.resolve.set k (if n = 0 then none else some (n - 1)) }

/-- ENGINE_KICKOFF: the oldest marked kickoff of the domain. -/
def engineKickoff (d : Device) (k : Fin 4) : Device :=
  match d.marked[k] with
  | [] => d
  | n :: ns => kickoffAt { d with marked := d.marked.set k ns } k n

/-- RALLY_START (R166): the engines of the domain issue their first words. -/
def rallyStart (d : Device) (k : Fin 4) : Device :=
  (engines d).foldl (fun d n =>
    let e := ag d n
    if e.phase = .overhead ∧ engDomain d n = k then setAg d n { e with phase := .rallying } else d) d

/-! ### FRAME_RESOLVE (R234) -/

/-- The fade positions of the resolution that completes, as ROUTE_RDPOS reports them. -/
def notePositions (d : Device) (k : Fin 4) : Device :=
  (d.sinks.map (·.1)).foldl (fun d x =>
    if sinkDom d x = some k then putSink d x { sinkOf d x with done := (sinkOf d x).pos } else d) d

/-- FRAME_RESOLVE: the frame of the latest kickoff; `tods` gives the time of day at which each link's start block leaves. -/
def frameResolve (d : Device) (k : Fin 4) (tods : List Nat) : Device :=
  match d.resolve[k] with
  | none => d
  | some p =>
    let d := { d with resolve := d.resolve.set k none }
    let d := (List.finRange 16).foldl (fun d m => mixResolve d k m) d
    let d := (List.range 8).foldl (fun d u => asrcOutputs d k u) d
    let d := (List.range 8).foldl (fun d u => asrcInputs d k u) d
    let d := (List.range 16).foldl (fun d b => meterBlock d k p b) d
    let d := (List.finRange 32).foldl (fun d n => txLatch d k n) d
    linkTransmit (notePositions d k) k p tods

end Sys2Proof.Machine
end

