-- ==== Sys2Proof/Machine/Handover.lean ====
section
/-! DEFINITION. Arming a clock handover (R306, R307). -/

namespace Sys2Proof.Machine

/-- The settings a write of CLK_HOk asks for. -/
structure HoAsk where
  pll : Nat
  mdiv : Nat
  kdiv : Nat
  fs : Nat
  next : Bool
  deriving DecidableEq, Repr

/-- The fields of a value of CLK_HOk. -/
def hoAsk (v : Nat) : HoAsk where
  pll := v % 4
  mdiv := v / 2 ^ 8 % 2 ^ 8
  kdiv := v / 2 ^ 16 % 2 ^ 16
  fs := v / 2 ^ 32 % 2 ^ 19
  next := decide (v / 2 ^ 62 % 2 = 1)

/-- Whether the fields name the pair's other PLL, give its target and lie in the ranges of S_CLK.RATEk. -/
def hoFields (d : Device) (k : Fin 4) (h : HoAsk) : Bool :=
  decide (h.pll ≠ ratePll d k) && decide (h.pll / 2 = ratePll d k / 2)
    && decide (h.fs * h.mdiv * h.kdiv = getF d (F.CLK_MTGT.FHZ h.pll))
    && decide (8 ≤ h.mdiv ∧ 64 ≤ h.kdiv ∧ 32000 ≤ h.fs ∧ h.fs ≤ 384000)

/-- The device with a domain at the new settings. -/
def hoDevice (d : Device) (k : Fin 4) (h : HoAsk) : Device :=
  let d := setClkWord d (0x78 + 8 * k.val) (1 + 2 * h.pll + 2 ^ 8 * h.mdiv + 2 ^ 16 * h.kdiv)
  setClkWord d (0x7C + 8 * k.val) h.fs

/-- Whether the engines, ports and resolution of the domain bear the new rate (R163, R235, R257). -/
def hoBears (d : Device) (k : Fin 4) (h : HoAsk) : Bool :=
  let e := hoDevice d k h
  (List.range (engCount d)).all (fun r =>
    let s := (rgn d r).st
    !(decide (s = .running ∨ s = .pending) && decide (rgnDomain d r = k))
      || (engFieldsOk d r && engTierOk d r h.fs (floorOpp d)))
  && (List.range (sapCount d)).all (fun n =>
    let s := (rgn d (0x50 + n)).st
    !(decide (s = .running ∨ s = .pending) && decide (rgnDomain d (0x50 + n) = k)) || portOk e n h.fs)
  && resFits e k

/-- A handover armed (R306): the shadow generator starts. -/
def hoArmed (d : Device) (k : Fin 4) (h : HoAsk) : Device :=
  let t := targetOf d k h.next (reg d (Adr.CLK_HOKO k.val)).toNat
  let d := { d with ho := d.ho.set k (some ⟨t, h.pll, h.mdiv, h.kdiv, h.fs, 0⟩) }
  hoBit (hoBit d F.CLK_HOSTAT.ARMED k true) F.CLK_HOSTAT.ALIGNED k false

/-- The completed write `v` of CLK_HOk (R306): without GO its fields alone are kept. -/
def hoWrite (d : Device) (q : Req) (addr : Nat) (k : Fin 4) (v : Nat) : Device :=
  let h := hoAsk v
  let keep := fun d : Device => setReg64 d (Adr.CLK_HO k.val) (Nat.land v 0x4007FFFFFFFFFF03)
  if v / 2 ^ 63 % 2 = 0 then keep d
  else
    let no := fun c : Nat => rejectReq d c q addr
    if ¬ domConfigured d k then no Rej.resource
    else if ¬ hoFields d k h then no Rej.field
    else if d.ho[k].isSome then no Rej.busy
    else if ¬ hoBears d k h then no Rej.depend
    else hoArmed (keep d) k h

end Sys2Proof.Machine
end

