-- ==== Sys2Proof/Machine/Events.lean ====
section
/-! DEFINITION. The Scoreboard's registers, the watchdog and the run control of the control cores (R375, R376, R382 to
R387), and the CSPI master (R494 to R498). -/

namespace Sys2Proof.Machine

/-! ### Events -/

/-- The occurrences of an event that wait in its source domain arrive at the Scoreboard (R18, R384). -/
def eventDelivery (d : Device) (v : Nat) : Device :=
  let k := sparseGet natZero d.evPend v
  if k = 0 then d else deliverEv { d with evPend := sparsePut natZero d.evPend v 0 } v k

/-- A write of EVT_SWTRIG (R384). -/
def swTrig (d : Device) (v : Nat) : Device :=
  (List.range 16).foldl (fun d k => if v.testBit k then raiseCtrl d (0x1F0 + k) else d) d

/-- A write of an event's EVT_ROUTE (R383, R385): the routes of absent events ignore writes. -/
def evtRoute (d : Device) (v w : Nat) : Device :=
  if evPresent d v then evtSettle (setReg d (Adr.EVT_ROUTE v) (BitVec.ofNat 32 (w % 2 ^ 28))) else ignored d

/-- Latches cleared by writing one (R5, R384). -/
def latchClear (d : Device) (k v : Nat) : Device :=
  evtSettle (setReg d (Adr.EVT_LATCH k) (reg d (Adr.EVT_LATCH k) &&& ~~~ (BitVec.ofNat 32 v)))

/-- A write of EVT_MSIXACK (R386): a vector that is still pending sends a further message. -/
def msixAck (d : Device) (v : Nat) : Device :=
  (List.range 32).foldl (fun d x => if v.testBit x && (msixLevel d).getLsbD x then sendMsix d x else d) d

/-- A vector unmasked (R501): its pending bit is cleared, and it sends one message if still pending. -/
def msixUnmask (d : Device) (x : Nat) : Device :=
  if getB d (F.PCIE_PBA.PEND x) ∧ ¬ getB d (F.PCIE_MSIX.MASK x) ∧ ¬ d.pcieFnMask ∧ d.pcieMsixEn then
    let d := setB d (F.PCIE_PBA.PEND x) false
    if (msixLevel d).getLsbD x then sendMsix d x else d
  else d

/-- Every vector whose mask may have gone is looked at. -/
def msixUnmaskAll (d : Device) : Device := (List.range 32).foldl msixUnmask d

/-! ### Watchdog -/

/-- The watchdog's count, in units of 1,024 CTRL cycles (R382). -/
def wdCount (d : Device) : Nat := d.wdCycles / 1024000

/-- The watchdog expires once its count has reached LIMIT (R27, R382, R290): EXPIRED, the Guard's hold-then-ramp, its event,
and a fresh count. A restart in the same cycle has cleared the count and wins. -/
def wdExpire (d : Device) : Device :=
  if getB d F.WDOG_CTL.EN ∧ getF d F.WDOG_CTL.LIMIT ≤ wdCount d then
    guardExpire { setB (setB d F.WDOG_STAT.EXPIRED true) F.WDOG_STAT.KICKED false with wdCycles := 0 }
  else d

/-- A write of WDOG_KICK (R382). -/
def wdKick (d : Device) (v : Nat) : Device :=
  if v % 2 ^ 32 = 0xA55A then { setB d F.WDOG_STAT.KICKED true with wdCycles := 0, wdRestarted := true }
  else incF (ignored d) F.WDOG_STAT.BADKICK

/-- A write of WDOG_CTL (R5, R8, R382): a LIMIT at or below the count reached makes the watchdog expire at once. -/
def wdCtl (d : Device) (v : Nat) : Device :=
  let d := if v % 2 = 1 then setB d F.WDOG_CTL.EN true else d
  wdExpire (if v / 2 ^ 8 % 2 ^ 24 = 0 then d else setF d F.WDOG_CTL.LIMIT (v / 2 ^ 8))

/-! ### Control cores -/

/-- A core put into the held state (R376). -/
def ccHold (d : Device) (c : Fin 4) : Device :=
  { d with ccx := d.ccx.set c CoreX.reset, ag := d.ag.set (64 + c.val) (Engine.reset (64 + c.val)) (by omega) }

/-- A core started at CC_RESETVEC with the register state of R103 (R376). -/
def ccStart (d : Device) (c : Fin 4) : Device :=
  if (d.ccx[c]).run then d
  else
    let d := ccHold d c
    let e := { Engine.reset (64 + c.val) with npc := getF d (F.CC_RESETVEC.ADDR c.val) / 8 }
    { d with ccx := d.ccx.set c { CoreX.reset with run := true }, ag := d.ag.set (64 + c.val) e (by omega) }

/-- A write of CC_CTL (R376): RESET holds the core whatever RUN says; a RUN of 0 stops it. -/
def ccCtl (d : Device) (c : Fin 4) (v : Nat) : Device :=
  if v / 2 % 2 = 1 then ccHold d c
  else if v % 2 = 1 then ccStart d c
  else { d with ccx := d.ccx.set c { d.ccx[c] with run := false } }

/-- Whether an address lies in control-core local or shared memory (R504). -/
def ccMemAddr (a : Nat) : Bool := decide (0x18000000 ≤ a ∧ a < 0x18200000)

/-- CC_CTL as it reads. -/
def ccCtlWord (d : Device) (c : Fin 4) : Nat := (d.ccx[c]).run.toNat

/-- CC_STAT as it reads. -/
def ccStatWord (d : Device) (c : Fin 4) : Nat :=
  let x := d.ccx[c]
  x.halt.toNat + 2 * x.wait.toNat + 4 * x.act.toNat + 2 ^ 4 * (x.curLev % 16)

/-! ### CSPI -/

/-- The fields of CSPI_CMD that hold a value. -/
def cspiFields (d : Device) (v : Nat) : Device :=
  setF (setF (setF d F.CSPI_CMD.SEL v) F.CSPI_CMD.KEEP (v / 8)) F.CSPI_CMD.NWORDS (v / 2 ^ 8)

/-- A write of CSPI_CMD (R495 to R497): a command on another select raises a kept one. -/
def cspiCmd (d : Device) (q : Req) (v : Nat) : Device :=
  let n := v / 2 ^ 8 % 128
  let s := v % 8
  if v / 16 % 2 = 0 then cspiFields d v
  else if d.cspiRun ≠ none then rejectReq d 0x11 q Adr.CSPI_CMD
  else if 64 < n ∨ d.cspiTx.length < n ∨ 64 < n + d.cspiRx.length then rejectReq d 0x01 q Adr.CSPI_CMD
  else
    let d := cspiFields d v
    let d := if getB d F.CSPI_STAT.KEPT ∧ getF d F.CSPI_STAT.KSEL ≠ s then setB d F.CSPI_STAT.KEPT false else d
    { d with cspiRun := some (s, n, decide (v / 8 % 2 = 1)) }

/-- A received word right-aligned and zero-extended (R494). -/
def cspiWord (d : Device) (s : Nat) (w : Word) : Word := BitVec.ofNat 32 (w.toNat % 2 ^ getF d (F.CSPI_CFG.WLEN s))

/-- A CSPI command ends (R496, R497): `rx` are the words the selected part returned. A command without words on the kept
select raises it. -/
def cspiDone (d : Device) (rx : List Word) : Device :=
  match d.cspiRun with
  | none => d
  | some (s, n, keep) =>
    let kept := keep && !(decide (n = 0) && getB d F.CSPI_STAT.KEPT)
    let got := (List.range n).map (fun i => cspiWord d s (rx.getD i 0))
    let d := { d with cspiRun := none, cspiTx := d.cspiTx.drop n, cspiRx := d.cspiRx ++ got }
    raiseCtrl (setF (setB d F.CSPI_STAT.KEPT kept) F.CSPI_STAT.KSEL s) 0x1CC

/-- A write of CSPI_TX (R498). -/
def cspiTxWrite (d : Device) (v : Nat) : Device :=
  if 64 ≤ d.cspiTx.length then incF (ignored d) F.CSPI_STAT.OVF
  else { d with cspiTx := d.cspiTx ++ [BitVec.ofNat 32 v] }

/-- CSPI_STAT as it reads. -/
def cspiStatWord (d : Device) : Nat :=
  let v := withBits (reg d Adr.CSPI_STAT).toNat 0 1 d.cspiRun.isSome.toNat
  withBits (withBits v 8 7 d.cspiTx.length) 16 7 d.cspiRx.length

end Sys2Proof.Machine
end

