-- ==== Sys2Proof/Machine/Power.lean ====
section
/-! DEFINITION. Power states and domains (R403 to R430): voters and holds, domain states, entry into and exit from SLEEP,
DEEP and OFF, wake sources, pad holds, and the transitions of delay banks (R209 to R211). -/

namespace Sys2Proof.Machine

/-! ### Voters -/

/-- Whether a region is RUNNING, QUIESCING or PENDING. -/
def rgnActive (d : Device) (r : Nat) : Bool :=
  let s := (rgn d r).st
  regionPresent d r && (decide (s = .running) || decide (s = .quiescing) || decide (s = .pending))

/-- Whether an engine of a group is active: a role that one of its engines holds is. -/
def groupActive (d : Device) (g : Nat) : Bool :=
  (List.range 64).any (fun r => rgnActive d r && !getB d (F.ENG_HOLDER.VACANT r) && decide ((holder d r).val / 8 = g))

/-- The mask bits of R405 used by the automatic voters. -/
def bitSIG : Nat := 2 ^ 8

/-- Domain CTRL in a mask. -/
def bitCTRL : Nat := 2 ^ 12

/-- NODEEP in a mask. -/
def bitNODEEP : Nat := 2 ^ 14

/-- NOSLEEP in a mask. -/
def bitNOSLEEP : Nat := 2 ^ 15

/-- A mask held while a condition is true. -/
def maskIf (b : Bool) (m : Nat) : Nat := if b then m else 0

/-- Whether the voltage and frequency sequencer waits for a voltage step, so that a PMBus transaction is in progress. -/
def pmbusBusy (d : Device) : Bool :=
  match d.dvfs with
  | .volt _ :: _ => true
  | _ => false

/-- Whether a boot load, a commanded load or a live activation runs, or a queue 0 batch is open (R408). -/
def loaderBusy (d : Device) : Bool :=
  getB d F.LDR_STAT.BUSY || getB d F.LDR_STAT.Q0BATCH || decide (getF d F.BOOT_STAT.PHASE = 1)
    || decide (getF d F.BOOT_ACTSTAT.PASS ≠ 0)

/-- The mask of PCIELNK by the state of the PCIe link (R408, R502). -/
def pcieMask (d : Device) : Nat :=
  if ¬ hasPcie d ∨ ¬ getB d F.PCIE_STAT.LINKUP then 0
  else
    let p := getF d F.PCIE_STAT.PSTATE
    if p ≤ 1 then 2 ^ 11 + bitNOSLEEP + bitNODEEP else if p = 2 then bitNODEEP else 0

/-- The mask a voter holds (R408). -/
def voterMask (d : Device) (k : Nat) : Nat :=
  if k < 6 then withBits (getF d (F.PWR_VOTE.MASK k)) 13 1 0
  else if k < 14 then maskIf (groupActive d (k - 6)) (2 ^ (k - 6) + bitSIG + bitNOSLEEP)
  else
    match k with
    | 14 => maskIf ((List.range 32).any (fun n => rgnActive d (0x50 + n))) (2 ^ 9 + bitSIG + bitNOSLEEP)
    | 15 => maskIf ((List.finRange 8).any (fun n => decide (n.val < linkCount d) && decide (linkState d n ≠ 0))) (2 ^ 10)
    | 16 => maskIf ((List.range 16).any (fun m => rgnActive d (0x80 + m)) || rgnActive d 0xA4) (bitSIG + bitNOSLEEP)
    | 17 => maskIf ((List.finRange 4).any (produces d)) bitSIG
    | 18 => maskIf (d.que.toList.any (fun x => decide (x.words ≠ []))) bitSIG
    | 19 => maskIf (loaderBusy d) (bitCTRL + bitNOSLEEP)
    | 20 => maskIf (decide (d.dvfs ≠ [])) bitNOSLEEP
    | 21 => pcieMask d
    | 22 => maskIf (getB d F.FSPI_XSTAT.BUSY || decide (getF d F.BOOT_STAT.PHASE = 1)
        || decide (getF d F.BOOT_ACTSTAT.PASS ≠ 0)) (bitCTRL + bitNOSLEEP)
    | 23 => maskIf d.cspiRun.isSome (bitCTRL + bitNOSLEEP)
    | 24 => maskIf (pmbusBusy d) (bitCTRL + bitNOSLEEP)
    | 25 => maskIf (d.banks.toList.any (fun s => decide (s = .waking ∨ s = .starting ∨ s = .sweeping))) (bitSIG + bitNOSLEEP)
    | 26 => maskIf (d.commits.toList.any (fun l => decide (l ≠ [])) || d.rtArmed.toList.any Option.isSome
        || d.mix.toList.any (fun x => x.armed.isSome) || d.ho.toList.any Option.isSome) (bitSIG + bitNOSLEEP)
    | 27 => maskIf (d.wdHold.isSome && d.guard.any (fun e => decide (e.2.zprev ≠ 0))) bitNOSLEEP
    | 28 => maskIf (d.ccx.toList.any (fun x => x.run && !x.halt && !x.wait)) (bitCTRL + bitNOSLEEP)
    | _ => 0

/-- PWR_HOLD as it reads: the voters whose mask is not zero. -/
def pwrHoldWord (d : Device) : Nat :=
  (List.range 32).foldl (fun s k => s + (if voterMask d k = 0 then 0 else 2 ^ k)) 0

/-- Whether the software voters count (R409): PWR_MODE.VOTE, which acts as 1 until the boot is DONE (R467). -/
def voteOn (d : Device) : Bool := decide (getF d F.BOOT_STAT.PHASE ≠ 2) || getB d F.PWR_MODE.VOTE

/-- The voters that hold any of some mask bits under PWR_MODE (R409), in ascending number. -/
def holdersOf (d : Device) (m : Nat) : List Nat :=
  (List.range 32).filter (fun k =>
    (decide (6 ≤ k) || voteOn d) && decide (Nat.land (voterMask d k) m ≠ 0))

/-- The pseudo-domains that keep the device from a target state (R405). -/
def entryMask (t : Nat) : Nat := if t = 1 then bitNOSLEEP else bitNOSLEEP + bitNODEEP

/-! ### Domains -/

/-- Whether a power domain exists (R38, R407). -/
def domPresent (d : Device) (n : Nat) : Bool :=
  if n < 8 then decide (8 * n < engCount d) else if n = 11 then hasPcie d else decide (n < 13)

/-- The state of a domain: 0 ON, 1 IDLE, 2 DOWN, 3 OFF. -/
def domState (d : Device) (n : Nat) : Nat := if domPresent d n then getF d (F.PWR_DOMSTAT.STATE n) else 3

/-- PWR_DOMSTAT as it reads. -/
def domstatWord (d : Device) : Nat := (List.range 13).foldl (fun s n => s + domState d n * 4 ^ n) 0

/-- The device is in IDLE while every one of domains 0 to 8 is gated or down, and in RUN otherwise (R404). -/
def settlePstate (d : Device) : Device :=
  if awake d then
    { d with pstate := if (List.range 9).all (fun n => decide (domState d n ≠ 0)) then .idle else .run }
  else d

/-- A domain's state replaced. -/
def setDomain (d : Device) (n v : Nat) : Device :=
  if domPresent d n then settlePstate (setF d (F.PWR_DOMSTAT.STATE n) v) else d

/-- Whether a domain is held (R409). -/
def domHeld (d : Device) (n : Nat) : Bool := decide (holdersOf d (2 ^ n) ≠ [])

/-- The count of a domain's timer, in ns (R410). -/
def domTimer (d : Device) (n : Nat) : Nat := d.domNs.toList.getD n 0

/-- The timer of an unheld, unaccessed domain has counted IDLEUS (R27, R410): an access has restarted it. -/
def domainIdle (d : Device) (n : Nat) : Device :=
  let us := getF d (F.PWR_DOMCFG.IDLEUS n)
  if domState d n = 0 ∧ ¬ domHeld d n ∧ us ≠ 0 ∧ us * 1000 ≤ domTimer d n ∧ awake d then setDomain d n 1 else d

/-- Whether R405 allows a domain to go DOWN now. -/
def downAllowed (d : Device) (n : Nat) : Bool :=
  decide (n ≤ 10) && (decide (n ≠ 10) || (List.finRange 8).all (fun l => decide (linkState d l = 0)))

/-- An idle domain's timer has counted a further DOWNUS (R405, R410). -/
def domainDown (d : Device) (n : Nat) : Device :=
  let us := getF d (F.PWR_DOMCFG.IDLEUS n)
  let all := (us + getF d (F.PWR_DOMCFG.DOWNUS n)) * 1000
  if domState d n = 1 ∧ ¬ domHeld d n ∧ us ≠ 0 ∧ getB d (F.PWR_DOMCFG.DOWNEN n) ∧ all ≤ domTimer d n ∧ downAllowed d n ∧ awake d
  then setDomain d n 2
  else d

/-- A domain that is asked to wake is ON (R406). -/
def domainWake (d : Device) (n : Nat) : Device :=
  if domState d n = 1 ∨ domState d n = 2 then setDomain d n 0 else d

/-- The power domain an address lies in (R405); none for those of no domain. -/
def addrDomain (a : Nat) : Option Nat :=
  if a < 0x10000000 then some 8
  else if a < 0x14000000 then some ((a - 0x10000000) / 0x800000)
  else if 0x18000000 ≤ a ∧ a < 0x18200000 then some 12
  else
    match a / 0x10000 with
    | 0x1C00 => some 12
    | 0x1C01 => some 12
    | 0x1C04 => some 12
    | 0x1C05 => some 8
    | 0x1C06 => some 8
    | 0x1C07 => some 8
    | 0x1C08 => some 8
    | 0x1C09 => some 9
    | 0x1C0A => some 8
    | 0x1C0B => some 10
    | 0x1C0D => some ((a - 0x1C0D0000) / 0x200 % 8)
    | 0x1C0E => if a < 0x1C0E4000 then none else some 12
    | 0x1C10 => some 11
    | 0x1C11 => some 8
    | 0x1C12 => some 8
    | _ => none

/-- An access to a domain that is not ON stalls until it is, and then completes (R410, R411): it finds the domain ON. -/
def touch (d : Device) (a : Nat) : Device :=
  match addrDomain a with
  | some n => domainWake { d with domNs := d.domNs.setIfInBounds n 0 } n
  | none => d

/-- A write of PWR_MODE (R409, R410, R467): every timer starts again; until the boot is DONE the write is only stored. -/
def pwrMode (d : Device) (v : Nat) : Device :=
  let d := if getF d F.BOOT_STAT.PHASE = 2 then { d with domNs := Vector.replicate 13 0 } else d
  setF d F.PWR_MODE.VOTE v

/-- A write of PWR_VOTEk (R408): only software voters keep a mask, and bit 13 is ignored. -/
def pwrVote (d : Device) (k v : Nat) : Device :=
  if k < 6 then setF d (F.PWR_VOTE.MASK k) (withBits (v % 2 ^ 16) 13 1 (getF d (F.PWR_VOTE.MASK k) / 2 ^ 13))
  else ignored d

/-! ### Entry -/

/-- A refusal or an abort (R415): counts and cause together, and the event. -/
def pwrRefuse (d : Device) (f : Fld) (cause voter target : Nat) : Device :=
  let d := setF (incF d f) F.PWR_REFUSE_WHO.VOTER voter
  raiseEv (setF (setF { d with devNs := 0 } F.PWR_REFUSE_WHO.CAUSE cause) F.PWR_REFUSE_WHO.TARGET target) 0x1C1

/-- An entry into a target state begins (R416, step 1). -/
def entryBegin (d : Device) (t : Nat) : Device :=
  setF { d with entry := some t, halted := Vector.replicate 4 false, wakePend := none, devNs := 0 } F.PWR_STAT.STATE 2

/-- ENTER written (R414, R415). -/
def pwrEnter (d : Device) : Device :=
  let t := getF d F.PWR_CTL.TARGET
  if t = 0 then ignored d
  else if d.entry.isSome ∨ d.exiting ∨ ¬ awake d then pwrRefuse d F.PWR_REFUSE_CNT.REFUSED 2 0x1F t
  else
    match holdersOf d (entryMask t) with
    | v :: _ => pwrRefuse d F.PWR_REFUSE_CNT.REFUSED 0 v t
    | [] => entryBegin d t

/-- A write of PWR_CTL (R414). -/
def pwrCtl (d : Device) (v : Nat) : Device :=
  let d := setF (setF d F.PWR_CTL.TARGET v) F.PWR_CTL.MS (v / 2 ^ 12)
  if v / 4 % 2 = 1 then pwrEnter d else d

/-- The device timer has counted PWR_CTL.MS (R414). -/
def deviceTimer (d : Device) : Device :=
  let t := getF d F.PWR_CTL.TARGET
  if t = 0 ∨ getF d F.PWR_CTL.MS = 0 ∨ d.devNs < getF d F.PWR_CTL.MS * 1000000 ∨ d.entry.isSome ∨ d.exiting ∨ ¬ awake d ∨ holdersOf d (entryMask t) ≠ [] then d
  else entryBegin d t

/-! ### The tick -/

/-- What the voters hold under PWR_MODE, as one mask (R409). -/
def heldMask (d : Device) : Nat :=
  (List.range 32).foldl (fun s k => if 6 ≤ k ∨ voteOn d then Nat.lor s (voterMask d k) else s) 0

/-- The timers count `ns` (R87, R313, R382, R410, R414): those of the domains that are not held, the device timer while the
pseudo-domains it waits for are not held, the time since the latest reference event and since queue 0's latest word, and the
watchdog's CTRL cycles, which come from REF_IN while the CTRL PLL is muted (R299). -/
def countTimers (d : Device) (ns : Nat) : Device :=
  let held := heldMask d
  let t := getF d F.PWR_CTL.TARGET
  let counts := decide (t ≠ 0 ∧ getF d F.PWR_CTL.MS ≠ 0 ∧ Nat.land held (entryMask t) = 0)
  let khz := if getB d (F.CLK_PLLSTAT.MUTED 1) then refKhz d else 1000 * (clkWord d 0x44 % 2 ^ 10)
  { d with
    domNs := Vector.ofFn (fun n => if held.testBit n.val then 0 else d.domNs[n] + ns)
    devNs := if counts then d.devNs + ns else d.devNs
    refNs := d.refNs + ns
    q0Ns := d.q0Ns + ns
    wdCycles := if getB d F.WDOG_CTL.EN then d.wdCycles + ns * khz / 1000 else d.wdCycles }

/-- The ns from one edge of the clock that drives TIME to the next (R310). -/
def edgeNs (d : Device) : Nat := if mediaMuted d (timeSrc d) then 10 ^ 6 / Nat.max 1 (refKhz d) else 8

/-- One edge of the clock that drives TIME, while it runs: TIME advances, the boot's own time with it, and the timers count
the time between two edges (R310, R382, R416). -/
def idleEdge (d : Device) : Device :=
  if awake d then
    let ns := edgeNs d
    countTimers (timeEdge { d with bootNs := d.bootNs + ns }) ns
  else d

/-- A voter that begins to hold the relevant pseudo-domain aborts an entry before its commit point (R415). -/
def entryCheck (d : Device) : Device :=
  match d.entry with
  | none => d
  | some t =>
    match holdersOf d (entryMask t) with
    | [] => d
    | v :: _ =>
      let was := d.halted
      let d := setF { d with entry := none, halted := Vector.replicate 4 false } F.PWR_STAT.STATE 0
      pwrRefuse (restartDomains d (fun k => was[k])) F.PWR_REFUSE_CNT.ABORTED 1 v t

/-- The delay banks as DEEP takes them (R417, R430). -/
def deepBank (d : Device) (b : Fin 128) : Device :=
  let keep := (reg d (Adr.PWR_BANKRET (b.val / 32))).getLsbD (b.val % 32)
  let s := d.banks[b]
  if bankCount d ≤ b.val then d
  else if keep ∧ s = .on then retain d b
  else if keep ∧ s = .ret then d
  else setBank (wipeBank d b) b .off

/-- What drives the FC pins (R400). -/
def fcWord (d : Device) : Nat := (List.range 8).foldl (fun s n => s + (fcPin d n).toNat * 2 ^ n) 0

/-- The pads latch (R52, R416): every SAP present, the GPIOs, FC and FAULT_N. -/
def padLatch (d : Device) : Device :=
  let d := { d with
    padOut := reg d Adr.GPIO_OUT
    padOe := reg d Adr.GPIO_OE
    padFc := fcWord d
    padFault := faultDriven d
    padMaster := BitVec.ofNat 32 ((List.finRange 32).foldl (fun m n => if laneOn d n && laneMaster d n then m + 2 ^ n.val else m) 0)
    sapRel := 0 }
  setReg64 d Adr.PWR_PADHOLD (2 ^ sapCount d - 1 + 15 * 2 ^ 32)

/-- Words still in a crossing have entered their queues (R395, R416 step 3). -/
def drainQueue (d : Device) (q : Fin 256) : Device :=
  (List.range (que d q).crossing.length).foldl (fun d _ => queArrive d q) d

/-- An exit is in progress. -/
def exitMark (d : Device) : Device := { d with exiting := true }

/-- A wake starts the exit (R420, R424). -/
def exitBegin (d : Device) (src : Nat) : Device :=
  let code := if d.pstate = .sleep then 4 else if d.pstate = .deep then 5 else 6
  let d := setF (setF (exitMark d) F.PWR_STAT.STATE 3) F.PWR_STAT.LAST code
  setF (setF d ⟨Adr.PWR_WAKESRC, src, 1⟩ 1) F.PWR_WAKESRC.LAST src

/-- The kickoffs before a commit point have ended (R416, step 2): every rate domain has made its last, and its rallies and its
resolution are over. -/
def kickoffsEnded (d : Device) : Bool :=
  (List.finRange 4).all (fun k => !produces d k) && d.resolve.toList.all Option.isNone
    && d.ag.toList.all (fun e => decide (e.phase ≠ .rallying))

/-- The commit point and the steps after it, toward target `t` (R416 to R419): `a0` is the AON count at A0. -/
def entryTake (d : Device) (t a0 : Nat) : Device :=
  let d := (List.finRange 256).foldl drainQueue d
  let d := { d with entry := none, restT0 := tod d, restA0 := a0 % 2 ^ 48, winBad := true }
  let d := setF d F.TIME_AON.COUNT a0
  let d := if t = 2 then (List.finRange 128).foldl deepBank d else d
  let d := if t = 3 then d else padLatch d
  let d := { d with pstate := if t = 1 then .sleep else if t = 2 then .deep else .off }
  let d := setF d F.PWR_STAT.STATE (3 + t)
  match d.wakePend with
  | some src => exitBegin { d with wakePend := none } src
  | none => d

/-- ENTRY_COMMIT_POINT (R415, R416): an entry that no voter aborts passes its commit point once its last kickoffs have ended. -/
def entryCommit (d0 : Device) (a0 : Nat) : Device :=
  let d := entryCheck d0
  match d.entry with
  | none => d
  | some t => if kickoffsEnded d then entryTake d t a0 else d

/-! ### Wake sources -/

/-- The states a wake source wakes the device from (R421), by its bit in PWR_WAKECFG. -/
def wakes (src : Nat) (p : PState) : Bool :=
  match p with
  | .sleep => true
  | .deep => true
  | .off => decide (src = 4 ∨ src = 7)
  | _ => false

/-- The state an entry leads to. -/
def entryState (t : Nat) : PState := if t = 1 then .sleep else if t = 2 then .deep else .off

/-- A wake source is recognised (R419, R421, R424); `ok` says in which states it wakes the device. -/
def wake (d : Device) (src : Nat) (ok : PState → Bool) : Device :=
  if getF d ⟨Adr.PWR_WAKECFG, src, 1⟩ = 0 then d
  else if d.exiting then (if ok d.pstate then setF d ⟨Adr.PWR_WAKESRC, src, 1⟩ 1 else d)
  else
    match d.entry with
    | some t =>
      if ¬ ok (entryState t) then d
      else if d.wakePend = none then { d with wakePend := some src }
      else setF d ⟨Adr.PWR_WAKESRC, src, 1⟩ 1
    | none => if ok d.pstate then exitBegin d src else d

/-- WAKE_N asserted. -/
def wakePin (d : Device) : Device := wake d 4 (wakes 4)

/-- The output of comparator `k` for an input of `mv` mV: its hysteresis lies about THR, mirrored for a falling input (R422). -/
def senseOut (d : Device) (k : Fin 4) (mv : Nat) : Bool :=
  let thr := getF d (F.PWR_SENSE.THR k.val)
  let hyst := 4 * getF d (F.PWR_SENSE.HYST k.val)
  let above := decide (thr + hyst < mv)
  let below := decide (mv + hyst < thr)
  let old := getB d (F.PWR_SENSE.OUT k.val)
  if getB d (F.PWR_SENSE.POL k.val) then above || (old && !below) else below || (old && !above)

/-- A sample of comparator `k` on an AON edge, its input at `mv` mV (R422): the (DEB + 1)-th consecutive sample at 1 is a wake.
The comparators are off in OFF (R55). -/
def senseCrossing (d : Device) (k : Fin 4) (mv : Nat) : Device :=
  if d.pstate = .off then d
  else
    let out := senseOut d k mv
    let run := if out then d.senseRun[k] + 1 else 0
    let d := setB { d with senseRun := d.senseRun.set k run } (F.PWR_SENSE.OUT k.val) out
    if run = getF d (F.PWR_SENSE.DEB k.val) + 1 then wake d k.val (wakes k.val) else d

/-- Squelch detection on a link (R421). -/
def squelchWake (d : Device) (n : Fin 8) : Device :=
  if n.val < linkCount d ∧ linkField d n.val 0x40 3 1 = 1 then wake d 5 (wakes 5) else d

/-- A falling edge of HSPI_CS_N or an exit of PCIe from L1 (R421, R493). -/
def hostWake (d : Device) : Device := wake d 6 (fun p => decide (p = .sleep))

/-- PERST_N rises (R421, R502). -/
def perstWake (d : Device) : Device := if hasPcie d then wake d 6 (fun p => decide (p = .deep)) else d

/-- Whether the AON count may have reached AT: while the device runs, TIME_AON.COUNT is known to one calibration window of
65,536 cycles (R321, R423). -/
def alarmReached (d : Device) : Bool :=
  !awake d || decide (getF d F.PWR_ALARM.AT < getF d F.TIME_AON.COUNT + 65536)

/-- The AON alarm fires on an AON edge at which the count has reached AT (R423). -/
def aonAlarm (d : Device) : Device :=
  if getF d F.PWR_ALARM.EN = 1 ∧ alarmReached d then wake (raiseEv (setF d F.PWR_ALARM.EN 0) 0x1C4) 7 (wakes 7) else d

/-- STATUS_WORD has been read (R435). -/
def pmbStatus (d : Device) (status : Nat) : Device := raiseEv (setF d F.PWR_PMBSTAT.STATUS status) 0x1C3

/-- PMB_ALERT_N changes its level (R55, R421, R435): none is its release; asserted while the device is stopped, the read of
STATUS_WORD waits for the bus. -/
def pmbAlert (d : Device) (status : Option Nat) : Device :=
  if d.pstate = .off then d
  else
    match status with
    | none => setF d F.PWR_PMBSTAT.ALERT 0
    | some v =>
      let d := setF d F.PWR_PMBSTAT.ALERT 1
      if awake d then wake (pmbStatus d v) 8 (wakes 8)
      else wake { d with pmbDue := some v } 8 (wakes 8)

/-! ### Delay banks (R209 to R211) -/

/-- A sweep ends: the bank goes to the state its DLY_BANKPWR field names (R210, R426). -/
def sweepDone (d : Device) (b : Fin 128) : Device :=
  if d.banks[b] = .sweeping ∧ b.val < bankCount d then
    let f := getF d (F.DLY_BANKPWR.PWR (b.val / 16) (b.val % 16))
    if f = 1 then retain d b else if f = 2 then setBank d b .off else setBank d b .on
  else d

/-- A bank leaves retention (R211): its canaries, with what changed in their cells meanwhile, are compared. -/
def retainEnd (d : Device) (b : Fin 128) (lost : List (Fin 4 × Cell)) (f : Device → Device) : Device :=
  let d := lost.foldl (putCanary b) d
  if canariesOk d b then f d else canaryFail d b

/-- A bank transition completes (R209, R211): `lost` is what changed in the canary cells. -/
def transitionDone (d : Device) (b : Fin 128) (lost : List (Fin 4 × Cell)) : Device :=
  match d.banks[b] with
  | .waking => retainEnd d b lost (fun d => setBank d b .on)
  | .starting => startSweep d b
  | _ => d

/-- A bank on leaving DEEP (R210, R211, R426): `lost` is what changed in the canary cells of the banks. -/
def deepLeave (lost : List (Fin 128 × Fin 4 × Cell)) (d : Device) (b : Fin 128) : Device :=
  let f := getF d (F.DLY_BANKPWR.PWR (b.val / 16) (b.val % 16))
  if bankCount d ≤ b.val then d
  else if d.banks[b] = .ret then
    retainEnd d b ((lost.filter (fun c => decide (c.1 = b))).map (·.2)) (fun d =>
      if f = 0 then setBank d b .on
      else if f = 2 then setBank (wipeBank d b) b .off
      else d)
  else if f = 2 then d
  else startSweep d b

/-! ### Exit -/

/-- Every PLL that runs and has a band locks again (R299, R425). -/
def pllsLock (d : Device) : Device :=
  timeSrcState ((List.range 6).foldl (fun d j =>
    if pllRuns d j && !getB d (F.CLK_PLLSTAT.NOBAND j) then setB (setB d (F.CLK_PLLSTAT.LOCK j) true) (F.CLK_PLLSTAT.MUTED j) false
    else d) d)

/-- The STATUS_WORD that waited is taken. -/
def pmbTake (d : Device) : Device := { d with pmbDue := none }

/-- The exit from SLEEP or DEEP completes (R425, R426, R428): `a1` is the AON count at A1, `lost` what changed in the
canary cells. -/
def exitComplete (d : Device) (a1 : Nat) (lost : List (Fin 128 × Fin 4 × Cell)) : Device :=
  if d.exiting ∧ (d.pstate = .sleep ∨ d.pstate = .deep) then
    let deep := decide (d.pstate = .deep)
    let d := settlePstate { d with
      pstate := .run
      exiting := false
      halted := Vector.replicate 4 false
      sap := d.sap.map (fun x => { x with frame := none, fresh := true, due := none }) }
    let d := setF d F.PWR_STAT.STATE 0
    let d := if deep then (List.finRange 128).foldl (deepLeave lost) d else d
    let d := timeBegin (pllsLock d) a1
    let d := guardWake (restartDomains (freeLocked d) (fun _ => true))
    let d := (List.finRange 8).foldl linkRetrain d
    let d := join d
    let d := raiseEv d 0x1C0
    match d.pmbDue with
    | some s => pmbStatus (pmbTake d) s
    | none => d
  else d

/-! ### Pads (R51 to R57, R429, R507) -/

/-- A write of PWR_PADREL (R429): a SAP port that runs is released at its next frame boundary. -/
def padRelease (d : Device) (v : Nat) : Device :=
  let running := (List.finRange 32).foldl (fun s n => if laneOn d n then s + 2 ^ n.val else s) 0
  let hold := reg64 d Adr.PWR_PADHOLD
  let now := Nat.lor (Nat.land v (2 ^ 32 - 1 - running)) (v / 2 ^ 32 % 16 * 2 ^ 32)
  let due := Nat.land (Nat.land v running) hold
  let d := { d with sapRel := d.sapRel ||| BitVec.ofNat 32 due }
  setReg64 d Adr.PWR_PADHOLD (hold - Nat.land hold now)

/-- Whether a GPIO pad is held (R52): pads 0 to 15 by GPIOL, 16 to 31 by GPIOH. -/
def gpioHeld (d : Device) (k : Nat) : Bool := getB d (if k < 16 then F.PWR_PADHOLD.GPIOL else F.PWR_PADHOLD.GPIOH)

/-- The level GPIO_IN reports for a pad (R507): a held input reads 0, a driving pad reads back what it drives. -/
def gpioLevel (d : Device) (k : Nat) : Bool :=
  if gpioHeld d k then d.padOe.getLsbD k && d.padOut.getLsbD k
  else if (reg d Adr.GPIO_OE).getLsbD k then (reg d Adr.GPIO_OUT).getLsbD k
  else d.gpioPads.getLsbD k

/-- GPIO_IN as it reads. -/
def gpioInWord (d : Device) : Nat := (List.range 32).foldl (fun s k => s + (gpioLevel d k).toNat * 2 ^ k) 0

/-- GPIO_SENSE as it reads. -/
def gpioSenseWord (d : Device) : Nat := (List.range 4).foldl (fun s k => s + getF d (F.PWR_SENSE.OUT k) * 2 ^ k) 0

/-- The FC pins (R52, R400). -/
def fcPads (d : Device) : Nat := if getB d F.PWR_PADHOLD.FC then d.padFc else fcWord d

/-- FAULT_N driven low at the pad (R52, R387). -/
def faultPad (d : Device) : Bool := if getB d F.PWR_PADHOLD.FAULT then d.padFault else faultDriven d

end Sys2Proof.Machine
end

