-- ==== Sys2Proof/Machine/Boot.lean ====
section
/-! DEFINITION. Boot, images and readiness (R449 to R468), the FSPI command port (R480), live activation (R481), and the
secure partition's life cycle (R482 to R484). -/

namespace Sys2Proof.Machine

/-! ### Blocks of the secure partition read at reset -/

/-- Whether a value is a legal FSPI_CFG (R452, R454). -/
def fspiCfgOk (v : Nat) : Bool :=
  decide (2 ≤ v % 2 ^ 5 ∧ v / 2 ^ 5 % 2 ^ 3 = 0 ∧ 4 ≤ v / 2 ^ 8 % 2 ^ 5 ∧ v / 2 ^ 13 % 2 ^ 3 = 0 ∧ v / 2 ^ 24 = 0)

/-- Whether the boot settings block passes its checks (R452). -/
def bootBlockOk (d : Device) : Bool :=
  decide (secAt d 0xA000 = 0x42530001) && decide ((crcOf (secWords d 0xA000 3)).toNat = secAt d 0xA00C)
    && decide (secAt d 0xA004 ≤ 1000000) && fspiCfgOk (secAt d 0xA008)

/-- FSPIHDR, or the loader's own settings: DIV 16, LAT 20, QCMD 0xEC (R452). -/
def fspiHdr (d : Device) : Nat := if bootBlockOk d then secAt d 0xA008 else 16 + 20 * 2 ^ 8 + 0xEC * 2 ^ 16

/-- FLASHWAIT in µs, or the loader's own 20,000 (R452). -/
def flashWait (d : Device) : Nat := if bootBlockOk d then secAt d 0xA004 else 20000

/-- The settings in use for an FSPI_CFG value: where CTRL / DIV would exceed the clock limit of the source, 100 MHz for quad
flash and 200 MHz otherwise, the smallest divider that meets it (R453). -/
def fspiUse (d : Device) (v : Nat) : Nat :=
  let limit := if getF d F.BOOT_STAT.SRC = 1 then 100 else 200
  withBits v 0 5 (Nat.max (v % 2 ^ 5) ((clkWord d 0x44 % 2 ^ 10 + limit - 1) / limit))

/-- The loader's settings of the flash port; FSPI_CFG shows those in use (R453). -/
def putFspi (d : Device) (v : Nat) : Device := setReg d Adr.FSPI_CFG (BitVec.ofNat 32 (fspiUse d v))

/-- Whether a GUARD_TC value has its fields within their ranges. -/
def guardTcOk (v : Nat) : Bool :=
  decide (4 ≤ v % 2 ^ 5 ∧ v % 2 ^ 5 ≤ 30 ∧ v / 2 ^ 5 % 2 ^ 3 = 0 ∧ 4 ≤ v / 2 ^ 8 % 2 ^ 5 ∧ v / 2 ^ 8 % 2 ^ 5 ≤ 30
    ∧ v / 2 ^ 13 % 2 ^ 3 = 0 ∧ 4 ≤ v / 2 ^ 16 % 2 ^ 5 ∧ v / 2 ^ 16 % 2 ^ 5 ≤ 24 ∧ v / 2 ^ 21 = 0)

/-- Whether a value keeps the ranges of a Guard register. -/
def guardWordOk (a v : Nat) : Bool :=
  if 0x1C070000 ≤ a ∧ a < 0x1C078000 ∧ a % 32 = 0x14 then guardTcOk v
  else decide (a % 32 ≠ 0 ∨ v < 2 ^ 31) && (rtFields a).all (fun x => rtInRange x (rtNew x v))

/-- Whether the Guard profile passes its checks (R285). -/
def guardProfileOk (d : Device) : Bool :=
  decide (secAt d 0x1000 = 0x47440001 ∧ secAt d 0x1004 = 0x400)
    && decide ((crcOf (secWords d 0x1000 3 ++ secWords d 0x1010 6144)).toNat = secAt d 0x100C)
    && (rtFields Adr.GUARD_WDOG).all (fun x => rtInRange x (rtNew x (secAt d 0x1008)))
    && (List.range 1024).all (fun c => (List.range 6).all (fun i =>
      guardWordOk (0x1C070000 + 32 * c + 4 * i) (secAt d (0x1010 + 24 * c + 4 * i))))

/-- The Guard profile is read and loaded (R284, R285). -/
def guardProfile (d : Device) : Device :=
  if guardProfileOk d then
    let d := (List.range 1024).foldl (fun d c => (List.range 6).foldl (fun d i =>
      setReg d (0x1C070000 + 32 * c + 4 * i) (BitVec.ofNat 32 (secAt d (0x1010 + 24 * c + 4 * i)))) d) d
    setF (setReg d Adr.GUARD_WDOG (BitVec.ofNat 32 (secAt d 0x1008))) F.GUARD_STAT.PROFILE 1
  else
    let closed := decide (2 ≤ d.lc)
    let d := if closed then (List.range 1024).foldl (fun d c => setF d (F.GUARD_CEIL.CEIL c) 0) d else d
    raiseEv (setB (setF d F.GUARD_STAT.PROFILE (if closed then 3 else 2)) F.GUARD_STAT.PROFERR true) 0x196

/-- The PLL defaults are read, and every PLL starts (R297, R451). -/
def pllDefaults (d : Device) : Device :=
  let d := [0x40, 0x44].foldl (fun d o => setClkWord d o (clkDefault d o)) d
  let d := if pllBlockOk d then
      let t := sparseFill bandDflt (fun i => BitVec.ofNat 32 (secAt d (0x8010 + 4 * i))) 0 384 d.bands
      { d with bands := t, bandsEff := t }
    else (List.range 6).foldl (fun d j => setB d (F.CLK_PLLSTAT.DEFROM j) true) d
  (List.range 6).foldl pllStart (idleBits d)

/-! ### Readiness -/

/-- CLOCKS and DELAY are set when their part of the reset sequence is complete (R451, R468). -/
def bootProgress (d : Device) : Device :=
  if getB d F.SYS_READY.FUSE then
    let d := if getB d (F.CLK_PLLSTAT.LOCK 0) && getB d (F.CLK_PLLSTAT.LOCK 1) then setB d F.SYS_READY.CLOCKS true else d
    if (List.finRange 128).all (fun b => decide (bankCount d ≤ b.val) || decide (d.banks[b] ≠ .sweeping)) then
      setB d F.SYS_READY.DELAY true
    else d
  else d

/-- SYS_READY as it reads: PCIE, KICK, TIME and FABRIC follow the live state (R468). -/
def sysReadyWord (d : Device) : Nat :=
  let noLink := (List.finRange 8).all (fun n => decide (linkCount d ≤ n.val) || decide (linkState d n = 0))
  let v := (reg d Adr.SYS_READY).toNat
  let v := withBits v 2 1 (getB d F.SYS_READY.CLOCKS && d.perst && hasPcie d).toNat
  let v := withBits v 8 1 ((List.finRange 4).any (produces d)).toNat
  let v := withBits v 13 1 (getB d F.TIME_STAT.LOCKED).toNat
  withBits v 14 1 (noLink || (decide (fabState d = 4) && !getB d F.FAB_STAT.GATED)).toNat

/-! ### The reset sequence (R449, R451) -/

/-- What starts a boot (R449). -/
inductive BootKind where
  | powerOn | resetN | offWake
  deriving DecidableEq, Repr

/-- Words of the register file carried over a reset. -/
def carryRegs (old new : Device) (as : List Nat) : Device := as.foldl (fun d a => setReg d a (reg old a)) new

/-- The words that keep their values: of RESET_N the AON counter and the epoch (R319, R350); of a wake from OFF every
AON-domain field (R319, R416, R420 to R424). -/
def carried (k : BootKind) : List Nat :=
  match k with
  | .powerOn => []
  | .resetN => [Adr.TIME_AON, Adr.TIME_AON + 4, Adr.FAB_EPOCH]
  | .offWake =>
    [Adr.TIME_AON, Adr.TIME_AON + 4, Adr.FAB_EPOCH, Adr.TIME_AONCAL, Adr.TIME_AONQ, Adr.PWR_SENSE 0, Adr.PWR_SENSE 1,
      Adr.PWR_SENSE 2, Adr.PWR_SENSE 3, Adr.PWR_WAKECFG, Adr.PWR_WAKESRC, Adr.PWR_ALARM, Adr.PWR_ALARM + 4]

/-- The device in reset: everything at its reset value but the fuses, the partition, the pins and what the kind of reset
carries over. -/
def inReset (d : Device) (k : BootKind) : Device :=
  let e : Device := { Device.reset with
    variant := d.variant
    free := d.free
    part := d.part
    lc := d.lc
    wiping := d.wiping
    whistle := d.whistle
    perst := d.perst
    gpioPads := d.gpioPads
    restT0 := d.restT0
    restA0 := d.restA0 }
  let e := setB (carryRegs d e (carried k)) F.GUARD_STAT.WHISTLE d.whistle
  match k with
  | .powerOn => setF e F.FAB_EPOCH.EPOCH 1
  | .resetN => setF e F.FAB_EPOCH.REJOINS 0
  | .offWake => setF (setF e F.FAB_EPOCH.REJOINS 0) F.PWR_STAT.LAST (getF d F.PWR_STAT.LAST)

/-- The secure partition as the reset sequence reads it. -/
def readPart (d : Device) : Device := { d with partAt := d.part }

/-- A boot starts (R42, R51, R53, R281, R350, R441, R449 to R452): `sel` is BOOTSEL as sampled, `a1` the AON count at A1
after OFF. -/
def bootStart (d : Device) (k : BootKind) (sel a1 : Nat) : Device :=
  let d := inReset d k
  let d := setB (setB (readPart d) F.SYS_READY.FUSE true) F.SYS_READY.HSPI true
  let d := setF d F.BOOT_STAT.SRC sel
  let d := setB (pllDefaults d) F.BOOT_STAT.BSDEF (!bootBlockOk d)
  let d := putFspi d (fspiHdr d)
  let d := setB d F.SYS_READY.SECURE true
  let d := setB (guardProfile d) F.SYS_READY.GUARD true
  let d := bootProgress (join d)
  if k = .offWake then setF (timeBegin (exitMark d) a1) F.PWR_STAT.STATE 3 else d

/-! ### The load -/

/-- BOOT_FAIL takes a failure. -/
def bootFail (d : Device) (block slot cause code : Nat) : Device :=
  setF (setF (setF (setF d F.BOOT_FAIL.BLOCK block) F.BOOT_FAIL.SLOT slot) F.BOOT_FAIL.CAUSE cause) F.BOOT_FAIL.CODE code

/-- Every region EMPTY, that of the clocks with its reset fields (R465). -/
def regionsEmpty (d : Device) : Device :=
  (List.range 256).foldl (fun d r => if regionPresent d r ∧ (rgn d r).st ≠ .empty then emptyRegion d r else d) d

/-- The device comes up from the ROM recovery structure (R465). -/
def recovery (d : Device) (cause : Nat) : Device :=
  let d := if cause = 6 ∨ cause = 7 then bootFail d 0 0 cause 0 else setF d F.BOOT_FAIL.CAUSE cause
  let d := regionsEmpty d
  let d := (List.range 512).foldl (fun d v => setReg d (Adr.EVT_ROUTE v) 0) d
  let d := evtSettle (setB d (F.EVT_ROUTE.ATTN 0x1CB) true)
  let d := (List.finRange 4).foldl ccHold d
  let d := setB (setB { d with boot := none, pushFail := false, pushWait := false, pushHdr := [] } F.LDR_CTL.Q0EN true)
    F.SYS_READY.RECOVERY true
  raiseCtrl (setF d F.BOOT_STAT.PHASE 3) 0x1CB

/-- Whether the reset sequence is complete (R451). -/
def sequenceDone (d : Device) : Bool :=
  getB d F.SYS_READY.FUSE && getB d F.SYS_READY.CLOCKS && getB d F.SYS_READY.SECURE && getB d F.SYS_READY.GUARD
    && getB d F.SYS_READY.DELAY

/-- Whether the load waits for the flash (R451, R452): FLASHWAIT has not elapsed from the start of the boot. -/
def flashWaits (d : Device) : Bool :=
  decide (getF d F.BOOT_STAT.SRC < 2) && decide (d.bootNs < 1000 * flashWait d)

/-- LOAD_BEGIN (R42, R420, R424, R450 to R452, R465). -/
def loadBegin (d : Device) : Device :=
  if getF d F.BOOT_STAT.PHASE ≠ 0 ∨ ¬ sequenceDone d ∨ flashWaits d then d
  else
    let d := if d.exiting then raiseEv (setF { d with exiting := false } F.PWR_STAT.STATE 0) 0x1C0 else d
    if d.variant.fuseErr then recovery d 6
    else if getF d F.BOOT_STAT.SRC = 3 then recovery d 7
    else setF d F.BOOT_STAT.PHASE 1

/-- A slot header that meets every range and whose CRC matches (R454, R455). -/
def slotHeader (ws : List Word) : Option SlotHdr :=
  let w := fun i => (ws.getD i 0).toNat
  if 16 ≤ ws.length ∧ w 0 = 0x54534F52 ∧ w 1 = 1 ∧ 1 ≤ w 3 ∧ w 3 ≤ 512 ∧ 20 ≤ w 4 ∧ w 4 ≤ 33554368 ∧ w 4 % 4 = 0
      ∧ (w 5 = 0 ∨ fspiCfgOk (w 5)) ∧ w 6 < 2 ^ 16 ∧ (∀ i ∈ List.range 8, w (7 + i) = 0)
      ∧ (crcOf (ws.take 15)).toNat = w 15 then
    some ⟨w 2, w 3, w 4, w 5⟩
  else none

/-- ENGCNT and BANKCNT of the variant, as SYS_VARIANT encodes them (R36, R42). -/
def variantCounts (d : Device) : Nat := engCount d + 2 ^ 8 * bankCount d

/-- A valid header for another variant sets BOOT_STAT.VARIANT (R455). -/
def noteVariant (d : Device) (ws : List Word) : Device :=
  if (ws.getD 6 0).toNat % 2 ^ 16 = variantCounts d then d else setB d F.BOOT_STAT.VARIANT true

/-- The FSPI settings of block reads. -/
def blockCfg (d : Device) (h : SlotHdr) : Device :=
  if h.fspiblk = 0 then d else putFspi d h.fspiblk

/-- The reading of a slot as it starts. -/
def SlotRd.start (slot : Nat) (h : SlotHdr) : SlotRd :=
  ⟨slot, h.nblk, h.imglen, 0, 0, false, [], [], false, 0, 0, false, 0, none⟩

/-- The load of a slot begins at its block 0 (R456, R464). -/
def slotStart (d : Device) (slot : Nat) (h : SlotHdr) : Device :=
  let d := setPath { d with boot := some (SlotRd.start slot h) } 0 LdrPath.reset
  blockCfg (setF (setB (setF d F.BOOT_STAT.SLOT slot) F.SYS_READY.SLOT true) F.BOOT_POS.BLOCK 0) h

/-- The choice of a slot once both headers are read (R456). -/
def slotChoose (d : Device) (a b : Option SlotHdr) : Device :=
  match a, b with
  | some x, some y =>
    let diff := (x.seq + 2 ^ 32 - y.seq) % 2 ^ 32
    if diff = 0 ∨ diff = 2 ^ 31 then slotStart (setB d F.BOOT_STAT.TIE true) 0 x
    else if diff < 2 ^ 31 then slotStart d 0 x else slotStart d 1 y
  | some x, none => slotStart d 0 x
  | none, some y => slotStart d 1 y
  | none, none => recovery (bootFail d 0 0 5 0) 5

/-- The header of a flash slot has been read (R455). -/
def flashHeader (d : Device) (slot : Fin 2) (ws : List Word) : Device :=
  match d.hdrs[slot] with
  | some _ => d
  | none =>
    let h := slotHeader ws
    let d := { d with hdrs := d.hdrs.set slot (some h) }
    let d := match h with
      | some x =>
        let d := noteVariant d ws
        if slot = 0 then setF (setB d F.BOOT_STAT.AVALID true) F.BOOT_SEQA.SEQ x.seq
        else setF (setB d F.BOOT_STAT.BVALID true) F.BOOT_SEQB.SEQ x.seq
      | none => d
    match d.hdrs[(0 : Fin 2)], d.hdrs[(1 : Fin 2)] with
    | some a, some b => slotChoose d a b
    | _, _ => d

/-! ### Abandoning a slot (R463, R464) -/

/-- A region the slot reached returns to EMPTY, its bank group's banks swept (R210, R463). -/
def abandonRegion (d : Device) (r : Nat) : Device :=
  let d := emptyRegion d r
  if regionClass r = some 1 then
    (List.finRange 128).foldl (fun d b => if b.val / 8 = r - 0x40 ∧ b.val < bankCount d then startSweep d b else d) d
  else d

/-- What the slot put in place is taken back (R463). -/
def unwind (d : Device) (cores : Nat) : Device :=
  let d := (List.finRange 4).foldl (fun d k =>
    let mine := (commitsOf d k).filter (fun c => decide (c.path = 0))
    mine.foldl cancelCommit (setCommits d k ((commitsOf d k).filter (fun c => decide (c.path ≠ 0))))) d
  let d := (path d 0).load.foldl abandonRegion d
  let d := (List.finRange 4).foldl (fun d c => if cores.testBit c.val then ccHold d c else d) d
  let d := setPath { d with imgLeft := 0 } 0 LdrPath.reset
  setB (setB d F.SYS_READY.CORES false) F.SYS_READY.LOADED false

/-- What follows a failure: the other slot, a further push, or recovery (R456, R464, R466). -/
def afterFailure (d : Device) (slot cause : Nat) : Device :=
  if getF d F.BOOT_STAT.SRC = 2 then
    { d with boot := none, pushFail := true, pushWait := true, pushHdr := [], pushNs := d.bootNs }
  else
    let other : Fin 2 := ⟨1 - slot, by omega⟩
    match d.hdrs[other] with
    | some (some h) =>
      if getB d (if slot = 0 then F.BOOT_STAT.BFAIL else F.BOOT_STAT.AFAIL) then recovery d cause else slotStart d other.val h
    | _ => recovery d cause

/-- A slot is abandoned (R463, R464). -/
def abandon (d : Device) (slot block cores cause code : Nat) : Device :=
  let d := unwind d cores
  let d := setB (bootFail d block slot cause code) (if slot = 0 then F.BOOT_STAT.AFAIL else F.BOOT_STAT.BFAIL) true
  afterFailure (raiseCtrl d 0x1CA) slot cause

/-! ### Blocks (R457 to R459) -/

/-- A field of a block's header. -/
def blkField (b : List Word) (w lo len : Nat) : Nat := bitsOf (b.getD w 0).toNat lo len

/-- KIND of a block. -/
def blkKind (b : List Word) : Nat := blkField b 0 0 8

/-- LENGTH of a block. -/
def blkLen (b : List Word) : Nat := blkField b 1 0 14

/-- The payload of a block. -/
def blkPayload (b : List Word) : List Word := (b.drop 4).take (blkLen b)

/-- Whether the read of a block fails before its BCRC passes (R459). -/
def readFails (x : SlotRd) (b : List Word) (early : Bool) : Bool :=
  early || decide (b.length < 4 ∨ 16379 < blkLen b ∨ x.nblk ≤ blkField b 0 8 10
    ∨ x.imglen < 4 * (x.words + blkLen b + 5) ∨ b.length < blkLen b + 5)
    || decide (crcOf (b.take (blkLen b + 4)) ≠ b.getD (blkLen b + 4) 0)

/-- Whether a START payload is legal (R457). -/
def startOk (ps : List Word) : Bool :=
  let m := (ps.getD 0 0).toNat
  decide (ps.length = 5 ∧ m < 16)
    && (List.range 4).all (fun c => !m.testBit c || decide ((ps.getD (1 + c) 0).toNat % 8 = 0))

/-- Whether a block that passed BCRC breaks the rules of its kind (R457, R459). -/
def blockBad (x : SlotRd) (b : List Word) : Bool :=
  let dest := blkField b 2 0 32
  let plain := decide (dest = 0 ∧ blkField b 3 0 32 = 0)
  !(decide (blkField b 0 8 10 = x.next ∧ blkField b 0 18 14 = 0 ∧ blkField b 1 14 18 = 0)
    && (match blkKind b with
      | 1 => plain
      | 2 => decide (blkField b 3 2 30 = 0 ∧ dest % 4 = 0 ∧ 0x18000000 ≤ dest ∧ dest + 4 * blkLen b ≤ 0x18200000)
      | 3 => plain && startOk (blkPayload b)
      | _ => false))

/-- A slot's reading replaced. -/
def setBoot (d : Device) (x : SlotRd) : Device := { d with boot := some x }

/-- A block of a slot has been read into a buffer: `early` says that the read ended early (R458, R459). -/
def bootBlock (d : Device) (x : SlotRd) (b : List Word) (early again : Bool) : Device :=
  if readFails x b early then
    if again ∧ ¬ x.retried then
      let d := putFspi d (fspiHdr d)
      raiseCtrl (setB (setBoot d { x with retried := true }) F.BOOT_STAT.RETRIED true) 0x1C9
    else abandon d x.slot x.next x.cores 1 0
  else if blockBad x b then abandon d x.slot x.next x.cores 4 0
  else
    let n := blkLen b + 5
    let d := match (if again then d.hdrs[(⟨x.slot % 2, by omega⟩ : Fin 2)] else none) with
      | some (some h) => blockCfg d h
      | _ => d
    setBoot d { x with next := x.next + 1, words := x.words + n, retried := false, got := [], bufs := x.bufs ++ [b.take n] }

/-! ### Host push (R466) -/

/-- Up to `n` words of queue 0, and whether one of them is not tagged SAMPLE. -/
def pushTake (d : Device) (n : Nat) : Device × List Word × Bool :=
  let r := quePops d 0 (Nat.min n (que d 0).words.length)
  (r.1, r.2.map (·.p), r.2.any (fun w => decide (w.t ≠ .sample)))

/-- The header of a pushed image is taken from queue 0. -/
def pushHeader (d : Device) : Device :=
  let r := pushTake d (16 - d.pushHdr.length)
  let ws := d.pushHdr ++ r.2.1
  let d := { r.1 with pushHdr := ws, pushWait := d.pushWait && ws.isEmpty }
  if r.2.2 then abandon d 0 0 0 1 0
  else if ws.length < 16 then d
  else
    match slotHeader ws with
    | some h => slotStart (noteVariant { d with pushHdr := [] } ws) 0 h
    | none => abandon d 0 0 0 5 0

/-- Words of a pushed block are taken until `n` are held; whether one was not tagged SAMPLE. -/
def pushFill (d : Device) (x : SlotRd) (n : Nat) : Device × SlotRd × Bool :=
  let r := pushTake d (n - x.got.length)
  (r.1, { x with got := x.got ++ r.2.1 }, r.2.2)

/-- The words of a pushed block are taken from queue 0, and the block is checked once it is whole. -/
def pushBlock (d : Device) (x : SlotRd) : Device :=
  let r := pushFill d x 4
  let s := if r.2.1.got.length < 4 then r else
    let t := pushFill r.1 r.2.1 (Nat.min (blkLen r.2.1.got) 16379 + 5)
    (t.1, t.2.1, r.2.2 || t.2.2)
  let x := s.2.1
  if s.2.2 then abandon s.1 0 x.next x.cores 1 0
  else if x.got.length < 4 ∨ (x.got.length < blkLen x.got + 5 ∧ blkLen x.got ≤ 16379) then setBoot s.1 x
  else bootBlock s.1 x x.got false false

/-- A word that reaches queue 0 while a failed push is unanswered is discarded (R466). -/
def pushDiscard (d : Device) (q : Fin 256) : Device :=
  if d.pushFail ∧ q = 0 then (quePops d 0 (que d 0).words.length).1 else d

/-- A flush of queue 0 answers a failed push (R466). -/
def pushFlush (d : Device) : Device := { d with pushFail := false }

/-- QUEUE0_GAP_TIMEOUT during a host push (R465, R466). -/
def pushGap (d : Device) : Device :=
  let us := getF d F.LDR_Q0TIMEOUT.US
  if getF d F.BOOT_STAT.PHASE = 1 ∧ getF d F.BOOT_STAT.SRC = 2 ∧ us ≠ 0 ∧ us * 1000 < d.q0Ns ∧ ¬ d.pushFail then
    match d.boot with
    | some x => if x.next < x.nblk then abandon d 0 x.next x.cores 1 0 else d
    | none => if d.pushHdr ≠ [] then abandon d 0 0 0 1 0 else d
  else d

/-- HOST_PUSH_TIMEOUT (R466): no header has started within 2^24 µs after a failure. -/
def pushTimeout (d : Device) : Device :=
  if d.pushWait ∧ getF d F.BOOT_STAT.PHASE = 1 ∧ d.pushNs + 1000 * 2 ^ 24 ≤ d.bootNs then recovery d (getF d F.BOOT_FAIL.CAUSE) else d

/-! ### Applying blocks -/

/-- How the records of a block ended: they wait, they are all applied, the last runs past the block, an END failed, or a
record was aborted with a code. -/
inductive BlkEnd where
  | wait | done (lastEnd : Bool) | crossed | endFail | aborted (code : Nat)
  deriving DecidableEq, Repr

/-- The records of a block that a path was fed are applied in order, at most `fuel` of them. -/
def blockRecords (p : Fin 3) : Nat → Bool → Device → Device × BlkEnd
  | 0, _, d => (d, .wait)
  | fuel + 1, last, d =>
    if (path d p).feed = [] ∧ (path d p).got = [] then (d, .done last)
    else
      let t := nextType d p
      let r := recordStep d p (fun _ => true)
      match r.2 with
      | .done => blockRecords p fuel (decide (t = some 6) && !(path r.1 p).batch) r.1
      | .endFail => (r.1, .endFail)
      | .aborted c => (r.1, .aborted c)
      | .idle => (r.1, .wait)
      | .wait =>
        let y := path r.1 p
        let whole := decide (3 ≤ y.got.length) && decide ((headerIn y.got).len + 4 ≤ y.got.length)
        (r.1, if y.feed = [] ∧ ¬ whole then .crossed else .wait)

/-- A block's records, handed to a path unless that was done. -/
def applyRecords (d : Device) (p : Fin 3) (x : SlotRd) (b : List Word) : Device × BlkEnd :=
  let left := x.imglen / 4 - x.done - 4
  let d := if x.fed then d
    else
      let d := if p = 0 then { d with imgLeft := left } else { d with cmdLeft := some left }
      setPath d p { path d p with feed := blkPayload b }
  blockRecords p (blkLen b + 1) false d

/-- A word put at the next place of the control-core memories, with a tag. -/
def copyWord (t : Tag) (r : Device × Nat) (w : Word) : Device × Nat := (putCc r.1 r.2 ⟨w, t⟩, r.2 + 1)

/-- The words of a MEMORY block copied with its tag kind (R457). -/
def copyMemory (d : Device) (b : List Word) : Device :=
  ((blkPayload b).foldl (copyWord (kindCode (blkField b 3 0 2))) (d, blkField b 2 0 32 / 4)).1

/-- The reset vectors of a START block are written and its cores started (R376, R457). -/
def startCores (d : Device) (b : List Word) : Device :=
  let ps := blkPayload b
  (List.finRange 4).foldl (fun d c =>
    if (ps.getD 0 0).toNat.testBit c.val then ccStart (setReg d (Adr.CC_RESETVEC c.val) (ps.getD (1 + c.val) 0)) c else d) d

/-- The cores a START block names. -/
def startMask (b : List Word) : Nat := ((blkPayload b).getD 0 0).toNat % 16

/-- The reading of a slot with its oldest block applied. -/
def SlotRd.past (x : SlotRd) (b : List Word) (lastEnd : Bool) : SlotRd :=
  { x with bufs := x.bufs.drop 1, fed := false, applied := x.applied + 1, done := x.done + blkLen b + 5, lastEnd := lastEnd }

/-- No slot is being loaded. -/
def bootDone (d : Device) : Device := { d with boot := none }

/-- The oldest block of the boot load has been applied; after the last one the image is verified or abandoned (R459,
R460). -/
def bootApplied (d : Device) (x : SlotRd) (b : List Word) (lastEnd : Bool) : Device :=
  let x := x.past b lastEnd
  let d := setF (setBoot d x) F.BOOT_POS.BLOCK x.applied
  if x.applied < x.nblk then d
  else
    let d := setB d F.SYS_READY.LOADED true
    if ¬ x.lastEnd then abandon d x.slot (x.nblk - 1) x.cores 3 0x0F
    else if 4 * x.done ≠ x.imglen then abandon d x.slot (x.nblk - 1) x.cores 3 0
    else setB (bootDone d) F.SYS_READY.VERIFIED true

/-- RECORDS_BLOCK of the boot load. -/
def bootRecords (d : Device) (x : SlotRd) (b : List Word) : Device :=
  let r := applyRecords d 0 x b
  match r.2 with
  | .wait => setBoot r.1 { x with fed := true }
  | .done last => bootApplied r.1 x b last
  | .crossed => abandon (cutRecord r.1 0) x.slot x.applied x.cores 4 0
  | .endFail => abandon r.1 x.slot x.applied x.cores 3 0x0F
  | .aborted c => abandon r.1 x.slot x.applied x.cores 2 c

/-- START_BLOCK of the boot load. -/
def bootCores (d : Device) (x : SlotRd) (b : List Word) : Device :=
  let m := startMask b
  if Nat.land m x.cores ≠ 0 then abandon d x.slot x.applied x.cores 4 0
  else bootApplied (setB (startCores d b) F.SYS_READY.CORES true) { x with cores := Nat.lor x.cores m } b false

/-- LOADER_GATE_OPEN (R269, R462, R467): a stored PWR_MODE that differs from the one in force takes effect. -/
def gateOpen (d : Device) : Device :=
  if d.gated ∧ getF d F.BOOT_STAT.PHASE = 1 ∧ getB d F.SYS_READY.VERIFIED ∧ getB d F.SYS_READY.GUARD then
    let d := if voteOn d ∧ ¬ getB d F.PWR_MODE.VOTE then { d with domNs := Vector.replicate 13 0 } else d
    let d := setF (setB (fadeInAll { d with gated := false }) F.SYS_READY.OUTPUTS true) F.BOOT_STAT.PHASE 2
    raiseCtrl (setF d F.BOOT_T.OPEN (Nat.min (d.bootNs / 10000) 0xFFFF)) 0x1C8
  else d

/-! ### Live activation (R481) -/

/-- An activation fails in its present pass; `told` says that EVT_LDR_ABORT has been raised for it. -/
def liveFail (d : Device) (block : Nat) (told : Bool) : Device :=
  let pass := getF d F.BOOT_ACTSTAT.PASS
  let d := { d with live := none, cmdLeft := none }
  let d := setF (setF (setF d F.BOOT_ACTSTAT.RESULT (if pass = 1 then 2 else 3)) F.BOOT_ACTSTAT.PASS 0) F.BOOT_ACTSTAT.BLOCK block
  if told then d else if (path d 1).batch then batchFail d 1 else raiseCtrl d 0x18B

/-- A write of BOOT_ACT (R481). -/
def bootAct (d : Device) (q : Req) (v : Nat) : Device :=
  if v % 2 = 1 ∧ (getB d F.LDR_STAT.BUSY ∨ getF d F.BOOT_STAT.PHASE < 2 ∨ d.live.isSome) then
    rejectReq d Rej.busy q Adr.BOOT_ACT
  else
    let d := setF (setF d F.BOOT_ACT.CORES (v / 2)) F.BOOT_ACT.SLOT (v / 4)
    if v % 2 = 1 then
      let d := { d with live := some (SlotRd.start (v / 4 % 2) ⟨0, 0, 0, 0⟩) }
      setF (setF (setF d F.BOOT_ACTSTAT.PASS 1) F.BOOT_ACTSTAT.RESULT 0) F.BOOT_ACTSTAT.BLOCK 0
    else d

/-- The header of the slot being activated has been read. -/
def liveHeader (d : Device) (x : SlotRd) (ws : List Word) : Device :=
  if x.nblk ≠ 0 then d
  else
    match slotHeader ws with
    | some h => { noteVariant d ws with live := some (SlotRd.start x.slot h) }
    | none => liveFail d 0 false

/-- The records of a block in a verify pass: each ends on a boundary, passes its CRC, and an END the CRC of its batch;
answers the CRC of the batch then open and whether the last record was an END. -/
def verifyRecords (d : Device) : Nat → List Word → Option Word → Bool → Option (Option Word × Bool)
  | 0, _, _, _ => none
  | fuel + 1, ws, crc, last =>
    if ws = [] then some (crc, last)
    else
      let h := headerIn ws
      let n := h.len + 4
      if ws.length < 4 ∨ ws.length < n ∨ crcOf (ws.take (n - 1)) ≠ ws.getD (n - 1) 0 then none
      else
        let c := crc.getD crcInit
        if h.type = 6 ∧ firstFailed (headChecks d h h.len) = none then
          if ws.getD 3 0 = ~~~ c then verifyRecords d fuel (ws.drop n) none true else none
        else verifyRecords d fuel (ws.drop n) (some (crcRun c (ws.take n))) false

/-- What a verify pass finds in a block: the reading after it, or none. -/
def verifyBlock (d : Device) (x : SlotRd) (b : List Word) : Option SlotRd :=
  let y := { x with next := x.next + 1, words := x.words + blkLen b + 5, retried := false, lastEnd := false }
  match blkKind b with
  | 1 => (verifyRecords d (blkLen b + 1) (blkPayload b) x.crc false).map (fun r => { y with crc := r.1, lastEnd := r.2 })
  | 3 => if Nat.land (startMask b) x.cores = 0 then some { y with cores := Nat.lor x.cores (startMask b) } else none
  | _ => some y

/-- A block of the slot being activated has been read, in either pass. -/
def liveBlock (d : Device) (x : SlotRd) (b : List Word) (early : Bool) : Device :=
  let b := b.take (blkLen b + 5)
  if readFails x b early then
    if x.retried then liveFail d x.next false
    else raiseCtrl (setB { d with live := some { x with retried := true } } F.BOOT_STAT.RETRIED true) 0x1C9
  else if blockBad x b then liveFail d x.next false
  else if getF d F.BOOT_ACTSTAT.PASS = 1 then
    match verifyBlock d x b with
    | none => liveFail d x.next false
    | some y =>
      let d := setF { d with live := some y } F.BOOT_ACTSTAT.BLOCK y.next
      if y.next < y.nblk then d
      else if y.lastEnd ∧ 4 * y.words = y.imglen then
        let z : SlotRd := { y with next := 0, words := 0, lastEnd := false, crc := none }
        setF (setF (setPath { d with live := some z } 1 LdrPath.reset) F.BOOT_ACTSTAT.PASS 2) F.BOOT_ACTSTAT.BLOCK 0
      else liveFail d (y.nblk - 1) false
  else
    let y : SlotRd := { x with next := x.next + 1, words := x.words + blkLen b + 5, retried := false, bufs := x.bufs ++ [b] }
    { d with live := some y }

/-- The oldest block of the activation has been applied. -/
def liveApplied (d : Device) (x : SlotRd) (b : List Word) (lastEnd : Bool) : Device :=
  let x := x.past b lastEnd
  let d := setF { d with live := some x, cmdLeft := none } F.BOOT_ACTSTAT.BLOCK x.applied
  if x.applied < x.nblk then d
  else if x.lastEnd then
    let d := setF (setF { d with live := none } F.BOOT_ACTSTAT.PASS 0) F.BOOT_ACTSTAT.RESULT 1
    raiseCtrl (setF d F.BOOT_STAT.SLOT x.slot) 0x18A
  else liveFail d (x.nblk - 1) false

/-- RECORDS_BLOCK of an activation. -/
def liveRecords (d : Device) (x : SlotRd) (b : List Word) : Device :=
  let r := applyRecords d 1 x b
  match r.2 with
  | .wait => { r.1 with live := some { x with fed := true } }
  | .done last => liveApplied r.1 x b last
  | .crossed => liveFail (cutRecord r.1 1) x.applied false
  | .endFail => liveFail r.1 x.applied true
  | .aborted _ => liveFail r.1 x.applied true

/-- MEMORY_BLOCK of an activation: with CORES the cores that START names are held before the first one. -/
def liveMemory (d : Device) (x : SlotRd) (b : List Word) : Device :=
  if getB d F.BOOT_ACT.CORES then
    let d := (List.finRange 4).foldl (fun d c => if x.cores.testBit c.val then ccHold d c else d) d
    liveApplied (copyMemory d b) { x with cores := 0 } b false
  else liveApplied d x b false

/-- START_BLOCK of an activation. -/
def liveStart (d : Device) (x : SlotRd) (b : List Word) : Device :=
  if getB d F.BOOT_ACT.CORES then
    let d := (List.finRange 4).foldl (fun d c => if (startMask b).testBit c.val then ccHold d c else d) d
    liveApplied (startCores d b) { x with cores := x.cores - Nat.land x.cores (startMask b) } b false
  else liveApplied d x b false

/-! ### The rows of the load -/

/-- SLOT_HEADER_READ: of a flash slot during boot or of the slot being activated, with the 16 words the flash returned, or
of a pushed image. -/
def headerRead (d : Device) (slot : Fin 2) (ws : List Word) : Device :=
  match d.live with
  | some x => if x.slot = slot.val then liveHeader d x ws else d
  | none =>
    if getF d F.BOOT_STAT.PHASE ≠ 1 ∨ d.boot.isSome then d
    else if getF d F.BOOT_STAT.SRC = 2 then (if d.pushFail then d else pushHeader d)
    else flashHeader d slot ws

/-- BLOCK_READ_DONE: the words one read of the next block returned, and whether it ended early. -/
def blockReadDone (d : Device) (ws : List Word) (early : Bool) : Device :=
  match d.live with
  | some x => if x.nblk = 0 ∨ x.nblk ≤ x.next ∨ 2 ≤ x.bufs.length then d else liveBlock d x ws early
  | none =>
    match d.boot with
    | some x =>
      if x.nblk ≤ x.next ∨ 2 ≤ x.bufs.length then d
      else if getF d F.BOOT_STAT.SRC = 2 then pushBlock d x
      else bootBlock d x ws early true
    | none => d

/-- A row that applies the oldest block, when it is of a kind. -/
def applyBlock (d : Device) (kind : Nat) (boot live : Device → SlotRd → List Word → Device) : Device :=
  let on := fun (x : SlotRd) (f : Device → SlotRd → List Word → Device) =>
    match x.bufs with
    | b :: _ => if blkKind b = kind then f d x b else d
    | [] => d
  match d.live with
  | some x => on x live
  | none => match d.boot with
    | some x => on x boot
    | none => d

/-- RECORDS_BLOCK. -/
def recordsBlock (d : Device) : Device := applyBlock d 1 bootRecords liveRecords

/-- MEMORY_BLOCK. -/
def memoryBlock (d : Device) : Device := applyBlock d 2 (fun d x b => bootApplied (copyMemory d b) x b false) liveMemory

/-- START_BLOCK. -/
def startBlock (d : Device) : Device := applyBlock d 3 bootCores liveStart

/-! ### FSPI commands (R453, R480) -/

/-- A write of FSPI_CFG: ignored while the loader holds the settings; a field out of range is left. -/
def fspiCfg (d : Device) (v : Nat) : Device :=
  if getF d F.BOOT_STAT.PHASE < 2 then ignored d
  else
    let d := if 2 ≤ v % 2 ^ 5 then setF d F.FSPI_CFG.DIV v else d
    let d := if 4 ≤ v / 2 ^ 8 % 2 ^ 5 then setF d F.FSPI_CFG.LAT (v / 2 ^ 8) else d
    setF d F.FSPI_CFG.QCMD (v / 2 ^ 16)

/-- The code with which a command to the flash is rejected (R480); none issues it. -/
def fspiCode (d : Device) (v : Nat) : Option Nat :=
  let n := v / 2 ^ 10 % 2 ^ 9
  let proto := v / 2 ^ 19 % 4
  let addr := getF d F.FSPI_XADDR.ADDR
  if getF d F.BOOT_STAT.PHASE = 1 ∨ getB d F.FSPI_XSTAT.BUSY then some Rej.busy
  else if 256 < n then some Rej.lenOver
  else if proto = 3 ∨ (proto = 1 ∧ n % 2 = 1) ∨ 2 ^ 26 ≤ addr then some Rej.field
  else if getF d F.BOOT_STAT.PHASE = 2 ∧ ((v / 2 ^ 8 % 4 = 1 ∧ addr / 0x2000000 = getF d F.BOOT_STAT.SLOT)
      ∨ v % 2 ^ 8 = 0x60 ∨ v % 2 ^ 8 = 0xC7) then some Rej.depend
  else none

/-- A write of FSPI_XCMD: with GO a command is issued (R480). -/
def fspiXcmd (d : Device) (q : Req) (v : Nat) : Device :=
  if v / 2 ^ 31 % 2 = 0 then setReg d Adr.FSPI_XCMD (BitVec.ofNat 32 (v % 2 ^ 26))
  else
    match fspiCode d v with
    | some c => rejectReq d c q Adr.FSPI_XCMD
    | none => setB (setReg d Adr.FSPI_XCMD (BitVec.ofNat 32 (v % 2 ^ 26))) F.FSPI_XSTAT.BUSY true

/-- FSPI_COMMAND_DONE: `bytes` are those the flash returned. -/
def fspiDone (d : Device) (bytes : List (BitVec 8)) : Device :=
  if getB d F.FSPI_XSTAT.BUSY then
    let n := if getB d F.FSPI_XCMD.DIR then getF d F.FSPI_XCMD.NBYTES else 0
    let d := (List.range n).foldl (fun d i => setF d ⟨Adr.FSPI_BUF (i / 4), 8 * (i % 4), 8⟩ (bytes.getD i 0).toNat) d
    setB d F.FSPI_XSTAT.BUSY false
  else d

/-! ### The secure partition (R482 to R484) -/

/-- Whether a byte offset of the partition lies in the customer identity or one of the blocks (R482). -/
def partListed (o : Nat) : Bool :=
  decide ((0x100 ≤ o ∧ o < 0x200) ∨ (0x1000 ≤ o ∧ o < 0x7010) ∨ (0x8000 ≤ o ∧ o < 0x8610) ∨ (0x9000 ≤ o ∧ o < 0x906C)
    ∨ (0xA000 ≤ o ∧ o < 0xA010))

/-- A wipe begins: every byte but LC_STATE becomes 0 (R484). -/
def wipeBegin (d : Device) : Device := { d with part := [], wiping := true }

/-- A write of LC_ADVANCE (R483). -/
def lcAdvance (d : Device) (q : Req) (v : Nat) : Device :=
  let t := v % 2 ^ 16
  if d.wiping ∨ v / 2 ^ 16 ≠ 0x4C43 ∨ t ≠ d.lc + 1 ∨ 3 < t then rejectReq d 0x16 q Adr.LC_ADVANCE
  else
    let d := { d with lc := t }
    if t = 2 then d else wipeBegin d

/-- A word write of the partition (R482). -/
def partWrite (d : Device) (q : Req) (o : Nat) (v : Word) : Device :=
  if o = 4 then lcAdvance d q v.toNat
  else if d.wiping ∨ d.lc ≠ 1 ∨ ¬ partListed o then rejectReq d 0x16 q (0x1E000000 + o)
  else { d with part := sparsePut wordZero d.part (o / 4) v }

/-- A word of the partition as it reads (R482 to R484). -/
def partRead (d : Device) (o : Nat) : Word :=
  if o = 0 then BitVec.ofNat 32 (d.lc % 4 + 4 * d.tampered.toNat + 8 * d.wiping.toNat)
  else if d.wiping ∨ ¬ partListed o then 0
  else sparseGet wordZero d.part (o / 4)

/-- TAMPER_ASSERT (R484). -/
def tamper (d : Device) : Device := if d.powered then { wipeBegin d with tampered := true } else d

/-- PARTITION_WIPE_DONE. -/
def wipeDone (d : Device) : Device := { d with wiping := false }

end Sys2Proof.Machine
end

