-- ==== Sys2Proof/Machine/Regs.lean ====
section
/-! DEFINITION. The register blocks at the bus (R5 to R9, R19, R24, R29 to R32, R43, R504 to R507): what every register
reads as, what its reads and writes do, and the writes that wait for a handshake. -/

namespace Sys2Proof.Machine

/-! ### Presence -/

/-- Whether an address of the register blocks lies in the sub-block of an absent unit (R43, the table of register
blocks). -/
def subAbsent (d : Device) (a : Nat) : Bool :=
  let o := a % 0x10000
  match a / 0x10000 with
  | 0x1C07 =>
    if o < 0x8000 then decide (sapCount d ≤ o / 0x400) else decide (o < 0xC000) && decide (sapCount d ≤ (o - 0x8000) / 0x200)
  | 0x1C09 => decide (sapCount d ≤ o / 0x800)
  | 0x1C0B => decide (o < 0x800) && decide (linkCount d ≤ o / 0x100)
  | 0x1C0D => decide (o < 0x1000) && decide (spinCount d ≤ o / 0x100)
  | 0x1C10 => !hasPcie d
  | _ => false

/-- The engines present, as the bits of a mask (R37). -/
def presentMask (d : Device) : Nat := 2 ^ engCount d - 1

/-- The members of an engine group for the broadcast windows (R45, R181): group 0 means all present engines. -/
def groupMask (d : Device) (g : Nat) : Nat :=
  if g = 0 then presentMask d else Nat.land (reg64 d (Adr.ENG_GROUPMASK g)) (presentMask d)

/-! ### What registers read as -/

/-- The words of SYS that are not held in the register file; with FUSEERR no bank is reported present (R42). -/
def sysWord (d : Device) (o : Nat) : Option Nat :=
  let phys := fun p : Nat => !d.variant.fuseErr && (!d.variant.memH || d.variant.groups.contains p)
  if o = 0x10 then
    some (engCount d + 2 ^ 8 * bankCount d + 2 ^ 16 * d.variant.memH.toNat + 2 ^ 17 * d.variant.pkgB.toNat
      + 2 ^ 23 * d.variant.fuseErr.toNat + 2 ^ 24)
  else if 0x20 ≤ o ∧ o < 0x30 then
    some ((List.range 4).foldl (fun s j => s + (phys ((o - 0x20) + j)).toNat * 0xFF * 2 ^ (8 * j)) 0)
  else if o = 0x30 then
    if d.variant.fuseErr then some 0
    else some ((List.range 8).foldl (fun s g => s + (if d.variant.memH then d.variant.groups.getD g 0 else g) % 16 * 16 ^ g) 0)
  else if o = 0x40 then some (sysReadyWord d)
  else none

/-- The words of PWR that are not held in the register file (R404, R405, R408, R420), and PWR_BANKRET, whose bits of absent
banks read 0 (R430). -/
def pwrWord (d : Device) (o : Nat) : Option Nat :=
  if o = 0x08 then
    let v := withBits (reg d Adr.PWR_STAT).toNat 3 1 (voteOn d).toNat
    some (if v % 8 = 0 ∧ d.pstate = .idle then v + 1 else v)
  else if o = 0x60 then some (domstatWord d)
  else if o = 0x64 then some (pwrHoldWord d)
  else if 0x98 ≤ o ∧ o < 0x100 then some (voterMask d ((o - 0x80) / 4))
  else if 0x110 ≤ o ∧ o < 0x120 then some ((reg d (Adr.PWR_BANKRET ((o - 0x110) / 4))).toNat % 2 ^ (bankCount d - 8 * (o - 0x110)))
  else none

/-- The words of ROUTE that are not held in the register file. -/
def routeBlockWord (d : Device) (o : Nat) : Option Nat :=
  let tap := tapOf d (getF d F.MTR_RDSEL.TAP)
  if o = 0x0C then some (routeStageWord d)
  else if o = 0x14 then some (routeRdsel d)
  else if o = 0x18 then some (routeRdpos d)
  else if o = 0x34 then some (bypSel d (getF d F.ROUTE_BYPIDX.ENTRY))
  else if o = 0x44 then some tap.lPeak.toNat
  else if o = 0x48 then some tap.lRms.toNat
  else if o = 0x4C then some (tap.lTag.code + 2 ^ 16 * Nat.min tap.lExcl 0xFFFF)
  else none

/-- The words of a mix unit that are not held in the register file. -/
def mixBlockWord (d : Device) (o : Nat) : Option Nat :=
  let m := o / 0x1000
  let u : Fin 16 := ⟨m % 16, by omega⟩
  let x := sparseGet xpZero (mixUnit d u).xp (xpKey (getF d (F.MIX_XPRD.IN m)) (getF d (F.MIX_XPRD.OUT m)))
  match o % 0x1000 with
  | 0x10 => some (mixStatWord d u)
  | 0x18 => some (BitVec.ofInt 32 x.cur).toNat
  | 0x1C => some (BitVec.ofInt 32 x.tgt).toNat
  | _ => none

/-- The words of QUE that are not held in the register file. -/
def queBlockWord (d : Device) (o : Nat) : Option Nat :=
  if 0x1000 ≤ o ∧ o < 0x2000 ∧ o % 16 = 8 then some (queLevelWord d (queNo ((o - 0x1000) / 16)))
  else if 0x3010 ≤ o ∧ o < 0x3030 then
    some ((List.range 32).foldl (fun s b => s + (que d (queNo (8 * (o - 0x3010) + b))).wm.toNat * 2 ^ b) 0)
  else if o = 0x3030 then some (fcPads d)
  else none

/-- HSPI's posted operations: whether any is a write, or a read. -/
def hspiHas (d : Device) (write : Bool) : Bool :=
  d.hspiOps.any (fun o =>
    match o with
    | .write _ _ _ => write
    | .read _ => !write
    | .peek _ _ => false)

/-- The write buffers of HSPI in use: one for each WRITE frame not yet carried out. -/
def hspiBuffers (d : Device) : Nat :=
  (d.hspiOps.filter (fun o =>
    match o with
    | .write _ _ l => l
    | _ => false)).length

/-- The completed words at the head of the read buffer. -/
def hspiAvail (d : Device) : Nat := (d.hspiBuf.takeWhile Option.isSome).length

/-- HSPI_STAT as it reads. -/
def hspiStatWord (d : Device) : Nat :=
  let v := Nat.land (reg d Adr.HSPI_STAT).toNat 0x30
  let ready := sysReadyWord d
  v + ready / 2 ^ F.SYS_READY.FUSE.lo % 2 + 2 * (decide (2 ≤ hspiBuffers d)).toNat + 4 * (hspiHas d true).toNat
    + 8 * (hspiHas d false).toNat + 64 * (attnDriven d).toNat + 128 * (ready / 2 ^ F.SYS_READY.RECOVERY.lo % 2)
    + 2 ^ 16 * hspiAvail d

/-- The words of SPI that are not held in the register file. -/
def spiWord (d : Device) (o : Nat) : Option Nat :=
  if o = 0x04 then some (hspiStatWord d)
  else if o = 0x4048 then some ((d.cspiRx.headD 0).toNat)
  else if o = 0x404C then some (cspiStatWord d)
  else none

/-- The words of a Spin unit that are not held in the register file. -/
def spinBlockWord (d : Device) (o : Nat) : Option Nat :=
  let u := o / 0x100
  let x := d.spin[(⟨u % 16, by omega⟩ : Fin 16)]
  let i := getF d (F.SPIN_RDADDR.INDEX u)
  let prog := getB d (F.SPIN_RDADDR.TARGET u)
  match o % 0x100 with
  | 0x08 => some (if prog then (if i < 512 then (spinProgWord x i).toNat else 0) else (spinTab x i).p.toNat)
  | 0x0C => some (if prog then 0 else (spinTab x i).t.code)
  | _ => none

/-- The words of DLY that are not held in the register file; DLY_OLD is the requester's own (R201). -/
def dlyWord (d : Device) (q : Req) (o : Nat) : Option Nat :=
  let old := sparseGet (fun _ => TWord.zero .uninit) d.oldAtomic (reqIdx q)
  if 0x10 ≤ o ∧ o < 0x30 then
    let k := (o - 0x10) / 4
    some ((List.range 16).foldl (fun s j =>
      s + (if 16 * k + j < bankCount d then getF d (F.DLY_BANKPWR.PWR k j) else 2) * 4 ^ j) 0)
  else if 0x30 ≤ o ∧ o < 0x40 then
    some ((List.range 32).foldl (fun s j =>
      let b := 8 * (o - 0x30) + j
      s + (decide (b < bankCount d) && bankReady d ⟨b % 128, by omega⟩).toNat * 2 ^ j) 0)
  else if o = 0x40 then some old.p.toNat
  else if o = 0x44 then some old.t.code
  else none

/-- The words of LINK and of the fabric that are not held in the register file. -/
def linkBlockWord (d : Device) (o : Nat) : Option Nat :=
  if o < 0x800 ∧ o % 0x100 = 0x24 then some (mapRead d (lkNo (o / 0x100)))
  else if o = 0x8024 then some (routeWord d)
  else if o = 0x804C then some (runStatWord d)
  else none

/-- The words of COACH that are not held in the register file; the fields of absent groups read 0 (R438). -/
def coachWord (d : Device) (o : Nat) : Option Nat :=
  if o = 0x10 then
    some (withBits (withBits (reg d Adr.COACH_STAT).toNat 24 1 (coachDecides d).toNat) 22 1 (!coachBlockOk d : Bool).toNat)
  else if o = 0x14 then
    some ((List.range 8).foldl (fun s g =>
      withBits s (16 + g) 1 ((List.finRange 4).any (groupFading d g)).toNat)
      ((reg d Adr.COACH_GRP).toNat % 4 ^ ((engCount d + 7) / 8)))
  else none

/-- A register of the blocks that is not held in the register file, as it reads. -/
def liveWord (d : Device) (q : Req) (a : Nat) : Option Nat :=
  let o := a % 0x10000
  match a / 0x10000 with
  | 0x1C00 => sysWord d o
  | 0x1C03 => pwrWord d o
  | 0x1C04 =>
    if o = 0x108 then some (sparseGet natZero d.evCnt (getF d F.EVT_CNTSEL.EVENT))
    else if 0x2000 ≤ o ∧ o < 0x2400 then
      let c : Fin 4 := ⟨(o - 0x2000) / 0x100 % 4, by omega⟩
      if o % 0x100 = 0 then some (ccCtlWord d c) else if o % 0x100 = 0xC then some (ccStatWord d c) else none
    else none
  | 0x1C05 => routeBlockWord d o
  | 0x1C06 => mixBlockWord d o
  | 0x1C08 => queBlockWord d o
  | 0x1C0B => linkBlockWord d o
  | 0x1C0C => if o = 0x18 then some ((sparseGet wordZero d.todFrac (reqIdx q)).toNat) else none
  | 0x1C0D => spinBlockWord d o
  | 0x1C0E => spiWord d o
  | 0x1C0F => if o = 0x08 then some (gpioInWord d) else if o = 0x0C then some (gpioSenseWord d) else none
  | 0x1C11 => coachWord d o
  | 0x1C12 => dlyWord d q o
  | 0x1E00 => some (partRead d o).toNat
  | _ => none

/-- The head of a queue as QUE_PORTq shows it. -/
def queHead (d : Device) (q : Fin 256) : TWord :=
  let x := que d q
  if queTakes d q ∧ x.popSkip = 0 then (x.words.head?.map cellRead).getD (TWord.zero .invalid) else TWord.zero .invalid

/-- A tagged word as a 36-bit value. -/
def wide36 (w : TWord) : Nat := w.p.toNat + w.t.code * 2 ^ 32

/-- A W register as it reads (R29). -/
def wideValue (d : Device) (a : Nat) : Nat :=
  if a = Adr.SYS_UID then d.variant.uid.toNat
  else if 0x1C000800 ≤ a ∧ a < 0x1C000A00 then groupMask d ((a - 0x1C000800) / 8)
  else if 0x1C078000 ≤ a ∧ a < 0x1C07C000 then
    let g := guardCh d ((a - 0x1C078000) / 16)
    (g.thc + g.thm).toNat
  else if 0x1C080000 ≤ a ∧ a < 0x1C080800 then wide36 (queHead d (queNo ((a - 0x1C080000) / 8)))
  else reg64 d a

/-- The key of a requester's holding registers for a W register (R30). -/
def holdKey (q : Req) (a : Nat) : Nat := reqIdx q * 2 ^ 32 + a

/-- A read of a register that leaves everything as it is but a W register's snapshot (R29, R491). -/
def peekReg (d : Device) (q : Req) (a : Nat) : Device × Nat :=
  match regRow a with
  | none => (d, (liveWord d q a).getD 0)
  | some (r, hi) =>
    if r.wide then
      if hi then (d, (sparseGet wordZero d.readHold (holdKey q (a - 4))).toNat)
      else
        let v := wideValue d a
        let d := { d with readHold := sparsePut wordZero d.readHold (holdKey q a) (BitVec.ofNat 32 (v / 2 ^ 32)) }
        let d := if a = Adr.TIME_TOD then
            { d with todFrac := sparsePut wordZero d.todFrac (reqIdx q) (reg d Adr.TIME_TODFRAC) } else d
        (d, v % 2 ^ 32)
    else (d, (liveWord d q a).getD (reg d a).toNat)

/-- What a read of a 32-bit register, or of the low half of a W register, takes with it: RC fields clear, queue and FIFO
heads leave, self-advancing indexes advance (R5, R29, R393, R498). -/
def readTakes (d : Device) (a : Nat) : Device :=
  if 0x1C080000 ≤ a ∧ a < 0x1C080008 then d
  else if 0x1C080008 ≤ a ∧ a < 0x1C080800 then (quePop d (queNo ((a - 0x1C080000) / 8))).1
  else if a = Adr.CSPI_RX then { d with cspiRx := d.cspiRx.drop 1 }
  else if a = Adr.ROUTE_BYPSEL then bypIndexNext d
  else if 0x1C0B0000 ≤ a ∧ a < 0x1C0B0800 ∧ a % 0x100 = 0x24 then mapAdvance d (lkNo ((a - 0x1C0B0000) / 0x100))
  else if a = Adr.EVT_CNT then { d with evCnt := sparsePut natZero d.evCnt (getF d F.EVT_CNTSEL.EVENT) 0 }
  else
    match regRow a with
    | none => d
    | some (r, _) => if r.rc = 0 then d else setReg d a (reg d a &&& ~~~ (BitVec.ofNat 32 r.rc))

/-- A read of a word of the register blocks (R5, R29). -/
def readReg (d : Device) (q : Req) (a : Nat) : Device × Nat :=
  let r := peekReg d q a
  match regRow a with
  | some (_, true) => r
  | _ => (readTakes r.1 a, r.2)

/-- A single access that covers a W register (R31): both halves, and the holding register as it was. -/
def readWide (d : Device) (q : Req) (a : Nat) : Device × Nat :=
  let v := wideValue d a
  let e := (peekReg d q a).1
  (readTakes { e with readHold := d.readHold } a, v)

/-! ### What writes do -/

/-- A field written only with a legal value (R8). -/
def setIf (ok : Bool) (f : Fld) (v : Nat) (d : Device) : Device := if ok then setF d f v else d

/-- A register of one field written only with a legal value (R8). -/
def setOnly (ok : Bool) (f : Fld) (v : Nat) (d : Device) : Device := if ok then setF d f v else ignored d

/-- A write of a 32-bit register under its access codes (R5, R7). -/
def plainWrite (d : Device) (a : Nat) (r : RegRow) (v : Word) : Device :=
  if r.rw = 0 ∧ r.wo = 0 ∧ r.w1c = 0 ∧ r.w1s = 0 then ignored d
  else
    let rw := BitVec.ofNat 32 r.rw
    let old := reg d a
    let x := (old &&& ~~~ rw) ||| (v &&& rw)
    let x := x &&& ~~~ (v &&& BitVec.ofNat 32 r.w1c)
    setReg d a (x ||| (v &&& BitVec.ofNat 32 r.w1s))

/-- A write of a W register under its access codes (R5, R32). -/
def plainWide (d : Device) (a : Nat) (r : RegRow) (v : Nat) : Device :=
  if r.rw = 0 then ignored d
  else setReg64 d a (Nat.lor (reg64 d a - Nat.land (reg64 d a) r.rw) (Nat.land v r.rw))

/-- The registers of MEDIA domains that a handshake writes (R17, R19). -/
def mediaReg (a : Nat) : Bool :=
  decide ((0x1C020040 ≤ a ∧ a < 0x1C020070) ∨ (0x1C020080 ≤ a ∧ a < 0x1C020094) ∨ a = Adr.TIME_CTL ∨ a = Adr.TIME_LOCKPAR
    ∨ a = Adr.TIME_STEP ∨ a = Adr.TIME_FREQ ∨ a = Adr.TIME_REFOFS)

/-- The registers with AON-domain fields that a handshake writes (R17, R19). -/
def aonReg (a : Nat) : Bool := decide ((0x1C030140 ≤ a ∧ a < 0x1C030160) ∨ a = Adr.TIME_AONQ)

/-- Whether a write of a MEDIA-domain register names a rate domain that is not configured (R24): a word clock output it
enables, or a word clock reference it selects. The request is rejected before its handshake starts, as R19 rejects. -/
def namesNoDomain (d : Device) (a v : Nat) : Bool :=
  if 0x1C020080 ≤ a ∧ a < 0x1C020090 then decide (v % 2 = 1) && !domConfigured d (dom (v / 2))
  else decide (a = Adr.TIME_CTL) && decide (v % 8 = 1 ∨ v % 8 = 2) && !domConfigured d (dom (v / 16))

/-- A write that waits for its handshake; it replaces one of the same register that has not crossed (R19). -/
def awaitWrite (d : Device) (q : Req) (a addr v : Nat) : Device :=
  { d with handshake := sparsePut noPend d.handshake a (some ⟨BitVec.ofNat 64 v, addr, q⟩) }

/-- A write of CC_RESETVEC or CC_VBASE (R376, R379): an address in control-core memory, aligned. -/
def ccVector (d : Device) (f : Fld) (align v : Nat) : Device :=
  setOnly (ccMemAddr v && decide (v % align = 0)) f v d

/-- A write of QUE_CFGq of a created queue (R400). -/
def queCfg (d : Device) (q : Fin 256) (v : Nat) : Device :=
  let hi := v % 2 ^ 14
  let lo := v / 2 ^ 16 % 2 ^ 14
  if queCap d q < hi ∨ (hi ≠ 0 ∧ hi ≤ lo) then ignored d
  else
    let d := setF (setF d (F.QUE_CFG.HI q.val) hi) (F.QUE_CFG.LO q.val) lo
    if hi = 0 then queSettle d q (que d q).words.length else d

/-- A flush through QUE_CTL (R91, R402). -/
def queFlushAll (d : Device) (q : Fin 256) : Device :=
  let d := queFlush d q
  if q = 0 then pushFlush (loaderResync d) else d

/-- A write of QUE_CTL that names a created queue. -/
def queCtl (d : Device) (v : Nat) : Device :=
  let d := setF d F.QUE_CTL.QUEUE v
  if v / 2 ^ 8 % 2 = 1 then queFlushAll d (queNo v) else d

/-- A write that names a queue: one that the structure has not created is rejected as a whole (R24). -/
def onQueue (d : Device) (r : Req) (addr : Nat) (q : Fin 256) (f : Device → Device) : Device :=
  if queCreated d q then f d else rejectReq d Rej.resource r addr

/-- A host or firmware push (R24, R84, R393): a queue the structure has not created is a resource it names. -/
def hostPush (d : Device) (r : Req) (addr : Nat) (q : Fin 256) (w : TWord) : Device :=
  onQueue d r addr q (fun d => if ¬ queTakes d q then ignored d else pushDiscard (quePush d q w) q)

/-- A write of PWR_DVFSREQ (R8, R432, R446). -/
def dvfsReqWrite (d : Device) (q : Req) (v : Nat) : Device :=
  let d := setIf (decide (v / 16 % 4 ≠ 3)) F.PWR_DVFSREQ.KIND (v / 16) (setF d F.PWR_DVFSREQ.LEVEL v)
  if v / 2 ^ 8 % 2 = 1 then dvfsRequest d q (getF d F.PWR_DVFSREQ.KIND) (v % 4) else d

/-- A write of a 32-bit register of SYS or BOOT. -/
def sysApply (d : Device) (q : Req) (a : Nat) (r : RegRow) (v : Word) : Device :=
  let n := v.toNat
  if a = Adr.SUB_CTL then subCtl d q n
  else if a = Adr.LDR_CTL then ldrCtl d q n
  else if a = Adr.BOOT_ACT then bootAct d q n
  else plainWrite d a r v

/-- A write of a 32-bit register of PWR. -/
def pwrApply (d : Device) (q : Req) (a : Nat) (r : RegRow) (v : Word) : Device :=
  let n := v.toNat
  let o := a % 0x10000
  if o = 0 then pwrMode d n
  else if o = 4 then pwrCtl d n
  else if 0x80 ≤ o ∧ o < 0x100 then pwrVote d ((o - 0x80) / 4) n
  else if 0x110 ≤ o ∧ o < 0x120 then
    setReg d a (BitVec.ofNat 32 (n % 2 ^ (bankCount d - 8 * (o - 0x110))))
  else if a = Adr.PWR_DVFSREQ then dvfsReqWrite d q n
  else if 0x170 ≤ o ∧ o < 0x180 then
    setOnly (decide (600 ≤ n % 2 ^ 12 ∧ n % 2 ^ 12 ≤ 850)) (F.PWR_VOPP.MV ((o - 0x170) / 4)) n d
  else if o = 0x180 then
    let keep := reg d a
    let d := plainWrite d a r v
    let d := setIf (decide (n / 2 ^ 7 % 4 = 3)) F.PWR_PMBCFG.SPEED (keep.toNat / 2 ^ 7) d
    setIf (decide (n / 2 ^ 16 % 2 ^ 12 < 10 ∨ 2500 < n / 2 ^ 16 % 2 ^ 12)) F.PWR_PMBCFG.SETTLE (keep.toNat / 2 ^ 16) d
  else plainWrite d a r v

/-- A write of a 32-bit register of EVT. -/
def evtApply (d : Device) (a : Nat) (r : RegRow) (v : Word) : Device :=
  let n := v.toNat
  let o := a % 0x10000
  if o < 0x40 then latchClear d (o / 4) n
  else if a = Adr.EVT_SWTRIG then swTrig d n
  else if a = Adr.EVT_MSIXACK then msixAck d n
  else if 0x800 ≤ o ∧ o < 0x1000 then evtRoute d ((o - 0x800) / 4) n
  else if 0x2000 ≤ o ∧ o < 0x2400 then
    let c : Fin 4 := ⟨(o - 0x2000) / 0x100 % 4, by omega⟩
    match o % 0x100 with
    | 0 => ccCtl d c n
    | 4 => ccVector d (F.CC_RESETVEC.ADDR c.val) 8 n
    | 8 => ccVector d (F.CC_VBASE.ADDR c.val) 4096 n
    | _ => ignored d
  else if a = Adr.WDOG_CTL then wdCtl d n
  else if a = Adr.WDOG_KICK then wdKick d n
  else plainWrite d a r v

/-- A write of a 32-bit register of ROUTE. -/
def routeApplyReg (d : Device) (q : Req) (a : Nat) (r : RegRow) (v : Word) : Device :=
  let n := v.toNat
  let o := a % 0x10000
  if a = Adr.ROUTE_CTL then routeCtl d q n
  else if a = Adr.ROUTE_CHG then routeChg d q n
  else if a = Adr.ROUTE_STAGE then
    (if n / 2 ^ 17 % 2 = 1 then { d with rtLate := d.rtLate.set (dom (getF d F.ROUTE_CTL.DOMAIN)) false } else d)
  else if 0x20 ≤ o ∧ o < 0x30 then
    let j := (o - 0x20) / 4
    let d := setIf (decide (5 ≤ n % 2 ^ 10 ∧ n % 2 ^ 10 ≤ 500)) (F.ROUTE_XFPROF.TIME j) n d
    setIf (decide (n / 2 ^ 12 % 4 ≠ 3)) (F.ROUTE_XFPROF.LAW j) (n / 2 ^ 12) d
  else if a = Adr.ROUTE_BYPSEL then bypWrite d q n
  else plainWrite d a r v

/-- A write of a 32-bit register of a mix unit. -/
def mixApplyReg (d : Device) (q : Req) (a : Nat) (r : RegRow) (v : Word) : Device :=
  let o := a % 0x10000
  let m := o / 0x1000
  if o % 0x1000 = 0 then mixCtl d q ⟨m % 16, by omega⟩ v.toNat
  else if 0x20 ≤ o % 0x1000 ∧ o % 0x1000 < 0x30 then
    setOnly (decide (1 ≤ v.toNat % 2 ^ 15 ∧ v.toNat % 2 ^ 15 ≤ 20000)) (F.MIX_RAMP.TIME m ((o % 0x1000 - 0x20) / 4)) v.toNat d
  else plainWrite d a r v

/-- A write of a 32-bit register of COACH. -/
def coachApply (d : Device) (a : Nat) (r : RegRow) (v : Word) : Device :=
  let n := v.toNat
  if a = Adr.COACH_CTL then
    coachCheck (setIf (decide (n % 4 ≠ 3)) F.COACH_CTL.MODE n (setF d F.COACH_CTL.FLEV (n / 2 ^ 4)))
  else if a = Adr.COACH_BUDGET then
    setIf (decide (n % 2 ^ 16 ≠ 0)) F.COACH_BUDGET.PBUDGET n (setF d F.COACH_BUDGET.PHYST (n / 2 ^ 16))
  else if a = Adr.COACH_TCRIT then setOnly (decide (85 ≤ n % 2 ^ 7 ∧ n % 2 ^ 7 ≤ 115)) F.COACH_TCRIT.C n d
  else plainWrite d a r v

/-- A write of a 32-bit register of SPI. -/
def spiApply (d : Device) (q : Req) (a : Nat) (r : RegRow) (v : Word) : Device :=
  let n := v.toNat
  let o := a % 0x10000
  if o = 0 then
    setIf (decide (4 ≤ n % 2 ^ 6 ∧ n % 2 ^ 6 ≤ 32)) F.HSPI_CFG.WLEN n (setF d F.HSPI_CFG.DUMMY (n / 2 ^ 8))
  else if 0x4000 ≤ o ∧ o < 0x4020 then
    let s := (o - 0x4000) / 4
    let d := setF (setF (setF d (F.CSPI_CFG.CPOL s) n) (F.CSPI_CFG.CPHA s) (n / 2)) (F.CSPI_CFG.LSBF s) (n / 4)
    let d := setIf (decide (4 ≤ n / 2 ^ 8 % 2 ^ 6 ∧ n / 2 ^ 8 % 2 ^ 6 ≤ 32)) (F.CSPI_CFG.WLEN s) (n / 2 ^ 8) d
    setIf (decide (2 ≤ n / 2 ^ 16 % 2 ^ 8)) (F.CSPI_CFG.DIV s) (n / 2 ^ 16) d
  else if 0x4020 ≤ o ∧ o < 0x4040 then
    let s := (o - 0x4020) / 4
    let d := setIf (decide (n % 2 ^ 10 ≠ 0)) (F.CSPI_DLY.CSSCK s) n d
    let d := setIf (decide (n / 2 ^ 10 % 2 ^ 10 ≠ 0)) (F.CSPI_DLY.SCKCS s) (n / 2 ^ 10) d
    setIf (decide (n / 2 ^ 20 % 2 ^ 10 ≠ 0)) (F.CSPI_DLY.BETWEEN s) (n / 2 ^ 20) d
  else if a = Adr.CSPI_CMD then cspiCmd d q n
  else if a = Adr.CSPI_TX then cspiTxWrite d n
  else if a = Adr.FSPI_CFG then fspiCfg d n
  else if a = Adr.FSPI_XCMD then fspiXcmd d q n
  else plainWrite d a r v

/-- A write of a 32-bit register of QUE. -/
def queApply (d : Device) (q : Req) (a : Nat) (r : RegRow) (v : Word) : Device :=
  let o := a % 0x10000
  if 0x800 ≤ o ∧ o < 0xC00 then hostPush d q a (queNo ((o - 0x800) / 4)) ⟨v, .sample⟩
  else if 0x1000 ≤ o ∧ o < 0x2000 then
    onQueue d q a (queNo ((o - 0x1000) / 16))
      (fun d => if o % 16 = 0 then queCfg d (queNo ((o - 0x1000) / 16)) v.toNat else plainWrite d a r v)
  else if a = Adr.QUE_CTL then onQueue d q a (queNo v.toNat) (fun d => queCtl d v.toNat)
  else plainWrite d a r v

/-- A write of a 32-bit register of LINK or of the fabric. -/
def linkApply (d : Device) (a : Nat) (r : RegRow) (v : Word) : Device :=
  let o := a % 0x10000
  if o < 0x800 ∧ o % 0x100 = 0 then (if v.getLsbD 0 then linkRetrain d (lkNo (o / 0x100)) else d)
  else if o < 0x800 ∧ o % 0x100 = 0x24 then mapWrite d (lkNo (o / 0x100)) v.toNat
  else if a = Adr.FAB_CTL then (if v.getLsbD 0 then fabRejoin d else d)
  else plainWrite d a r v

/-- A write of a 32-bit register of the Guard (R287, R291). -/
def guardApply (d : Device) (q : Req) (a : Nat) (r : RegRow) (v : Word) : Device :=
  if a = Adr.GUARD_CTL then (if v.getLsbD 0 then guardRelease d (getB d F.WDOG_CTL.EN) else d)
  else if a % 0x10000 < 0x8000 ∨ a = Adr.GUARD_WDOG then guardRtWrite d q a v.toNat
  else plainWrite d a r v

/-- A write of a 32-bit register of PCIE: a vector whose mask goes may send its message (R501). -/
def pcieApply (d : Device) (a : Nat) (r : RegRow) (v : Word) : Device :=
  let o := a % 0x10000
  let d := plainWrite d a r v
  if 0x1000 ≤ o ∧ o < 0x1200 ∧ o % 16 = 0xC then msixUnmask d ((o - 0x1000) / 16) else d

/-- A write of a 32-bit register takes effect: `addr` is the address of the access. -/
def applyReg (d : Device) (q : Req) (a : Nat) (r : RegRow) (v : Word) : Device :=
  match a / 0x10000 with
  | 0x1C00 => sysApply d q a r v
  | 0x1C01 => sysApply d q a r v
  | 0x1C02 =>
    if 0x1C020020 ≤ a ∧ a < 0x1C020030 then mctlWrite d ((a - 0x1C020020) / 4) v.toNat
    else if 0x1C020030 ≤ a ∧ a < 0x1C020040 then mtgtWrite d q ((a - 0x1C020030) / 4) v.toNat
    else plainWrite d a r v
  | 0x1C03 => pwrApply d q a r v
  | 0x1C04 => evtApply d a r v
  | 0x1C05 => routeApplyReg d q a r v
  | 0x1C06 => mixApplyReg d q a r v
  | 0x1C07 => guardApply d q a r v
  | 0x1C08 => queApply d q a r v
  | 0x1C09 => if a % 0x800 = 0 then (if v.getLsbD 0 then sapUnmute d ⟨(a - 0x1C090000) / 0x800 % 32, by omega⟩ else d)
    else plainWrite d a r v
  | 0x1C0B => linkApply d a r v
  | 0x1C0E => spiApply d q a r v
  | 0x1C10 => pcieApply d a r v
  | 0x1C11 => coachApply d a r v
  | 0x1C12 => if 0x1C120010 ≤ a ∧ a < 0x1C120030 then bankPowerWrite d ⟨(a - 0x1C120010) / 4 % 8, by omega⟩ v
    else plainWrite d a r v
  | _ => plainWrite d a r v

/-- A write of a whole W register takes effect; `addr` is the address of the access (R32). -/
def applyWide (d : Device) (q : Req) (a addr : Nat) (r : RegRow) (v : Nat) : Device :=
  match a / 0x10000 with
  | 0x1C00 =>
    if 0x1C000800 ≤ a ∧ a < 0x1C000A00 then
      (if a = 0x1C000800 then ignored d else setReg64 d a (Nat.land v (presentMask d)))
    else if a = Adr.SUB_CMD then subArm d q addr v
    else ignored d
  | 0x1C05 =>
    let g := (a - 0x1C050000) % 0x80 / 8
    if a = Adr.ROUTE_CONST 0 then ignored d
    else if 0x1C050280 ≤ a then noiseWrite d g v
    else if 0x1C050200 ≤ a then sineWrite d g v
    else plainWide d a r v
  | 0x1C06 =>
    let m := (a - 0x1C060000) / 0x1000
    if a % 0x1000 = 8 then xpCommand d q addr ⟨m % 16, by omega⟩ v
    else
      let o := (a % 0x1000 - 0x100) / 8
      let d := setF (setF d (F.MIX_LIM.CEIL m o) v) (F.MIX_LIM.EN m o) (v / 2 ^ 40)
      setIf (decide (v / 2 ^ 32 % 2 ^ 5 ≤ 20)) (F.MIX_LIM.RS m o) (v / 2 ^ 32) d
  | 0x1C08 => hostPush d q addr (queNo ((a - 0x1C080000) / 8)) ⟨BitVec.ofNat 32 v, tagOfCode (v / 2 ^ 32 % 16)⟩
  | 0x1C0B => if a = Adr.FAB_RUNCMD then runCommand d q addr v else ignored d
  | 0x1C03 => if a = Adr.PWR_PADREL then padRelease d v else ignored d
  | _ => plainWide d a r v

/-- A write of a word of the register blocks (R5, R19, R32, R505). -/
def writeReg (d : Device) (q : Req) (a : Nat) (v : Word) : Device :=
  match regRow a with
  | none => ignored d
  | some (r, hi) =>
    if r.wide then
      if hi then
        let b := a - 4
        let x := v.toNat * 2 ^ 32 + (sparseGet wordZero d.writeHold (holdKey q b)).toNat
        if mediaReg b ∨ aonReg b then awaitWrite d q b a x else applyWide d q b a r x
      else { d with writeHold := sparsePut wordZero d.writeHold (holdKey q a) v }
    else if namesNoDomain d a v.toNat then rejectReq d Rej.resource q a
    else if mediaReg a ∨ aonReg a then awaitWrite d q a a v.toNat
    else applyReg d q a r v

/-- A single write that covers a W register (R32). -/
def writeWide (d : Device) (q : Req) (a v : Nat) : Device :=
  match regRow a with
  | none => ignored d
  | some (r, _) => if mediaReg a ∨ aonReg a then awaitWrite d q a a v else applyWide d q a a r v

/-! ### Completed handshakes -/

/-- A write of a MEDIA-domain register takes effect (R19, R306, R312 to R318). -/
def mediaApply (d : Device) (a : Nat) (p : PendWr) : Device :=
  let v := p.v.toNat
  if a = Adr.TIME_CTL then timeCtl d v
  else if a = Adr.TIME_FREQ then timeFreq d v
  else if a = Adr.TIME_STEP then stepTime d p.v.toInt
  else if a = Adr.TIME_LOCKPAR then
    let d := setIf (decide (v % 2 ^ 16 ≠ 0)) F.TIME_LOCKPAR.LOCKW v d
    setIf (decide (4 ≤ v / 2 ^ 16 % 2 ^ 12)) F.TIME_LOCKPAR.LOCKN (v / 2 ^ 16) d
  else if 0x1C020040 ≤ a ∧ a < 0x1C020060 then hoWrite d p.req p.addr (dom ((a - 0x1C020040) / 8)) v
  else if 0x1C020080 ≤ a ∧ a < 0x1C020090 then
    let w := (a - 0x1C020080) / 4
    let d := setF (setF (setF d (F.CLK_WCLKOUT.EN w) v) (F.CLK_WCLKOUT.DOM w) (v / 2)) (F.CLK_WCLKOUT.INV w) (v / 2 ^ 3)
    setIf (decide (v / 2 ^ 4 % 2 ^ 4 ≤ 8)) (F.CLK_WCLKOUT.DIV w) (v / 2 ^ 4) d
  else if a = Adr.CLK_PPSOUT then
    setIf (decide (v / 2 ^ 8 % 2 ^ 18 ≠ 0)) F.CLK_PPSOUT.WIDTH (v / 2 ^ 8) (setF d F.CLK_PPSOUT.EN v)
  else setReg d a (BitVec.ofNat 32 v)

/-- A write of an AON-domain field takes effect (R19, R421 to R423). -/
def aonApply (d : Device) (a : Nat) (p : PendWr) : Device :=
  let v := p.v.toNat
  if 0x1C030140 ≤ a ∧ a < 0x1C030150 then
    let k := (a - 0x1C030140) / 4
    let d := setF (setF (setF d (F.PWR_SENSE.HYST k) (v / 2 ^ 12)) (F.PWR_SENSE.DEB k) (v / 2 ^ 16)) (F.PWR_SENSE.POL k) (v / 2 ^ 24)
    setIf (decide (v % 2 ^ 12 ≤ 3300)) (F.PWR_SENSE.THR k) v d
  else if a = Adr.TIME_AONQ then setF d F.TIME_AONQ.TOL (v / 2 ^ 16)
  else if a = Adr.PWR_ALARM then setReg64 d a (Nat.land v 0x8000FFFFFFFFFFFF)
  else
    match regRow a with
    | none => d
    | some (r, _) => plainWrite d a r (BitVec.ofNat 32 v)

/-- The handshake of a register completes (R19); `f` is what its write does. -/
def handshakeDone (f : Device → Nat → PendWr → Device) (d : Device) (a : Nat) : Device :=
  match sparseGet noPend d.handshake a with
  | none => d
  | some p => f { d with handshake := sparsePut noPend d.handshake a none } a p

/-- MEDIA_WRITE_COMPLETE (R19). -/
def mediaDone (d : Device) (a : Nat) : Device := if mediaReg a then handshakeDone mediaApply d a else d

/-- AON_WRITE_COMPLETE (R19). -/
def aonDone (d : Device) (a : Nat) : Device := if aonReg a then handshakeDone aonApply d a else d

end Sys2Proof.Machine
end

