-- ==== Sys2Proof/Machine/Bus.lean ====
section
/-! DEFINITION. Accesses of the requesters over the whole device address map (R4, R20, R21, R35, R43, R108 to R110, R168,
R177, R181 to R183, R372, R411, R473, R475, R504 to R506). -/

namespace Sys2Proof.Machine

/-! ### The map -/

/-- The areas of the device address map (R504); an offset is kept where the area has many instances. -/
inductive Area where
  | delay | aliases (b : Bool) | tags
  | engine (n : Fin 64) (o : Nat)
  | group (g : Nat) (o : Nat)
  | ccMem | regs | secure | srs | unmapped
  deriving DecidableEq, Repr

/-- The area of an address. -/
def areaOf (a : Nat) : Area :=
  if a < 0x4000000 then .delay
  else if a < 0x8000000 then .aliases false
  else if a < 0xC000000 then .aliases true
  else if a < 0xD000000 then .tags
  else if a < 0x10000000 then .unmapped
  else if a < 0x14000000 then .engine ⟨(a - 0x10000000) / 0x100000 % 64, by omega⟩ (a % 0x100000)
  else if a < 0x18000000 then .group ((a - 0x14000000) / 0x100000) (a % 0x100000)
  else if a < 0x18200000 then .ccMem
  else if a < 0x1C000000 then .unmapped
  else if a < 0x1C130000 then .regs
  else if 0x1E000000 ≤ a ∧ a < 0x1E010000 then .secure
  else if 0x1F000000 ≤ a ∧ a < 0x20000000 then .srs
  else .unmapped

/-- Whether an address is decoded as registers, where R506 holds: the register blocks, the secure partition, the SRS
window, and the engine registers of engine and group windows. -/
def registerArea (a : Nat) : Bool :=
  match areaOf a with
  | .regs => true
  | .secure => true
  | .srs => true
  | .engine _ o => decide (0x60000 ≤ o ∧ o < 0x60600)
  | .group _ o => decide (0x60000 ≤ o ∧ o < 0x60600)
  | _ => false

/-- Whether an address of the SRS window lies in an absent region's field block (R78). -/
def srsAbsent (d : Device) (a : Nat) : Bool :=
  let r := (a - 0x1F000000) / 0x1000
  (regionClass r).isSome && !regionPresent d r

/-- Whether an address lies in the window of an absent unit or in an unmapped range (R43, R505); absent delay banks apart. -/
def absentAt (d : Device) (a : Nat) : Bool :=
  match areaOf a with
  | .engine n _ => decide (engCount d ≤ n.val)
  | .regs => subAbsent d a
  | .srs => srsAbsent d a
  | .unmapped => true
  | _ => false

/-- Whether an address lies in a view of delay memory. -/
def delayView (a : Nat) : Bool := decide (a < 0xD000000)

/-- The word of delay memory an address of any view names; in the tag view the first of those it covers. -/
def delayWordOf (a : Nat) : Nat := if 0xC000000 ≤ a then a - 0xC000000 else a % 0x4000000 / 4

/-- An access, of any width, that its window does not take (R43, R208): an absent unit's, or a bank's that is absent or not
ready. It counts once. -/
def deadAccess (d : Device) (q : Req) (a : Nat) : Option Device :=
  if absentAt d a then some (absentAccess d (reqPath q) 0 a)
  else if delayView a then hostDelayBlocked d q (delayWordOf a) a
  else none

/-! ### Engine registers -/

/-- Whether an engine's window counts as stopped (R109, R478): its region is EMPTY, QUIESCED or INCOMPLETE, or the engine
is fenced. A PENDING region is none of these, whatever it came from. -/
def engStopped (d : Device) (n : Fin 68) : Bool :=
  let st := (rgn d (ag d n).role).st
  (ag d n).fenced || decide (st = .empty ∨ st = .quiesced ∨ st = .incomplete)

/-- A register of a file of eight, or sixteen, as a sequence of words. -/
def fileWord {k : Nat} (v : Vector Word k) (i : Nat) : Word := v.toArray.getD i 0

/-- Tags as the fields of ENG_DTAG0 or ENG_DTAG1. -/
def dtagWord (e : Engine) (base : Nat) : Nat :=
  (List.range 8).foldl (fun s j => s + (e.w.d.toArray.getD (base + j) (TWord.zero .uninit)).t.code * 16 ^ j) 0

/-- The word of an accumulator at an offset of its four (R108). -/
def qWord (q : QReg) (o : Nat) : Nat :=
  match o with
  | 0 => q.v.toNat % 2 ^ 32
  | 4 => q.v.toNat / 2 ^ 32 % 2 ^ 32
  | 8 => ((q.v.extractLsb' 64 16).signExtend 32).toNat
  | _ => q.t.code

/-- A word of the bit space as it reads through ENG_BITS (R111, R115). -/
def bitsWord (d : Device) (n : Fin 68) (k : Nat) : Word :=
  let e := ag d n
  if k < 64 then sparseGet wordZero e.flags k
  else if k < 96 then
    let first := (sparseGet wordZero e.captured 68).getLsbD 3
    sparseGet wordZero (asBits (statusWords d (engDomain d n) e.maxt e.fading first)) k
  else sparseGet wordZero d.team[teamGroup d n] (k - 96)

/-- An engine register as it reads, by its offset from 0x6_0000 (R108, R115). -/
def engRegWord (d : Device) (n : Fin 68) (o : Nat) : Nat :=
  let e := ag d n
  let i := o / 4
  if o < 0x40 then (e.w.d.toArray.getD i (TWord.zero .uninit)).p.toNat
  else if o < 0x48 then dtagWord e (if o = 0x40 then 0 else 8)
  else if 0x80 ≤ o ∧ o < 0xC0 then qWord (e.w.q.toArray.getD ((o - 0x80) / 16) ⟨0, .uninit⟩) (o % 16)
  else if 0xC0 ≤ o ∧ o < 0xE0 then (fileWord e.w.a (i - 0x30)).toNat
  else if o = 0xE0 then bitsNat e.w.ap.toList
  else if 0x100 ≤ o ∧ o < 0x120 then (fileWord e.w.m (i - 0x40)).toNat
  else if 0x120 ≤ o ∧ o < 0x140 then (fileWord e.w.l (i - 0x48)).toNat
  else if 0x140 ≤ o ∧ o < 0x160 then (fileWord e.w.e (i - 0x50)).toNat
  else if 0x200 ≤ o ∧ o < 0x224 then ((controlReg d n ⟨(i - 0x80) % 16, by omega⟩).getD 0).toNat
  else if (0x224 ≤ o ∧ o < 0x234) ∧ n.val < 64 then (reg d (0x10060000 + 0x100000 * n.val + o)).toNat
  else if 0x240 ≤ o ∧ o < 0x260 then (fileWord e.rs (i - 0x90)).toNat
  else if 0x400 ≤ o ∧ o < 0x600 then (bitsWord d n (i - 0x100)).toNat
  else 0

/-- The registers of the engine window that take writes only while the engine is stopped (R109). -/
def stoppedOnly (o : Nat) : Bool :=
  decide (o < 0x48 ∨ (0x80 ≤ o ∧ o < 0xE4) ∨ (0x100 ≤ o ∧ o < 0x160) ∨ o = 0x208 ∨ (0x240 ≤ o ∧ o < 0x260)
    ∨ (0x400 ≤ o ∧ o < 0x500))

/-- A word of a file of registers replaced. -/
def putFile {k : Nat} (v : Vector Word k) (i : Nat) (x : Word) : Vector Word k :=
  Vector.ofFn (fun j => if j.val = i then x else v[j])

/-- An accumulator with one of its words replaced (R108); the tag is written through ENG_QnTAG alone. -/
def putQ (q : QReg) (o : Nat) (v : Word) : QReg :=
  match o with
  | 0 => { q with v := BitVec.ofNat 80 (withBits q.v.toNat 0 32 v.toNat) }
  | 4 => { q with v := BitVec.ofNat 80 (withBits q.v.toNat 32 32 v.toNat) }
  | 8 => { q with v := BitVec.ofNat 80 (withBits q.v.toNat 64 16 v.toNat) }
  | _ => { q with t := tagOfCode (v.toNat % 16) }

/-- A working register of a stopped engine written through its window (R108, R110). -/
def putWork (e : Engine) (o : Nat) (v : Word) : Engine :=
  let w := e.w
  let i := o / 4
  if o < 0x40 then { e with w := { w with d := Vector.ofFn (fun j => if j.val = i then ⟨v, (w.d[j]).t⟩ else w.d[j]) } }
  else if o < 0x48 then
    let b := if o = 0x40 then 0 else 8
    { e with w := { w with d := Vector.ofFn (fun j =>
        if b ≤ j.val ∧ j.val < b + 8 then ⟨(w.d[j]).p, tagOfCode (v.toNat / 16 ^ (j.val - b) % 16)⟩ else w.d[j]) } }
  else if 0x80 ≤ o ∧ o < 0xC0 then
    { e with w := { w with q := Vector.ofFn (fun j => if j.val = (o - 0x80) / 16 then putQ w.q[j] (o % 16) v else w.q[j]) } }
  else if 0xC0 ≤ o ∧ o < 0xE0 then { e with w := { w with a := putFile w.a (i - 0x30) v } }
  else if o = 0xE0 then { e with w := { w with ap := Vector.ofFn (fun j => v.getLsbD j.val) } }
  else if 0x100 ≤ o ∧ o < 0x120 then { e with w := { w with m := putFile w.m (i - 0x40) v } }
  else if 0x120 ≤ o ∧ o < 0x140 then { e with w := { w with l := putFile w.l (i - 0x48) v } }
  else if 0x140 ≤ o ∧ o < 0x160 then { e with w := { w with e := putFile w.e (i - 0x50) v } }
  else if o = 0x208 then { e with lc := v.extractLsb' 0 16 }
  else if 0x240 ≤ o ∧ o < 0x260 then { e with rs := putFile e.rs (i - 0x90) (BitVec.ofNat 32 (v.toNat % 2 ^ 13)) }
  else { e with flags := sparsePut wordZero e.flags (i - 0x100) v }

/-- TAGCTL written through the window (R109): held while the engine rallies. A write that takes effect at once discards one
still held from the rally before (DESIGN CHOICE, log 77). -/
def putTagctl (e : Engine) (b : Bool) : Engine :=
  if e.phase = .rallying then { e with chkPend := some b } else { e with chk := b, chkPend := none }

/-- A word of the team bits of an engine's group replaced (R114, R115). -/
def putTeam (d : Device) (n : Fin 68) (k : Nat) (v : Word) : Device :=
  let g := teamGroup d n
  { d with team := d.team.set g (sparsePut wordZero d.team[g] k v) }

/-- An engine register written through its window (R108, R109, R115). -/
def putEngReg (d : Device) (n : Fin 68) (o : Nat) (v : Word) : Device :=
  let e := ag d n
  if stoppedOnly o then setAg d n (putWork e o v)
  else if o = 0x20C then setAg d n (clearStat e v)
  else if o = 0x214 then setAg d n (putTagctl e (v.getLsbD 0))
  else if o = 0x218 then setAg d n (clearFault e v)
  else if 0x580 ≤ o ∧ o < 0x600 then putTeam d n ((o - 0x580) / 4) v
  else ignored d

/-! ### Engine windows -/

/-- A stored cell after a payload-view write of `len` bytes at byte `o` (R21, R206): a partial write of a word whose
parity has failed leaves POISON. -/
def cellWrite (c : Cell) (o len : Nat) (v : Word) (t : Tag) : TWord :=
  if len = 4 then ⟨v, t⟩ else ⟨mergeBytes c.w.p o len v, if c.bad then .poison else t⟩

/-- A stored cell after a tag-view write: a word whose parity has failed takes POISON, as R206 says of delay memory; for local
data and the coefficient shadow banks the spec does not say (DESIGN CHOICE, log 78). -/
def cellTag (c : Cell) (code : Nat) : TWord := ⟨c.w.p, if c.bad then .poison else tagOfCode (code % 16)⟩

/-- The tags of `len` words from word `w` of a store, as bytes (R177, R188). -/
def tagBytes (f : Nat → Cell) (w len : Nat) : Nat :=
  (List.range len).foldl (fun s i => s + (cellRead (f (w + i))).t.code * 2 ^ (8 * i)) 0

/-- The word of an engine window at offset `o` (R168, R177); `len` bytes of a tag view. -/
def engWinRead (d : Device) (n : Fin 68) (o len : Nat) : TWord :=
  let e := ag d n
  let size := coefSize d n
  let plain := fun x : Nat => (⟨BitVec.ofNat 32 x, .int⟩ : TWord)
  let sh := fun w : Nat => if w < size then sparseGet cellUninit e.shadow w else ⟨TWord.zero .sample, false⟩
  if o < 0x30000 then ⟨(localCell d n (o / 4)).w.p, (cellRead (localCell d n (o / 4))).t⟩
  else if o < 0x3C000 then plain (tagBytes (localCell d n) (o - 0x30000) len)
  else if 0x40000 ≤ o ∧ o < 0x48000 then ⟨(sh ((o - 0x40000) / 4)).w.p, .sample⟩
  else if 0x48000 ≤ o ∧ o < 0x4A000 then
    plain ((List.range len).foldl (fun s i =>
      s + (if o - 0x48000 + i < size then (cellRead (sh (o - 0x48000 + i))).t.code else 0) * 2 ^ (8 * i)) 0)
  else if 0x60000 ≤ o ∧ o < 0x60600 then plain (engRegWord d n (o - 0x60000 - o % 4))
  else if 0x80000 ≤ o ∧ o < 0x90000 then plain (sparseGet wordZero e.prog ((o - 0x80000) / 4)).toNat
  else if 0x90000 ≤ o ∧ o < 0xA0000 then plain (sparseGet wordZero e.progShadow ((o - 0x90000) / 4)).toNat
  else plain 0

/-- What a read of an engine window takes with it: the RC counts (R5). -/
def engWinTakes (d : Device) (n : Fin 68) (o : Nat) : Device :=
  let a := 0x10000000 + 0x100000 * n.val + o
  if o = 0x60228 then setReg d a 0
  else if o = 0x6022C then setReg d a 0
  else if o = 0x60230 then setReg d a (reg d a &&& 0xFFFF)
  else d

/-- `len` tag bytes written to a store by `f`. -/
def tagWrites (f : Device → Nat → Nat → Device) (w : Nat) (v : Word) (d : Device) (len : Nat) : Device :=
  (List.range len).foldl (fun d i => f d (w + i) (v.toNat / 2 ^ (8 * i) % 256)) d

/-- One cell of a coefficient shadow bank replaced. -/
def putShadow (d : Device) (n : Fin 68) (w : Nat) (v : TWord) : Device :=
  let e := ag d n
  setAg d n { e with shadow := sparsePut cellUninit e.shadow w (cellOf v) }

/-- A write of `len` bytes at offset `o` of one engine's window (R168, R177), already found acceptable; `t` is the tag a
control core's store carries into local data (R372). -/
def engWinWrite (d : Device) (n : Fin 68) (o len : Nat) (v : Word) (t : Tag) : Device :=
  let e := ag d n
  let size := coefSize d n
  if o < 0x30000 then putLocal d n (o / 4) (cellWrite (localCell d n (o / 4)) (o % 4) len v t)
  else if o < 0x3C000 then tagWrites (fun d w c => putLocal d n w (cellTag (localCell d n w) c)) (o - 0x30000) v d len
  else if 0x40000 ≤ o ∧ o < 0x48000 ∧ (o - 0x40000) / 4 < size then
    let w := (o - 0x40000) / 4
    putShadow d n w (cellWrite (sparseGet cellUninit e.shadow w) (o % 4) len v .sample)
  else if 0x48000 ≤ o ∧ o < 0x4A000 ∧ o - 0x48000 < size then
    tagWrites (fun d w c =>
      if w < size then putShadow d n w (cellTag (sparseGet cellUninit (ag d n).shadow w) c) else d) (o - 0x48000) v d len
  else if 0x60000 ≤ o ∧ o < 0x60600 then putEngReg d n (o - 0x60000) v
  else if 0x80000 ≤ o ∧ o < 0x90000 then
    let i := (o - 0x80000) / 4
    setAg d n { e with prog := sparsePut wordZero e.prog i (mergeBytes (sparseGet wordZero e.prog i) (o % 4) len v) }
  else if 0x90000 ≤ o ∧ o < 0xA0000 then
    let i := (o - 0x90000) / 4
    setAg d n { e with
      progShadow := sparsePut wordZero e.progShadow i (mergeBytes (sparseGet wordZero e.progShadow i) (o % 4) len v) }
  else ignored d

/-- Why an engine refuses a write to its window (R109, R177, R473). -/
def engRefusal (d : Device) (n : Fin 68) (o : Nat) : Option Nat :=
  if copyTarget d n then some Rej.busy
  else if ((0x60000 ≤ o ∧ o < 0x60600 ∧ stoppedOnly (o - 0x60000)) ∨ (0x80000 ≤ o ∧ o < 0x90000)) ∧ ¬ engStopped d n then
    some Rej.notQuiesced
  else none

/-- A write to one engine's window reaches the engine, and the substitute that mirrors it (R475). -/
def engWinPut (d : Device) (n : Fin 68) (o len : Nat) (v : Word) (t : Tag) : Device :=
  let d := engWinWrite d n o len v t
  match twin d n with
  | some m => engWinWrite d m o len v t
  | none => d

/-- The present members of an engine group, lowest first (R181, R182): group 0 is every present engine (R45); elsewhere each
bit names a role and so its holder (R469, R470), a vacant role none. -/
def members (d : Device) (g : Nat) : List (Fin 68) :=
  let bits := (List.finRange 64).filter (fun r => (groupMask d g).testBit r.val)
  if g = 0 then bits.map engProc
  else (bits.filter (fun r => !getB d (F.ENG_HOLDER.VACANT r.val))).map (fun r => holder d r.val)

/-- A write through the window of a group without members: it is dropped with no event, whatever it names (R182). -/
def groupEmpty (d : Device) (a : Nat) : Bool :=
  match areaOf a with
  | .group g _ => decide (members d g = [])
  | _ => false

/-- A write through a group window (R181, R182). -/
def groupWrite (d : Device) (q : Req) (a g o len : Nat) (v : Word) (t : Tag) : Device :=
  let ms := members d g
  if ms = [] then ignored d
  else if ms.any (fun n => (engRefusal d n o).isSome) then rejectReq d Rej.notQuiesced q a
  else ms.foldl (fun d n => engWinPut d n o len v t) d

/-! ### Delay windows -/

/-- A narrow write through an alias window: unwritten bytes count as 0 (R200). -/
def laneWord (a len : Nat) (v : Word) : Word := BitVec.ofNat 32 (v.toNat % 2 ^ (8 * len) * 2 ^ (8 * (a % 4)))

/-- A byte read put above the bytes before it. -/
def byteAbove (x : Device × Nat) (below i : Nat) : Device × Nat := (x.1, below + x.2 * 2 ^ (8 * i))

/-- One tag byte of the delay tag view. -/
def tagByteRead (q : Req) (a : Nat) (r : Device × Nat) (i : Nat) : Device × Nat :=
  byteAbove (hostTagRead r.1 q (a - 0xC000000 + i)) r.2 i

/-- The tag bytes of the delay tag view (R188); a bank that takes no access reads payload 0 (R43, R208). -/
def delayTagRead (d : Device) (q : Req) (a len : Nat) : Device × Nat :=
  deadOr (hostDelayBlocked d q (a - 0xC000000) a) 0 ((List.range len).foldl (tagByteRead q a) (d, 0))

/-- A write of the delay tag view (R188). -/
def delayTagWrite (d : Device) (q : Req) (a len : Nat) (v : Word) : Device :=
  (hostDelayBlocked d q (a - 0xC000000) a).getD
    ((List.range len).foldl (fun d i => hostTagWrite d q (a - 0xC000000 + i) (v.toNat / 2 ^ (8 * i) % 256)) d)

/-! ### One word at the bus -/

/-- A word of the SRS window as it reads in a present region (R78, R79): the common fields, and the field block. A link's
fields and those of region 0x0A2 read as they are in effect, which new ones are from the next resumption (R84, R338); in a
region that has never been started they read as written (DEDUCED, log 84). -/
def srsWord (d : Device) (a : Nat) : Word :=
  let r := (a - 0x1F000000) / 0x1000
  let x := rgn d r
  match regionClass r with
  | none => 0
  | some c =>
    match a % 0x1000 with
    | 0x0 => BitVec.ofNat 32 (r + 2 ^ 12 + 2 ^ 16 * c)
    | 0x4 => BitVec.ofNat 32 (classSize c)
    | 0x8 =>
      let st := match x.st with
        | .empty => 1
        | .running => 2
        | .quiescing => 3
        | .quiesced => 4
        | .incomplete => 5
        | .pending => 6
      BitVec.ofNat 32 (st + 8 * x.late.toNat + 16 * (shadowBad d r).toNat + 2 ^ 8 * (x.lastCode % 2 ^ 8))
    | 0x10 => BitVec.ofNat 32 (Nat.min x.applied 0xFFFF + 2 ^ 16 * Nat.min x.rejected 0xFFFF)
    | 0x14 => BitVec.ofNat 32 x.resumed
    | o =>
      if o = 0xC then reg d a
      else if (srsRowOf (srsRows c) o).isNone then 0
      else if (c = 3 ∨ c = 8) ∧ x.st ≠ .empty then sparseGet regReset d.eff a
      else reg d a

/-- The answer of an absent unit (R43). -/
def absentWord : TWord := TWord.zero .uninit

/-- A value read as a word that carries no tag of its own. -/
def intWord (r : Device × Nat) : Device × TWord := (r.1, ⟨BitVec.ofNat 32 r.2, .int⟩)

/-- A read of one aligned word, or of `len` bytes of a tag view, with the tag a control core receives (R43, R372). -/
def readWord (d : Device) (q : Req) (a len : Nat) : Device × TWord :=
  let w := a % 0x4000000 / 4
  if absentAt d a then (absentAccess d (reqPath q) 0 a, absentWord)
  else
    match areaOf a with
    | .tags => intWord (delayTagRead d q a len)
    | .engine n o =>
      let v := engWinRead d (engProc n) o len
      (engWinTakes d (engProc n) o, v)
    | .group g o =>
      match members d g with
      | [] => (d, ⟨0, .int⟩)
      | m :: _ => (engWinTakes d m o, engWinRead d m o len)
    | .ccMem => (d, ⟨(ccCell d (a / 4)).w.p, (cellRead (ccCell d (a / 4))).t⟩)
    | .regs => intWord (readReg d q (a - a % 4))
    | .secure => (d, ⟨partRead d (a % 0x10000 - a % 4), .int⟩)
    | .srs => (d, ⟨srsWord d (a - a % 4), .int⟩)
    | .unmapped => (d, absentWord)
    | _ => deadOr (hostDelayBlocked d q w a) absentWord (hostParity d q w, ⟨(delayCell d w).w.p, .sample⟩)

/-- A write of `len` bytes, at most one word, at an aligned address; `t` is the tag of a control core's store (R372). -/
def writeWord (d : Device) (q : Req) (a len : Nat) (v : Word) (t : Tag) : Device :=
  let w := a % 0x4000000 / 4
  if absentAt d a then absentAccess d (reqPath q) 0 a
  else if groupEmpty d a then ignored d
  else if registerArea a ∧ len ≠ 4 then rejectReq d Rej.field q a
  else
    match areaOf a with
    | .delay => hostDelayWrite d q w a (a % 4) len v
    | .aliases b => hostAtomic d q w a (aliasOp d w b) (laneWord a len v)
    | .tags => delayTagWrite d q a len v
    | .engine n o =>
      match engRefusal d (engProc n) o with
      | some c => rejectReq d c q a
      | none => engWinPut d (engProc n) o len v t
    | .group g o => groupWrite d q a g o len v t
    | .ccMem => putCc d (a / 4) (cellWrite (ccCell d (a / 4)) (a % 4) len v t)
    | .regs => writeReg d q a v
    | .secure => partWrite d q (a % 0x10000) v
    | .srs => ignored d
    | .unmapped => d

/-- The bytes of a word that a narrow access addresses (R4, R506): tag views answer their own bytes. -/
def lanes (a n : Nat) (w : Word) : Nat :=
  let own := fun o : Nat => decide ((0x30000 ≤ o ∧ o < 0x3C000) ∨ (0x48000 ≤ o ∧ o < 0x4A000))
  let tags :=
    match areaOf a with
    | .tags => true
    | .engine _ o => own o
    | .group _ o => own o
    | _ => false
  if tags then w.toNat else w.toNat / 2 ^ (8 * (a % 4)) % 2 ^ (8 * n)

/-! ### Placing host-side accesses at a bank (R195 to R199) -/

/-- Whether rally cycle `r` is certainly idle for a bank (R195): its entry is FREE, or the entry's owner is not rallying
(in the cycles K to K + 15 no engine of the domain is), or the group's domain produces no kickoffs, or the group is not in
service. -/
def idleCycle (d : Device) (b : Fin 128) (r : Nat) : Bool :=
  let s := slotAt d b r
  let n := holder d (s % 64)
  decide (s < 0x80) || !produces d (dom (getF d (F.S_DLY.CTL.DOMAIN (groupRegion b)))) || decide ((ag d n).phase ≠ .rallying)
    || (ag d n).bench || !Regions.live d.regions (s % 64)

/-- Whether the bank has a certainly idle cycle as things stand. -/
def bankIdle (d : Device) (b : Fin 128) : Bool := (List.range (Nat.max 1 (slotPeriod d b))).any (idleCycle d b)

/-- What a placement does with an access of one word (R196, R197). -/
inductive Placed where
  | perform | again | collide (n : Fin 68)
  deriving DecidableEq, Repr

/-- A placement in rally cycle `r` (R196, R197): every access in a certainly idle cycle; in another, with STEAL, a plain one
that the owner's access of the cycle does not forestall. -/
def placeAt (d : Device) (a len : Nat) (write : Bool) (r : Nat) : Placed :=
  let w := delayWordOf a
  let b := bankOf w
  let plain := !write || (decide (a < 0x4000000) && decide (len = 4))
  if idleCycle d b r then .perform
  else if ¬ getB d F.DLY_CTL.STEAL ∨ ¬ plain then .again
  else
    match ownerAccess d b r with
    | none => .perform
    | some (n, x) =>
      let same := decide (w ≤ x.addr ∧ x.addr < w + (if 0xC000000 ≤ a then len else 1))
      if x.kind = .delayWrite ∧ same ∧ ¬ write then .collide n else .again

/-- A placement where the command says; with none, in the next certainly idle cycle, for which the access waits. -/
def placing (d : Device) (p : Option Place) (a len : Nat) (write : Bool) : Placed :=
  match p with
  | none => .perform
  | some .idle => if bankIdle d (bankOf (delayWordOf a)) then .perform else .again
  | some (.stolen r) => placeAt d a len write r

/-- The words an access of `n` bytes makes at the bank. -/
def accWords (h : HostAcc) : Nat := if h.n = 8 then 2 else 1

/-- The next word of an access performed. -/
def accWord (d : Device) (h : HostAcc) : Device × HostAcc :=
  let a := h.addr + 4 * h.done
  let len := Nat.min h.n 4
  match h.v with
  | some x =>
    let d := writeWord { d with wrNone := false } h.req a len (BitVec.ofNat 32 (x.toNat / 2 ^ (32 * h.done))) .sample
    ({ d with wrNone := false }, { h with done := h.done + 1, inert := h.inert && d.wrNone })
  | none =>
    let r := readWord d h.req a len
    (r.1, { h with done := h.done + 1, got := h.got + lanes a len r.2.p * 2 ^ (32 * h.done), tag := r.2.t })

/-- The next word of a read that collided with a write of engine `n`: payload and tag are free values (R197, R198). -/
def accCollided (d : Device) (h : HostAcc) (n : Fin 68) : Device × HostAcc :=
  let a := h.addr + 4 * h.done
  let f := fresh (collision d h.req n a)
  (f.2, { h with
    done := h.done + 1
    got := h.got + lanes a (Nat.min h.n 4) (Config.freeWord f.1) * 2 ^ (32 * h.done)
    tag := tagOfCode (Config.freeTag f.1).toNat })

/-- One placement of the next word of an access. -/
def accStep (p : Option Place) (x : Device × HostAcc) : Device × HostAcc :=
  if accWords x.2 ≤ x.2.done then x
  else
    match placing x.1 p (x.2.addr + 4 * x.2.done) (Nat.min x.2.n 4) x.2.v.isSome with
    | .perform => accWord x.1 x.2
    | .collide n => accCollided x.1 x.2 n
    | .again => x

/-- What a completed read gives its requester (R198): the data, and for PCIe the words of the completion, for HSPI the words
of the frame. -/
def accGives (d : Device) (h : HostAcc) : Device :=
  let d := respond d h.req h.got h.tag
  let words := (List.range (accWords h)).map (fun i => BitVec.ofNat 32 (h.got / 2 ^ (32 * i)))
  match h.req with
  | .pcie => { d with pcieCpl := words }
  | .hspi => { d with hspiOut := words }
  | _ => d

/-- An access served in a bank cycle, and then in certainly idle ones; what is left of it waits (R196, R197). -/
def accServe (p : Option Place) (d : Device) (h : HostAcc) : Device × Option HostAcc :=
  let again : Option Place := if p.isNone then none else some .idle
  let x := accStep again (accStep again (accStep p (d, h)))
  if x.2.done < accWords x.2 then (x.1, some x.2)
  else
    match x.2.v with
    | some _ => (journal x.1 x.2.req x.2.addr x.2.inert, none)
    | none => (accGives x.1 x.2, none)

/-- The accesses that wait at a bank served in the order they reached it (R196): behind one that still waits, all wait. -/
def serveNext (r : Device × List HostAcc × Option Place) (h : HostAcc) : Device × List HostAcc × Option Place :=
  if r.2.1 ≠ [] then (r.1, r.2.1 ++ [h], r.2.2)
  else
    let x := accServe r.2.2 r.1 h
    (x.1, x.2.toList, if r.2.2.isNone then none else some .idle)

/-- Whether an access waits at a bank. -/
def waitsAt (b : Fin 128) (h : HostAcc) : Bool := decide (bankOf (delayWordOf h.addr) = b)

/-- The accesses that wait at a bank, the first of them placed at `p`. -/
def serveBank (d : Device) (b : Fin 128) (p : Option Place) : Device :=
  let r := (d.waits.filter (waitsAt b)).foldl serveNext (d, [], p)
  { r.1 with waits := d.waits.filter (fun h => !waitsAt b h) ++ r.2.1 }

/-- The accesses that wait at any bank, in the certainly idle cycles there are. -/
def serveAll (d : Device) : Device :=
  (d.waits.map (fun h => bankOf (delayWordOf h.addr))).foldl (fun d b => serveBank d b (some .idle)) d

/-- An access by a command that names no bank cycle takes the next certainly idle one, behind the accesses that wait at the
bank (R196, R199; DESIGN CHOICE, log 68). -/
def settle (d : Device) (a : Nat) : Device :=
  if delayView a ∧ d.waits ≠ [] then serveBank d (bankOf (delayWordOf a)) none else d

/-! ### Whole accesses -/

/-- Whether an 8-byte access at an address covers a W register (R31, R32, R506). -/
def coversWide (d : Device) (a : Nat) : Bool :=
  decide (areaOf a = .regs) && !subAbsent d a && ((regRow a).map (fun r => r.1.wide && !r.2)).getD false

/-- Two effects of one access: it has no effect when neither has (R485). -/
def both (f g : Device → Device) (d : Device) : Device :=
  let d1 := f { d with wrNone := false }
  let d2 := g { d1 with wrNone := false }
  { d2 with wrNone := d1.wrNone && d2.wrNone }

/-- The effect of a write access of `n` bytes, without its journal entry. -/
def busPut (d : Device) (q : Req) (a n v : Nat) (t : Tag) : Device :=
  let d := settle d a
  if n = 8 then
    (deadAccess d q a).getD
      (if coversWide d a then writeWide d q a v
      else both (fun d => writeWord d q a 4 (BitVec.ofNat 32 v) t)
        (fun d => writeWord d q (a + 4) 4 (BitVec.ofNat 32 (v / 2 ^ 32)) t) d)
  else writeWord d q a n (BitVec.ofNat 32 v) t

/-- A write access of a requester (R411, R485): its domain wakes, the effect, the journal entry. -/
def busWrite (d : Device) (q : Req) (a n v : Nat) (t : Tag := .sample) : Device :=
  entryCheck (writeOp (touch d a) q a (fun d => busPut d q a n v t))

/-- A write of both halves of a W register: one 64-bit access, or, by HSPI, whose accesses have 32 bits (R487), the low half
and then the high half. -/
def pairWrite (d : Device) (q : Req) (a v : Nat) : Device :=
  match q with
  | .hspi => busWrite (busWrite d q a 4 v) q (a + 4) 4 (v / 2 ^ 32)
  | _ => busWrite d q a 8 v

/-- A read access of `n` bytes with its data and, for a word, its tag (R4, R31, R506). -/
def busGet (d : Device) (q : Req) (a n : Nat) : Device × Nat × Tag :=
  let d := settle d a
  if n = 8 then
    deadOr (deadAccess d q a) (0, .uninit)
      (if coversWide d a then let r := readWide d q a; (r.1, r.2, .int)
      else
        let lo := readWord d q a 4
        let hi := readWord lo.1 q (a + 4) 4
        (hi.1, lo.2.p.toNat + hi.2.p.toNat * 2 ^ 32, lo.2.t))
  else
    let r := readWord d q a n
    (r.1, lanes a n r.2.p, r.2.t)

/-- A read access of a requester (R411): its domain wakes, and the data is returned. -/
def busRead (d : Device) (q : Req) (a n : Nat) : Device :=
  let r := busGet (touch d a) q a n
  entryCheck (respond r.1 q r.2.1 r.2.2)

/-- A read that takes nothing with it but a W register's snapshot (R491); `whole` says whether the word is shifted out
whole, which an absent window's event waits for. -/
def busPeek (d : Device) (q : Req) (a : Nat) (whole : Bool) : Device × Word :=
  let d := settle (touch d a) a
  if absentAt d a then (if whole then absentAccess d (reqPath q) 0 a else d, 0)
  else
    match areaOf a with
    | .regs => let r := peekReg d q a; (r.1, BitVec.ofNat 32 r.2)
    | .srs => (d, srsWord d a)
    | .engine n o => (d, (engWinRead d (engProc n) o 4).p)
    | .group g o => (d, ((members d g).head?.map (fun m => (engWinRead d m o 4).p)).getD 0)
    | _ => let r := readWord d q a 4; (r.1, r.2.p)

/-- A meaning that completes something in the running device (R411). -/
def onBus (s : State) (f : Device → Device) : Host.Outcome State Fault Refusal :=
  onDev s (fun d => if awake d then f d else d)

end Sys2Proof.Machine
end

