-- ==== Sys2Proof/Machine/HostIf.lean ====
section
/-! DEFINITION. HSPI frames (R486 to R493), the PCIe endpoint (R499 to R502) and the GPIO inputs (R507). -/

namespace Sys2Proof.Machine

/-! ### HSPI frames -/

/-- Whether HSPI receives frames (R493): in RUN, IDLE and SLEEP, from SYS_READY.FUSE onward. -/
def hspiOn (d : Device) : Bool :=
  (awake d || decide (d.pstate = .sleep)) && decide (sysReadyWord d / 2 ^ F.SYS_READY.FUSE.lo % 2 = 1)

/-- Word length of HSPI (R486). -/
def hspiWlen (d : Device) : Nat := getF d F.HSPI_CFG.WLEN

/-- A word cut to the low WLEN bits (R487). -/
def hspiCut (d : Device) (w : Word) : Word := BitVec.ofNat 32 (w.toNat % 2 ^ hspiWlen d)

/-- Bits before the data phase of a frame (R486). -/
def hspiHead (d : Device) (read : Bool) : Nat := if read then 40 + getF d F.HSPI_CFG.DUMMY else 40

/-- Data words of a frame shifted out whole. -/
def hspiWhole (d : Device) (read : Bool) (bits : Nat) : Nat := (bits - hspiHead d read) / Nat.max 1 (hspiWlen d)

/-- Data words of a frame of which at least a bit was shifted. -/
def hspiBegun (d : Device) (read : Bool) (bits : Nat) : Nat :=
  (bits - hspiHead d read + Nat.max 1 (hspiWlen d) - 1) / Nat.max 1 (hspiWlen d)

/-- The address of a frame, its bits [1:0] ignored (R486). -/
def hspiAddr (addr : Word) : Nat := addr.toNat / 4 * 4

/-- The checks of R490 on the shape of a frame of a defined command. -/
def hspiShapeBad (d : Device) (read : Bool) (bits : Nat) : Bool :=
  decide (bits < hspiHead d read) || decide ((bits - hspiHead d read) % Nat.max 1 (hspiWlen d) ≠ 0)

/-- A frame begins: MISO carries HSPI_STAT[7:0] during its command byte (R489). -/
def hspiBegin (d : Device) : Device := { d with hspiByte := hspiStatWord d % 2 ^ 8, hspiOut := [] }

/-- A frame of `bits` bits rejected with a code (R35, R490); a rejected WRITE makes one journal entry. -/
def hspiReject (d : Device) (code bits : Nat) (addr : Word) (write : Bool) : Device :=
  let a := if bits < 40 then 0 else hspiAddr addr
  let d := if write ∧ 8 ≤ bits then writeOp d .hspi a (fun d => rejectReq d code .hspi a)
    else { rejectReq d code .hspi a with wrNone := false }
  raiseEv (setB (incF d F.HSPI_ERR.FRAME) F.HSPI_STAT.FRAMEERR true) 0x1CD

/-- `k` words shifted out as 0 (R491, R492). -/
def hspiLate (d : Device) (k : Nat) : Device :=
  if k = 0 then d else setB (incF d F.HSPI_ERR.LATE k) F.HSPI_STAT.LATE true

/-- The code with which a WRITE or QREAD of `n` words is rejected once its shape holds (R33, R490). -/
def hspiPostCode (d : Device) (addr n : Nat) (read : Bool) : Option Nat :=
  if 256 < n ∨ (0 < n ∧ 0xFFFFFFFC < addr + 4 * (n - 1)) ∨ (read ∧ 256 < n + d.hspiBuf.length) then some Rej.lenOver
  else if 2 ≤ hspiBuffers d then some Rej.busy
  else none

/-- HSPI_WRITE: a WRITE frame with the words received (R487, R490). -/
def hspiWrite (d : Device) (bits : Nat) (addr : Word) (ws : List Word) : Device :=
  if ¬ hspiOn d ∨ bits = 0 then d
  else
    let d := hspiBegin d
    let n := hspiWhole d false bits
    if hspiShapeBad d false bits then hspiReject d Rej.frame bits addr true
    else
      match hspiPostCode d (hspiAddr addr) n false with
      | some c => hspiReject d c bits addr true
      | none =>
        { d with hspiOps := d.hspiOps ++ (List.range n).map (fun i =>
            .write (hspiAddr addr + 4 * i) (hspiCut d (ws.getD i 0)) (decide (i + 1 = n))) }

/-- HSPI_QREAD: a QREAD frame (R490, R492). -/
def hspiQread (d : Device) (bits : Nat) (addr : Word) : Device :=
  if ¬ hspiOn d ∨ bits = 0 then d
  else
    let d := hspiBegin d
    let n := hspiWhole d false bits
    if hspiShapeBad d false bits then hspiReject d Rej.frame bits addr false
    else
      match hspiPostCode d (hspiAddr addr) n true with
      | some c => hspiReject d c bits addr false
      | none =>
        { d with
          hspiOps := d.hspiOps ++ (List.range n).map (fun i => .read (hspiAddr addr + 4 * i))
          hspiBuf := d.hspiBuf ++ List.replicate n none }

/-- One word of a READ (R491): on time it is shifted out; otherwise 0 is, and the access behind it waits its turn. -/
def hspiReadWord (d : Device) (a : Nat) (whole onTime : Bool) : Device :=
  if awake d ∧ d.hspiOps = [] then
    let r := busPeek d .hspi a whole
    if onTime then { r.1 with hspiOut := r.1.hspiOut ++ [hspiCut d r.2] }
    else hspiLate { r.1 with hspiOut := r.1.hspiOut ++ [0] } 1
  else hspiLate { d with hspiOut := d.hspiOut ++ [0], hspiOps := d.hspiOps ++ [.peek a whole] } 1

/-- HSPI_READ: a READ frame; `onTime` says of each word whether its value had arrived when its first bit was due (R491).
A frame that is rejected keeps its snapshots. -/
def hspiRead (d : Device) (bits : Nat) (addr : Word) (onTime : List Bool) : Device :=
  if ¬ hspiOn d ∨ bits = 0 then d
  else
    let d := hspiBegin d
    let d := (List.range (hspiBegun d true bits)).foldl (fun d i =>
      hspiReadWord d ((hspiAddr addr + 4 * i) % 2 ^ 32) (decide (i < hspiWhole d true bits)) (onTime.getD i false)) d
    if hspiShapeBad d true bits then hspiReject d Rej.frame bits addr false else d

/-- HSPI_STATUS: HSPI_STAT, then zeros (R488). -/
def hspiStatus (d : Device) (bits : Nat) (addr : Word) : Device :=
  if ¬ hspiOn d ∨ bits = 0 then d
  else
    let d := hspiBegin d
    let v := hspiCut d (BitVec.ofNat 32 (hspiStatWord d))
    let d := { d with hspiOut := (List.range (hspiBegun d false bits)).map (fun i => if i = 0 then v else 0) }
    if hspiShapeBad d false bits then hspiReject d Rej.frame bits addr false else d

/-- HSPI_FETCH: words of the read buffer (R492); an accepted frame counts the words shifted out as 0 and removes the completed
ones it shifted out whole; a rejected one changes nothing (R490). -/
def hspiFetch (d : Device) (bits : Nat) (addr : Word) : Device :=
  if ¬ hspiOn d ∨ bits = 0 then d
  else
    let d := hspiBegin d
    let ws := (List.range (hspiBegun d false bits)).map (fun i => d.hspiBuf.getD i none)
    let d := { d with hspiOut := ws.map (fun w => hspiCut d (w.getD 0)) }
    if hspiShapeBad d false bits then hspiReject d Rej.frame bits addr false
    else
      let d := hspiLate d (ws.filter Option.isNone).length
      { d with hspiBuf := d.hspiBuf.drop (Nat.min (hspiWhole d false bits) (hspiAvail d)) }

/-- HSPI_RESERVED_FRAME (R490). -/
def hspiReserved (d : Device) (bits : Nat) (addr : Word) : Device :=
  if ¬ hspiOn d ∨ bits = 0 then d else hspiReject (hspiBegin d) Rej.frame bits addr false

/-- The oldest posted QREAD word completes. -/
def hspiFill (v : Word) : List (Option Word) → List (Option Word)
  | [] => []
  | none :: ws => some v :: ws
  | w :: ws => w :: hspiFill v ws

/-- HSPI_POSTED_ACCESS: the oldest posted operation is carried out at its target (R490 to R492). -/
def hspiPosted (d : Device) : Device :=
  match d.hspiOps with
  | [] => d
  | .write a v _ :: ops => busWrite { d with hspiOps := ops } .hspi a 4 v.toNat
  | .read a :: ops =>
    let r := busGet (touch { d with hspiOps := ops } a) .hspi a 4
    entryCheck { r.1 with hspiBuf := hspiFill (BitVec.ofNat 32 r.2.1) r.1.hspiBuf }
  | .peek a w :: ops => (busPeek { d with hspiOps := ops } .hspi a w).1

/-! ### The PCIe endpoint -/

/-- Whether the endpoint takes requests: it exists and PERST_N is high (R499, R502). -/
def pcieOn (d : Device) : Bool := hasPcie d && d.perst

/-- An Unsupported Request (R500, R502). -/
def pcieUr (d : Device) : Device := raiseEv (incF d F.PCIE_ERR.UR) 0x1CF

/-- A request in BAR0 at device byte address `a` (R499, R502): in D3hot, or outside BAR0, it is unsupported; `f` carries it
out. -/
def pcieRequest (d : Device) (a : Nat) (f : Device → Device) : Device :=
  if ¬ pcieOn d then d
  else if getB d F.PCIE_STAT.D3 ∨ 0x20000000 ≤ a then pcieUr d
  else f d

/-- The runs of enabled bytes of a word, as first byte and length. -/
def beRuns (be : BitVec 4) : List (Nat × Nat) :=
  (List.range 4).flatMap (fun i =>
    if be.getLsbD i ∧ ¬ (0 < i ∧ be.getLsbD (i - 1)) then
      [(i, ((List.range (4 - i)).takeWhile (fun j => be.getLsbD (i + j))).length)]
    else [])

/-- One word of a PCIe write to its target. -/
def pcieWord (d : Device) (a : Nat) (v : Word) (be : BitVec 4) : Device :=
  (beRuns be).foldl (fun d r => busWrite d .pcie (a + r.1) r.2 (v.toNat / 2 ^ (8 * r.1))) d

/-- The words of a PCIe write in ascending order (R187, R500). -/
def pcieWords : Nat → List (Word × BitVec 4) → Device → Device
  | _, [], d => d
  | a, (v, be) :: ws, d => pcieWords (a + 4) ws (pcieWord d a v be)

/-- Whether a word of the write meets a register block with a byte disabled (R500). -/
def pcieNarrow : Nat → List (Word × BitVec 4) → Bool
  | _, [] => false
  | a, (_, be) :: ws => (registerArea a && decide (be ≠ 15)) || pcieNarrow (a + 4) ws

/-- PCIE_MEMORY_WRITE (R32, R500). -/
def pcieWrite (d : Device) (addr : Word) (ws : List (Word × BitVec 4)) : Device :=
  let a := addr.toNat / 4 * 4
  pcieRequest d a (fun d =>
    if pcieNarrow a ws then writeOp d .pcie a (fun d => rejectReq d Rej.field .pcie a)
    else
      match ws with
      | [(lo, _), (hi, _)] =>
        if a % 8 = 0 ∧ coversWide d a then busWrite d .pcie a 8 (lo.toNat + hi.toNat * 2 ^ 32) else pcieWords a ws d
      | _ => pcieWords a ws d)

/-- `n` words read in ascending order (R187, R500). -/
def pcieReadWords : Nat → Nat → Device → Device
  | _, 0, d => d
  | a, n + 1, d =>
    let r := busGet (touch d a) .pcie a 4
    pcieReadWords (a + 4) n { r.1 with pcieCpl := r.1.pcieCpl ++ [BitVec.ofNat 32 r.2.1] }

/-- PCIE_MEMORY_READ of `len` bytes (R31, R500): the words that hold them. -/
def pcieRead (d : Device) (addr : Word) (len : Nat) : Device :=
  let a := addr.toNat
  pcieRequest d a (fun d =>
    let d := { d with pcieCpl := [] }
    if a % 8 = 0 ∧ len = 8 ∧ coversWide d a then
      let r := readWide (touch d a) .pcie a
      entryCheck { r.1 with pcieCpl := [BitVec.ofNat 32 r.2, BitVec.ofNat 32 (r.2 / 2 ^ 32)] }
    else entryCheck (pcieReadWords (a / 4 * 4) ((a % 4 + len + 3) / 4) d))

/-- PCIE_UNSUPPORTED_REQUEST. -/
def pcieUnsupported (d : Device) : Device := if pcieOn d then pcieUr d else d

/-- PCIE_POISONED_WRITE: the request is dropped (R500). -/
def pciePoisoned (d : Device) : Device := if pcieOn d then raiseEv (incF d F.PCIE_ERR.POIS) 0x1CF else d

/-- PCIE_LINK_CHANGE (R408, R502). -/
def pcieLink (d : Device) (up : Bool) (speed width pstate : BitVec 2) : Device :=
  if ¬ pcieOn d then d
  else
    let same := decide (getB d F.PCIE_STAT.LINKUP = up ∧ getF d F.PCIE_STAT.SPEED = speed.toNat ∧
      getF d F.PCIE_STAT.WIDTH = width.toNat)
    let d := setF (setB d F.PCIE_STAT.LINKUP up) F.PCIE_STAT.SPEED speed.toNat
    let d := setF (setF d F.PCIE_STAT.WIDTH width.toNat) F.PCIE_STAT.PSTATE pstate.toNat
    entryCheck (if same then d else raiseEv d 0x1CE)

/-- Device ID by the number of engines (R499). -/
def pcieDeviceId (d : Device) : Nat := if engCount d = 64 then 0x7364 else if engCount d = 48 then 0x7348 else 0x7332

/-- A word of the configuration space: what R499 gives, otherwise a value the spec leaves to the base specification. -/
def pcieConfigRead (d : Device) (o : Nat) : Device :=
  let f := fresh d
  let open_ := (Config.freeWord f.1).toNat
  let v :=
    if o = 0 then open_ % 2 ^ 16 + pcieDeviceId d * 2 ^ 16
    else if o = 8 then open_ % 2 ^ 8 + 0x040100 * 2 ^ 8
    else if o = 0x10 then d.pcieBar
    else if 0x14 ≤ o ∧ o < 0x28 ∨ o = 0x30 then 0
    else open_
  { f.2 with pcieCpl := [BitVec.ofNat 32 v] }

/-- PCIE_CONFIGURATION_REQUEST (R499, R501, R502): the power state, where D3hot gates the PCIE domain as IDLE; MSI-X Enable
and Function Mask; BAR0, of 512 MiB; Max Payload Size; or a read. -/
def pcieConfig (d : Device) (c : PcieCfg) : Device :=
  if ¬ pcieOn d then d
  else
    match c with
    | .power d3 =>
      let d := setB d F.PCIE_STAT.D3 d3
      if d3 then setDomain d 11 1 else domainWake d 11
    | .msix en mask => msixUnmaskAll { d with pcieMsixEn := en, pcieFnMask := mask }
    | .bar0 v => { d with pcieBar := v.toNat / 2 ^ 29 * 2 ^ 29 }
    | .payload big => { d with pcieMps := if big then 1 else 0 }
    | .read o => pcieConfigRead d (o.toNat / 4 * 4)

/-- PERST_N_FALL (R502): the endpoint and its configuration space are reset. -/
def perstFall (d : Device) : Device :=
  let was := hasPcie d && (getB d F.PCIE_STAT.LINKUP || decide (getF d F.PCIE_STAT.SPEED ≠ 0) || decide (getF d F.PCIE_STAT.WIDTH ≠ 0))
  let d := { d with perst := false, pcieMsixEn := false, pcieFnMask := false, pcieBar := 0, pcieMps := 0, pcieCpl := [] }
  let d := regsReset d 0x1C100000 0x1C103000
  if was then raiseEv d 0x1CE else d

/-- PERST_N_RISE (R421, R502). -/
def perstRise (d : Device) : Device := perstWake { d with perst := true }

/-! ### GPIO -/

/-- GPIO_INPUT_CHANGE: a pad's level (R507). -/
def gpioChange (d : Device) (k : Fin 32) (b : Bool) : Device :=
  { d with gpioPads := BitVec.ofNat 32 (withBits d.gpioPads.toNat k.val 1 b.toNat) }

end Sys2Proof.Machine
end

