-- ==== Sys2Proof/Machine/Access.lean ====
section
/-! DEFINITION. How an access of a requester reaches the device: it is carried out, or, in SLEEP, it stalls until the wake is
complete, in order (R187, R188, R196 to R200, R411). -/

namespace Sys2Proof.Machine

/-- A host-side delay access of `n` bytes placed in a bank cycle (R187, R188, R196 to R200), through any view: it joins the
accesses that wait at its bank, and the first of them is placed in that cycle. An access that its window does not take is
complete at once (R43, R208). -/
def placedAccess (d : Device) (q : Req) (a n : Nat) (v : Option (BitVec 64)) (p : Place) : Device :=
  let t := touch d a
  if delayView a ∧ (deadAccess t q a).isNone then
    entryCheck (serveBank { t with waits := t.waits ++ [⟨q, a, n, v, 0, true, 0, .uninit⟩] } (bankOf (delayWordOf a)) (some p))
  else
    match v with
    | some x => busWrite d q a n x.toNat
    | none => busRead d q a n

/-- The effect of an access that has reached its target. -/
def carryOut (d : Device) (op : BusOp) : Device :=
  match op with
  | .write q a n v => busWrite d q a n v
  | .read q a n => busRead d q a n
  | .pair q a v => pairWrite d q a v
  | .mediaPair q a v => mediaDone (pairWrite d q a v) a
  | .mediaWrite q a v => mediaDone (busWrite d q a 4 v) a
  | .placed q a n v p => placedAccess d q a n v p
  | .pcieWrite addr ws => pcieWrite d addr ws
  | .pcieRead addr len => pcieRead d addr len

/-- An access reaches the device (R411, R493): in SLEEP it stalls behind those that stall already; in DEEP and OFF no requester
reaches it. -/
def access (d : Device) (op : BusOp) : Device :=
  if awake d then carryOut d op
  else if d.pstate = .sleep then { d with stalled := d.stalled ++ [op] }
  else d

/-- The accesses that stalled are carried out in order once the device runs (R411): none is dropped. -/
def runStalled (d : Device) : Device :=
  if awake d then d.stalled.foldl carryOut { d with stalled := [] } else d

/-- The place of a requester in the order of one cycle (R26). -/
def reqRank : Req → Nat
  | .loader => 0
  | .cc c => 1 + c.val
  | .pcie => 5
  | .hspi => 6

/-- The requester of an access. -/
def BusOp.req : BusOp → Req
  | .write q _ _ _ => q
  | .read q _ _ => q
  | .pair q _ _ => q
  | .mediaPair q _ _ => q
  | .mediaWrite q _ _ => q
  | .placed q _ _ _ _ => q
  | .pcieWrite _ _ => .pcie
  | .pcieRead _ _ => .pcie

/-- The accesses of one cycle in the order in which they take effect (R26): loader, CC0 to CC3, PCIe, HSPI, those of one requester
in the order it made them. -/
def inOrder (ops : List BusOp) : List BusOp :=
  (List.range 7).flatMap (fun r => ops.filter (fun o => decide (reqRank o.req = r)))

/-- The accesses that reach the device in one cycle (R26): the last of them determines the final value. -/
def accessCycle (d : Device) (ops : List BusOp) : Device := (inOrder ops).foldl access d

/-- A meaning that one access has. -/
def onAccess (s : State) (op : BusOp) : Host.Outcome State Fault Refusal := onDev s (fun d => access d op)

end Sys2Proof.Machine
end

