-- ==== Sys2Proof/Machine/CmdAccess.lean ====
section
/-! DEFINITION. Commands that read and write registers and memories through the device address map (R4, R5, R19, R20, R29 to R32, R109, R168,
R177, R181, R187, R188, R196 to R201, R209 to R211, R500, R506). -/

namespace Sys2Proof.Machine

/-- The window of an engine (R504). -/
def engWindow (n : Fin 64) : Nat := 0x10000000 + 0x100000 * n.val

/-- REGISTER_WRITE (R5, R506): a write under the access codes of the register's fields. -/
def execRegisterWrite (q : Req) (addr : Word) (w : Width) (v : BitVec 64) (s : State) : Host.Outcome State Fault Refusal :=
  onAccess s (.write q addr.toNat (widthBytes w) v.toNat)

/-- READ_CLEAR (R5): a read, which clears the RC fields it returns. -/
def execReadClear (q : Req) (addr : Word) (w : Width) (s : State) : Host.Outcome State Fault Refusal :=
  onAccess s (.read q addr.toNat (widthBytes w))

/-- W_LOW_READ (R29): the high half is snapped into the requester's read-holding register. -/
def execWLowRead (q : Req) (addr : Word) (s : State) : Host.Outcome State Fault Refusal :=
  onAccess s (.read q addr.toNat 4)

/-- W_LOW_WRITE (R32): the requester's write-holding register is filled. -/
def execWLowWrite (q : Req) (addr v : Word) (s : State) : Host.Outcome State Fault Refusal :=
  onAccess s (.write q addr.toNat 4 v.toNat)

/-- W_HIGH_WRITE (R32): both halves are stored. -/
def execWHighWrite (q : Req) (addr v : Word) (s : State) : Host.Outcome State Fault Refusal :=
  onAccess s (.write q addr.toNat 4 v.toNat)

/-- MEDIA_WRITE_COMPLETE (R19). -/
def execMediaWriteComplete (addr : Word) (s : State) : Host.Outcome State Fault Refusal :=
  onBus s (fun d => mediaDone d addr.toNat)

/-- AON_WRITE_COMPLETE (R19). -/
def execAonWriteComplete (addr : Word) (s : State) : Host.Outcome State Fault Refusal :=
  onDev s (fun d => aonDone d addr.toNat)

/-- ENGINE_REGISTER_WRITE (R109). -/
def execEngineRegisterWrite (q : Req) (n : Fin 64) (offset : BitVec 11) (v : Word) (s : State) : Host.Outcome State Fault Refusal :=
  onAccess s (.write q (engWindow n + 0x60000 + offset.toNat / 4 * 4) 4 v.toNat)

/-- ENG_TAGCTL_WRITE (R109). -/
def execEngTagctlWrite (q : Req) (n : Fin 64) (v : Word) (s : State) : Host.Outcome State Fault Refusal :=
  onAccess s (.write q (engWindow n + 0x60214) 4 v.toNat)

/-- LOCAL_DATA_HOST_ACCESS (R168): a write of `v`, or a read. -/
def execLocalDataHostAccess (q : Req) (n : Fin 64) (offset : BitVec 18) (w : Width) (v : Option (BitVec 64)) (s : State) : Host.Outcome State Fault Refusal :=
  onAccess s (match v with
    | some x => .write q (engWindow n + offset.toNat) (widthBytes w) x.toNat
    | none => .read q (engWindow n + offset.toNat) (widthBytes w))

/-- PROGRAM_BANK_HOST_WRITE (R177): to the active or the shadow bank. -/
def execProgramBankHostWrite (q : Req) (n : Fin 64) (shadow : Bool) (offset : BitVec 16) (w : Width) (v : BitVec 64) (s : State) : Host.Outcome State Fault Refusal :=
  onAccess s
    (.write q (engWindow n + (if shadow then 0x90000 else 0x80000) + offset.toNat) (widthBytes w) v.toNat)

/-- GROUP_WINDOW_WRITE (R181, R182). -/
def execGroupWindowWrite (q : Req) (g : Fin 64) (offset : BitVec 20) (w : Width) (v : BitVec 64) (s : State) : Host.Outcome State Fault Refusal :=
  onAccess s (.write q (0x14000000 + 0x100000 * g.val + offset.toNat) (widthBytes w) v.toNat)

/-- DELAY_HOST_ACCESS (R196 to R198): placed in an idle or a stolen bank cycle. -/
def execDelayHostAccess (q : Req) (addr : BitVec 28) (w : Width) (v : Option (BitVec 64)) (place : Place) (s : State) : Host.Outcome State Fault Refusal :=
  onAccess s (.placed q addr.toNat (widthBytes w) v place)

/-- ALIAS_ATOMIC_ADD (R200): window A adds, unless the group's S_DLY.CTL.ALIAS makes it set bits. -/
def execAliasAtomicAdd (q : Req) (offset : BitVec 26) (w : Width) (v : Word) (s : State) : Host.Outcome State Fault Refusal :=
  onAccess s (.write q (0x4000000 + offset.toNat) (widthBytes w) v.toNat)

/-- ALIAS_ATOMIC_SWAP (R200): window B swaps, unless the group's S_DLY.CTL.ALIAS makes it clear bits. -/
def execAliasAtomicSwap (q : Req) (offset : BitVec 26) (w : Width) (v : Word) (s : State) : Host.Outcome State Fault Refusal :=
  onAccess s (.write q (0x8000000 + offset.toNat) (widthBytes w) v.toNat)

/-- ALIAS_BIT_SET (R200): window A sets bits where the group's S_DLY.CTL.ALIAS says so. -/
def execAliasBitSet (q : Req) (offset : BitVec 26) (w : Width) (v : Word) (s : State) : Host.Outcome State Fault Refusal :=
  onAccess s (.write q (0x4000000 + offset.toNat) (widthBytes w) v.toNat)

/-- ALIAS_BIT_CLEAR (R200): window B clears bits where the group's S_DLY.CTL.ALIAS says so. -/
def execAliasBitClear (q : Req) (offset : BitVec 26) (w : Width) (v : Word) (s : State) : Host.Outcome State Fault Refusal :=
  onAccess s (.write q (0x8000000 + offset.toNat) (widthBytes w) v.toNat)

/-- TAG_VIEW_WRITE (R188). -/
def execTagViewWrite (q : Req) (offset : BitVec 24) (w : Width) (v : Word) (s : State) : Host.Outcome State Fault Refusal :=
  onAccess s (.write q (0xC000000 + offset.toNat) (widthBytes w) v.toNat)

/-- DLY_BANKPWR_WRITE (R209). -/
def execDlyBankpwrWrite (q : Req) (k : Fin 8) (v : Word) (s : State) : Host.Outcome State Fault Refusal :=
  onAccess s (.write q (Adr.DLY_BANKPWR k.val) 4 v.toNat)

/-- BANK_TRANSITION_DONE (R209, R211): `lost` is what changed in the canary cells. -/
def execBankTransitionDone (b : Fin 128) (lost : List (Fin 4 × Cell)) (s : State) : Host.Outcome State Fault Refusal :=
  onDev s (fun d => transitionDone d b lost)

/-- BANK_SWEEP_DONE (R210). -/
def execBankSweepDone (b : Fin 128) (s : State) : Host.Outcome State Fault Refusal :=
  onDev s (fun d => bootProgress (sweepDone d b))

/-- MEMBUSY_N_PULSE_END (R198). -/
def execMembusyNPulseEnd (s : State) : Host.Outcome State Fault Refusal :=
  onDev s (fun d => { d with memBusy := false })

end Sys2Proof.Machine
end

