-- ==== Sys2Proof/Machine/CmdAudio.lean ====
section
/-! DEFINITION. Serial audio ports, rate converters, route, mix and Guard commands (R238 to R294). -/

namespace Sys2Proof.Machine

/-- SAP_FRAME_BOUNDARY (R260, R263, R292, R429): `sent` says that a frame ends, which had `len` bit clocks, an assertion of WHISTLE_N within it zeroed
its slots from `zeroFrom` on, `phase` is the measured phase, and `ready` queued frames entered in time. -/
def execSapFrameBoundary (n : Fin 32) (len phase ready : Nat) (sent : Bool) (zeroFrom : Nat) (s : State) : Host.Outcome State Fault Refusal :=
  onDev s (fun d => sapBoundary d n (if sent then some len else none) phase ready zeroFrom)

/-- SAP_RX_FRAME_END (R260, R264). -/
def execSapRxFrameEnd (n : Fin 32) (len : Nat) (ws : List Word) (s : State) : Host.Outcome State Fault Refusal :=
  onDev s (fun d => sapRxEnd d n len ws)

/-- SAP_CLOCK_LOSS (R260). -/
def execSapClockLoss (n : Fin 32) (s : State) : Host.Outcome State Fault Refusal :=
  onDev s (fun d => sapClockLoss d n)

/-- ASRC_LOCK (R276). -/
def execAsrcLock (u : Fin 8) (ratio : Word) (s : State) : Host.Outcome State Fault Refusal :=
  onDev s (fun d => asrcLock d u ratio)

/-- ASRC_UNLOCK (R276). -/
def execAsrcUnlock (u : Fin 8) (why : Unlock) (ratio : Word) (s : State) : Host.Outcome State Fault Refusal :=
  onDev s (fun d => asrcUnlock d u why ratio)

/-- WHISTLE_ASSERT (R292). -/
def execWhistleAssert (s : State) : Host.Outcome State Fault Refusal :=
  onPins s (fun d => if held d then { d with whistle := true } else whistleAssert d)

/-- WHISTLE_RELEASE (R294). -/
def execWhistleRelease (s : State) : Host.Outcome State Fault Refusal :=
  onPins s (fun d => if held d then { d with whistle := false } else whistleRelease d)

/-- ROUTE_CHG_WRITE (R238). -/
def execRouteChgWrite (q : Req) (v : Word) (s : State) : Host.Outcome State Fault Refusal :=
  onAccess s (.write q Adr.ROUTE_CHG 4 v.toNat)

/-- ROUTE_GO (R239). -/
def execRouteGo (q : Req) (v : Word) (s : State) : Host.Outcome State Fault Refusal :=
  onAccess s (.write q Adr.ROUTE_CTL 4 v.toNat)

/-- ROUTE_DISCARD (R239). -/
def execRouteDiscard (q : Req) (v : Word) (s : State) : Host.Outcome State Fault Refusal :=
  onAccess s (.write q Adr.ROUTE_CTL 4 v.toNat)

/-- ROUTE_BYPSEL_WRITE (R247). -/
def execRouteBypselWrite (q : Req) (v : Word) (s : State) : Host.Outcome State Fault Refusal :=
  onAccess s (.write q Adr.ROUTE_BYPSEL 4 v.toNat)

/-- GEN_SINE_WRITE (R249). -/
def execGenSineWrite (q : Req) (g : Fin 16) (v : BitVec 64) (s : State) : Host.Outcome State Fault Refusal :=
  onAccess s (.pair q (Adr.GEN_SINE g.val) v.toNat)

/-- GEN_NOISE_WRITE (R250). -/
def execGenNoiseWrite (q : Req) (g : Fin 16) (v : BitVec 64) (s : State) : Host.Outcome State Fault Refusal :=
  onAccess s (.pair q (Adr.GEN_NOISE g.val) v.toNat)

/-- MIX_XPCMD_WRITE (R253). -/
def execMixXpcmdWrite (q : Req) (m : Fin 16) (v : BitVec 64) (s : State) : Host.Outcome State Fault Refusal :=
  onAccess s (.pair q (Adr.MIX_XPCMD m.val) v.toNat)

/-- MIX_GO (R253). -/
def execMixGo (q : Req) (m : Fin 16) (v : Word) (s : State) : Host.Outcome State Fault Refusal :=
  onAccess s (.write q (Adr.MIX_CTL m.val) 4 v.toNat)

/-- MIX_DISCARD (R253). -/
def execMixDiscard (q : Req) (m : Fin 16) (v : Word) (s : State) : Host.Outcome State Fault Refusal :=
  onAccess s (.write q (Adr.MIX_CTL m.val) 4 v.toNat)

/-- SAP_UNMUTE (R270). -/
def execSapUnmute (q : Req) (n : Fin 32) (s : State) : Host.Outcome State Fault Refusal :=
  onAccess s (.write q (Adr.SAP_CTL n.val) 4 1)

/-- GUARD_RT_WRITE (R287 to R289). -/
def execGuardRtWrite (q : Req) (addr : Word) (v : Word) (s : State) : Host.Outcome State Fault Refusal :=
  onAccess s (.write q addr.toNat 4 v.toNat)

/-- GUARD_WDREL (R291). -/
def execGuardWdrel (q : Req) (s : State) : Host.Outcome State Fault Refusal :=
  onAccess s (.write q Adr.GUARD_CTL 4 1)

end Sys2Proof.Machine
end

