-- ==== Sys2Proof/Machine/CmdBoot.lean ====
section
/-! DEFINITION. Resets, boot, the secure partition, and live service (R53, R449 to R484, R514). -/

namespace Sys2Proof.Machine

/-- OFF_WAKE_BOOT (R427): `sel` is BOOTSEL as sampled, `a1` the AON count at A1. -/
def execOffWakeBoot (sel : Fin 4) (a1 : Nat) (s : State) : Host.Outcome State Fault Refusal :=
  onDev s (fun d => if d.exiting ∧ d.pstate = .off then bootStart d .offWake sel.val a1 else d)

/-- VDD_AON_POWER_ON (R514, R449, R484): `tamper` says whether TAMPER_N is asserted. With RESET_N low the boot waits for it. -/
def execVddAonPowerOn (sel : Fin 4) (tamper : Bool) (s : State) : Host.Outcome State Fault Refusal :=
  onPins s (fun d =>
    let e := { inReset d .powerOn with powered := true, rstLow := d.rstLow }
    let e := if tamper then Machine.tamper e else e
    if d.rstLow then e else { bootStart e .powerOn sel.val 0 with tampered := tamper })

/-- RESET_N_ASSERT (R53). -/
def execResetNAssert (s : State) : Host.Outcome State Fault Refusal :=
  onPins s (fun d =>
    if d.powered then { inReset d .resetN with rstLow := true } else { d with rstLow := true })

/-- RESET_N_RISE (R449): `sel` is BOOTSEL as sampled. A tamper seen while RESET_N was low stays reported (R484). -/
def execResetNRise (sel : Fin 4) (s : State) : Host.Outcome State Fault Refusal :=
  onPins s (fun d =>
    if d.powered then { bootStart d .resetN sel.val 0 with tampered := d.rstLow && d.tampered } else { d with rstLow := false })

/-- VDD_AON_REMOVAL (R514). -/
def execVddAonRemoval (s : State) : Host.Outcome State Fault Refusal :=
  onPins s (fun d => { inReset d .powerOn with powered := false, rstLow := d.rstLow })

/-- LOAD_BEGIN (R451). -/
def execLoadBegin (s : State) : Host.Outcome State Fault Refusal :=
  onDev s (fun d => loadBegin d)

/-- SLOT_HEADER_READ (R455): the 16 words the flash returned; a pushed header comes from queue 0. -/
def execSlotHeaderRead (slot : Fin 2) (ws : List Word) (s : State) : Host.Outcome State Fault Refusal :=
  onDev s (fun d => headerRead d slot ws)

/-- BLOCK_READ_DONE (R458): the words one read returned, and whether it ended early. -/
def execBlockReadDone (ws : List Word) (early : Bool) (s : State) : Host.Outcome State Fault Refusal :=
  onDev s (fun d => blockReadDone d ws early)

/-- RECORDS_BLOCK (R457). -/
def execRecordsBlock (s : State) : Host.Outcome State Fault Refusal :=
  onDev s (fun d => recordsBlock d)

/-- MEMORY_BLOCK (R457). -/
def execMemoryBlock (s : State) : Host.Outcome State Fault Refusal :=
  onDev s (fun d => memoryBlock d)

/-- START_BLOCK (R457). -/
def execStartBlock (s : State) : Host.Outcome State Fault Refusal :=
  onDev s (fun d => startBlock d)

/-- LOADER_GATE_OPEN (R462). -/
def execLoaderGateOpen (s : State) : Host.Outcome State Fault Refusal :=
  onDev s (fun d => gateOpen d)

/-- HOST_PUSH_TIMEOUT (R466). -/
def execHostPushTimeout (s : State) : Host.Outcome State Fault Refusal :=
  onDev s (fun d => pushTimeout d)

/-- SUB_ARM (R472). -/
def execSubArm (q : Req) (v : BitVec 64) (s : State) : Host.Outcome State Fault Refusal :=
  onAccess s (.pair q Adr.SUB_CMD v.toNat)

/-- SUB_COPY_DONE (R473). -/
def execSubCopyDone (s : State) : Host.Outcome State Fault Refusal :=
  onDev s (fun d => subCopied d)

/-- SUB_ABORT (R477). -/
def execSubAbort (q : Req) (v : Word) (s : State) : Host.Outcome State Fault Refusal :=
  onAccess s (.write q Adr.SUB_CTL 4 v.toNat)

/-- SUB_READMIT (R479). -/
def execSubReadmit (q : Req) (v : Word) (s : State) : Host.Outcome State Fault Refusal :=
  onAccess s (.write q Adr.SUB_CTL 4 v.toNat)

/-- FSPI_XCMD_GO (R480). -/
def execFspiXcmdGo (q : Req) (v : Word) (s : State) : Host.Outcome State Fault Refusal :=
  onAccess s (.write q Adr.FSPI_XCMD 4 v.toNat)

/-- FSPI_COMMAND_DONE (R480): the bytes the flash returned. -/
def execFspiCommandDone (bytes : List (BitVec 8)) (s : State) : Host.Outcome State Fault Refusal :=
  onDev s (fun d => fspiDone d bytes)

/-- BOOT_ACT_GO (R481). -/
def execBootActGo (q : Req) (v : Word) (s : State) : Host.Outcome State Fault Refusal :=
  onAccess s (.write q Adr.BOOT_ACT 4 v.toNat)

/-- PARTITION_WRITE (R482). -/
def execPartitionWrite (q : Req) (offset : BitVec 16) (v : Word) (s : State) : Host.Outcome State Fault Refusal :=
  onAccess s (.write q (0x1E000000 + offset.toNat / 4 * 4) 4 v.toNat)

/-- LC_ADVANCE_WRITE (R483). -/
def execLcAdvanceWrite (q : Req) (v : Word) (s : State) : Host.Outcome State Fault Refusal :=
  onAccess s (.write q Adr.LC_ADVANCE 4 v.toNat)

/-- TAMPER_ASSERT (R484). -/
def execTamperAssert (s : State) : Host.Outcome State Fault Refusal :=
  onPins s (fun d => tamper d)

/-- PARTITION_WIPE_DONE (R484). -/
def execPartitionWipeDone (s : State) : Host.Outcome State Fault Refusal :=
  onPins s (fun d => wipeDone d)

end Sys2Proof.Machine
end

