-- ==== Sys2Proof/Machine/CmdClock.lean ====
section
/-! DEFINITION. PLLs, handovers and time (R298 to R321). -/

namespace Sys2Proof.Machine

/-- CLK_MTGT_WRITE (R305). -/
def execClkMtgtWrite (q : Req) (m : Fin 4) (v : Word) (s : State) : Host.Outcome State Fault Refusal :=
  onAccess s (.write q (Adr.CLK_MTGT m.val) 4 v.toNat)

/-- CLK_MCTL_WRITE (R305). -/
def execClkMctlWrite (q : Req) (m : Fin 4) (v : Word) (s : State) : Host.Outcome State Fault Refusal :=
  onAccess s (.write q (Adr.CLK_MCTL m.val) 4 v.toNat)

/-- HANDOVER_ARM (R19, R306): the write with its handshake completed. -/
def execHandoverArm (q : Req) (k : Fin 4) (v : BitVec 64) (s : State) : Host.Outcome State Fault Refusal :=
  onAccess s (.mediaPair q (Adr.CLK_HO k.val) v.toNat)

/-- PLL_LOCK (R298). -/
def execPllLock (j : Fin 6) (s : State) : Host.Outcome State Fault Refusal :=
  onDev s (fun d => bootProgress (pllLock d j.val))

/-- PLL_LOCK_TIMEOUT (R298). -/
def execPllLockTimeout (j : Fin 6) (s : State) : Host.Outcome State Fault Refusal :=
  onDev s (fun d => pllTimeout d j.val)

/-- PLL_LOSS_OF_LOCK (R300). -/
def execPllLossOfLock (j : Fin 6) (s : State) : Host.Outcome State Fault Refusal :=
  onDev s (fun d => pllLose d j.val)

/-- TIME_STEP_WRITE (R19, R315): the write with its handshake completed. -/
def execTimeStepWrite (q : Req) (v : BitVec 64) (s : State) : Host.Outcome State Fault Refusal :=
  onAccess s (.mediaPair q Adr.TIME_STEP v.toNat)

/-- TIME_CTL_WRITE (R19, R313): the write with its handshake completed. -/
def execTimeCtlWrite (q : Req) (v : Word) (s : State) : Host.Outcome State Fault Refusal :=
  onAccess s (.mediaWrite q Adr.TIME_CTL v.toNat)

/-- TIME_FREQ_WRITE (R19, R316): the write with its handshake completed. -/
def execTimeFreqWrite (q : Req) (v : Word) (s : State) : Host.Outcome State Fault Refusal :=
  onAccess s (.mediaWrite q Adr.TIME_FREQ v.toNat)

/-- PPS_IN_EDGE (R311, R312), with its timestamp. -/
def execPpsInEdge (ts : Nat) (s : State) : Host.Outcome State Fault Refusal :=
  onDev s (fun d => ppsEdge d ts)

/-- WCLK_IN_EDGE (R311, R312), with its timestamp. -/
def execWclkInEdge (pin : Fin 2) (ts : Nat) (s : State) : Host.Outcome State Fault Refusal :=
  onDev s (fun d => wclkEdge d pin.val ts)

/-- HOLDOVER_TIMEOUT (R313): in LOCKED, no event for 1.5 intervals. -/
def execHoldoverTimeout (s : State) : Host.Outcome State Fault Refusal :=
  onDev s (fun d => holdoverTimeout d)

/-- AON_CALIBRATION_WINDOW (R321). -/
def execAonCalibrationWindow (s : State) : Host.Outcome State Fault Refusal :=
  onDev s (fun d => calWindow d)

/-- PPS_OUT_PULSE (R318): the rising edge of a whole second. -/
def execPpsOutPulse (s : State) : Host.Outcome State Fault Refusal :=
  onDev s (fun d => ppsPulse d)

/-- PPS_OUT_FALL (R318). -/
def execPpsOutFall (s : State) : Host.Outcome State Fault Refusal :=
  onDev s (fun d => ppsFall d)

end Sys2Proof.Machine
end

