-- ==== Sys2Proof/Machine/CmdEvent.lean ====
section
/-! DEFINITION. Watchdog, control-core, Scoreboard and queue commands (R18, R376, R382 to R402). -/

namespace Sys2Proof.Machine

/-- WDOG_KICK_WRITE (R382). -/
def execWdogKickWrite (q : Req) (v : Word) (s : State) : Host.Outcome State Fault Refusal :=
  onAccess s (.write q Adr.WDOG_KICK 4 v.toNat)

/-- WDOG_CTL_WRITE (R382). -/
def execWdogCtlWrite (q : Req) (v : Word) (s : State) : Host.Outcome State Fault Refusal :=
  onAccess s (.write q Adr.WDOG_CTL 4 v.toNat)

/-- WATCHDOG_EXPIRY (R290, R382). -/
def execWatchdogExpiry (s : State) : Host.Outcome State Fault Refusal :=
  onDev s (fun d => wdExpire d)

/-- CC_RUN (R376). -/
def execCcRun (q : Req) (c : Fin 4) (s : State) : Host.Outcome State Fault Refusal :=
  onAccess s (.write q (Adr.CC_CTL c.val) 4 1)

/-- CC_RESET (R376). -/
def execCcReset (q : Req) (c : Fin 4) (s : State) : Host.Outcome State Fault Refusal :=
  onAccess s (.write q (Adr.CC_CTL c.val) 4 2)

/-- EVT_SWTRIG_WRITE (R384). -/
def execEvtSwtrigWrite (q : Req) (v : Word) (s : State) : Host.Outcome State Fault Refusal :=
  onAccess s (.write q Adr.EVT_SWTRIG 4 v.toNat)

/-- EVT_ROUTE_WRITE (R385). -/
def execEvtRouteWrite (q : Req) (e : Fin 512) (v : Word) (s : State) : Host.Outcome State Fault Refusal :=
  onAccess s (.write q (Adr.EVT_ROUTE e.val) 4 v.toNat)

/-- EVT_MSIXACK_WRITE (R386). -/
def execEvtMsixackWrite (q : Req) (v : Word) (s : State) : Host.Outcome State Fault Refusal :=
  onAccess s (.write q Adr.EVT_MSIXACK 4 v.toNat)

/-- EVENT_DELIVERY (R18). -/
def execEventDelivery (e : Fin 512) (s : State) : Host.Outcome State Fault Refusal :=
  onDev s (fun d => eventDelivery d e.val)

/-- QUE_PORT_READ (R393). -/
def execQuePortRead (q : Req) (k : Fin 256) (s : State) : Host.Outcome State Fault Refusal :=
  onAccess s (.read q (Adr.QUE_PORT k.val) 4)

/-- QUE_PORT_WRITE (R393): the high half, which pushes the held payload. -/
def execQuePortWrite (q : Req) (k : Fin 256) (v : Word) (s : State) : Host.Outcome State Fault Refusal :=
  onAccess s (.write q (Adr.QUE_PORT k.val + 4) 4 v.toNat)

/-- QUE_PUSH_WRITE (R21). -/
def execQuePushWrite (q : Req) (k : Fin 256) (v : Word) (s : State) : Host.Outcome State Fault Refusal :=
  onAccess s (.write q (Adr.QUE_PUSH k.val) 4 v.toNat)

/-- QUE_FLUSH (R402). -/
def execQueFlush (q : Req) (v : Word) (s : State) : Host.Outcome State Fault Refusal :=
  onAccess s (.write q Adr.QUE_CTL 4 v.toNat)

/-- QUEUE_CROSSING_ENTRY (R395). -/
def execQueueCrossingEntry (k : Fin 256) (s : State) : Host.Outcome State Fault Refusal :=
  onDev s (fun d => queArrive d k)

end Sys2Proof.Machine
end

