-- ==== Sys2Proof/Machine/CmdHost.lean ====
section
/-! DEFINITION. HSPI, CSPI, the PCIe endpoint and GPIO (R486 to R507). -/

namespace Sys2Proof.Machine

/-- HSPI_WRITE (R490). -/
def execHspiWrite (bits : Nat) (addr : Word) (ws : List Word) (s : State) : Host.Outcome State Fault Refusal :=
  onDev s (fun d => hspiWrite d bits addr ws)

/-- HSPI_READ (R491). -/
def execHspiRead (bits : Nat) (addr : Word) (onTime : List Bool) (s : State) : Host.Outcome State Fault Refusal :=
  onDev s (fun d => hspiRead d bits addr onTime)

/-- HSPI_STATUS (R488). -/
def execHspiStatus (bits : Nat) (addr : Word) (s : State) : Host.Outcome State Fault Refusal :=
  onDev s (fun d => hspiStatus d bits addr)

/-- HSPI_QREAD (R492). -/
def execHspiQread (bits : Nat) (addr : Word) (s : State) : Host.Outcome State Fault Refusal :=
  onDev s (fun d => hspiQread d bits addr)

/-- HSPI_FETCH (R492). -/
def execHspiFetch (bits : Nat) (addr : Word) (s : State) : Host.Outcome State Fault Refusal :=
  onDev s (fun d => hspiFetch d bits addr)

/-- HSPI_RESERVED_FRAME (R490). -/
def execHspiReservedFrame (bits : Nat) (addr : Word) (s : State) : Host.Outcome State Fault Refusal :=
  onDev s (fun d => hspiReserved d bits addr)

/-- HSPI_POSTED_ACCESS (R490, R492). -/
def execHspiPostedAccess (s : State) : Host.Outcome State Fault Refusal :=
  onBus s (fun d => hspiPosted d)

/-- CSPI_GO (R495). -/
def execCspiGo (q : Req) (v : Word) (s : State) : Host.Outcome State Fault Refusal :=
  onAccess s (.write q Adr.CSPI_CMD 4 v.toNat)

/-- CSPI_DONE (R496): the words the selected part returned. -/
def execCspiDone (rx : List Word) (s : State) : Host.Outcome State Fault Refusal :=
  onBus s (fun d => cspiDone d rx)

/-- CSPI_TX_WRITE (R498). -/
def execCspiTxWrite (q : Req) (v : Word) (s : State) : Host.Outcome State Fault Refusal :=
  onAccess s (.write q Adr.CSPI_TX 4 v.toNat)

/-- CSPI_RX_READ (R498). -/
def execCspiRxRead (q : Req) (s : State) : Host.Outcome State Fault Refusal :=
  onAccess s (.read q Adr.CSPI_RX 4)

/-- PCIE_MEMORY_WRITE (R500). -/
def execPcieMemoryWrite (addr : Word) (ws : List (Word × BitVec 4)) (s : State) : Host.Outcome State Fault Refusal :=
  onAccess s (.pcieWrite addr ws)

/-- PCIE_MEMORY_READ (R500). -/
def execPcieMemoryRead (addr : Word) (len : Nat) (s : State) : Host.Outcome State Fault Refusal :=
  onAccess s (.pcieRead addr len)

/-- PCIE_UNSUPPORTED_REQUEST (R500). -/
def execPcieUnsupportedRequest (s : State) : Host.Outcome State Fault Refusal :=
  onDev s (fun d => pcieUnsupported d)

/-- PCIE_POISONED_WRITE (R500). -/
def execPciePoisonedWrite (s : State) : Host.Outcome State Fault Refusal :=
  onDev s (fun d => pciePoisoned d)

/-- PCIE_LINK_CHANGE (R502). -/
def execPcieLinkChange (up : Bool) (speed width pstate : BitVec 2) (s : State) : Host.Outcome State Fault Refusal :=
  onDev s (fun d => pcieLink d up speed width pstate)

/-- PCIE_CONFIGURATION_REQUEST (R502). -/
def execPcieConfigurationRequest (c : PcieCfg) (s : State) : Host.Outcome State Fault Refusal :=
  onDev s (fun d => pcieConfig d c)

/-- GPIO_INPUT_CHANGE (R507). -/
def execGpioInputChange (k : Fin 32) (level : Bool) (s : State) : Host.Outcome State Fault Refusal :=
  onPins s (fun d => gpioChange d k level)

end Sys2Proof.Machine
end

