-- ==== Sys2Proof/Machine/CmdLink.lean ====
section
/-! DEFINITION. Lyath links and the fabric network (R323 to R369). -/

namespace Sys2Proof.Machine

/-- LINK_SIGNAL_DETECT (R324). -/
def execLinkSignalDetect (n : Fin 8) (s : State) : Host.Outcome State Fault Refusal :=
  onDev s (fun d => linkSignal d n)

/-- CDR_LOCK (R324). -/
def execCdrLock (n : Fin 8) (s : State) : Host.Outcome State Fault Refusal :=
  onDev s (fun d => linkCdr d n)

/-- BLOCK_LOCK (R324). -/
def execBlockLock (n : Fin 8) (s : State) : Host.Outcome State Fault Refusal :=
  onDev s (fun d => linkBlock d n)

/-- RATE_CHANGE_DONE (R324). -/
def execRateChangeDone (n : Fin 8) (s : State) : Host.Outcome State Fault Refusal :=
  onDev s (fun d => linkRated d n)

/-- RATE_FALLBACK (R327). -/
def execRateFallback (n : Fin 8) (s : State) : Host.Outcome State Fault Refusal :=
  onDev s (fun d => linkFallback d n)

/-- LINK_TRAIN_TIMEOUT (R327). -/
def execLinkTrainTimeout (n : Fin 8) (s : State) : Host.Outcome State Fault Refusal :=
  onDev s (fun d => linkTimeout d n)

/-- TS2_SENT (R324). -/
def execTs2Sent (n : Fin 8) (s : State) : Host.Outcome State Fault Refusal :=
  onDev s (fun d => linkTs2 d n)

/-- TRAINING_SET_RX (R323, R325, R326). -/
def execTrainingSetRx (n : Fin 8) (d1 d2 d3 : BitVec 8) (s : State) : Host.Outcome State Fault Refusal :=
  onDev s (fun d => linkSet d n d1.toNat d2.toNat d3.toNat)

/-- LINK_HIBER (R324, R345). -/
def execLinkHiber (n : Fin 8) (lockLoss : Bool) (s : State) : Host.Outcome State Fault Refusal :=
  onDev s (fun d => linkHiber d n lockLoss)

/-- LINK_RETRAIN (R327). -/
def execLinkRetrain (q : Req) (n : Fin 8) (v : Word) (s : State) : Host.Outcome State Fault Refusal :=
  onAccess s (.write q (Adr.LINK_CTL n.val) 4 v.toNat)

/-- LYATH_FRAME_RX (R345): the blocks the lane carried, as received, with the stamp of a start block among them. -/
def execLyathFrameRx (n : Fin 8) (bs : List Block66) (rxtod : Nat) (s : State) : Host.Outcome State Fault Refusal :=
  onDev s (fun d => lyathRx d n bs rxtod)

/-- LINK_MAPDATA_WRITE (R341). -/
def execLinkMapdataWrite (q : Req) (n : Fin 8) (v : Word) (s : State) : Host.Outcome State Fault Refusal :=
  onAccess s (.write q (Adr.LINK_MAPDATA n.val) 4 v.toNat)

/-- HELLO (R353): the oldest cell received on the link, if it is of this type. -/
def execHello (n : Fin 8) (s : State) : Host.Outcome State Fault Refusal :=
  onDev s (fun d => helloCell d n)

/-- LSA (R355): the oldest cell received on the link, if it is of this type. -/
def execLsa (n : Fin 8) (s : State) : Host.Outcome State Fault Refusal :=
  onDev s (fun d => lsaCell d n)

/-- CAPTAIN (R358): the oldest cell received on the link, if it is of this type. -/
def execCaptain (n : Fin 8) (s : State) : Host.Outcome State Fault Refusal :=
  onDev s (fun d => captainCell d n)

/-- GRANT (R360): the oldest cell received on the link, if it is of this type. -/
def execGrant (n : Fin 8) (s : State) : Host.Outcome State Fault Refusal :=
  onDev s (fun d => grantCell d n)

/-- RUN_REQ (R362): the oldest cell received on the link, if it is of this type. -/
def execRunReq (n : Fin 8) (s : State) : Host.Outcome State Fault Refusal :=
  onDev s (fun d => runReqCell d n)

/-- RUN_ACK (R363): the oldest cell received on the link, if it is of this type. -/
def execRunAck (n : Fin 8) (s : State) : Host.Outcome State Fault Refusal :=
  onDev s (fun d => runAckCell d n)

/-- RUN_NAK (R364): the oldest cell received on the link, if it is of this type. -/
def execRunNak (n : Fin 8) (s : State) : Host.Outcome State Fault Refusal :=
  onDev s (fun d => runNakCell d n)

/-- RUN_TEAR (R364): the oldest cell received on the link, if it is of this type. -/
def execRunTear (n : Fin 8) (s : State) : Host.Outcome State Fault Refusal :=
  onDev s (fun d => runTearCell d n)

/-- USER (R366): the oldest cell received on the link, if it is of this type. -/
def execUser (n : Fin 8) (s : State) : Host.Outcome State Fault Refusal :=
  onDev s (fun d => userCell d n)

/-- FAB_REJOIN (R350). -/
def execFabRejoin (q : Req) (v : Word) (s : State) : Host.Outcome State Fault Refusal :=
  onAccess s (.write q Adr.FAB_CTL 4 v.toNat)

/-- ISOLATED_REJOIN (R350). -/
def execIsolatedRejoin (s : State) : Host.Outcome State Fault Refusal :=
  onDev s (fun d => isolatedRejoin d)

/-- ADJACENCY_DEAD (R354). -/
def execAdjacencyDead (n : Fin 8) (s : State) : Host.Outcome State Fault Refusal :=
  onDev s (fun d => adjacencyDead d n)

/-- HELLO_KEEPALIVE (R354). -/
def execHelloKeepalive (n : Fin 8) (s : State) : Host.Outcome State Fault Refusal :=
  onDev s (fun d => helloKeepalive d n)

/-- END_OF_QUIET (R356, R358). -/
def execEndOfQuiet (s : State) : Host.Outcome State Fault Refusal :=
  onDev s (fun d => endOfQuiet d)

/-- GRANT_DEADLINE (R360). -/
def execGrantDeadline (s : State) : Host.Outcome State Fault Refusal :=
  onDev s (fun d => grantDeadline d)

/-- TOMBSTONE_CREATE (R352). -/
def execTombstoneCreate (uid : BitVec 64) (s : State) : Host.Outcome State Fault Refusal :=
  onDev s (fun d => tombCreate d uid.toNat)

/-- TOMBSTONE_EXPIRY (R352). -/
def execTombstoneExpiry (uid : BitVec 64) (s : State) : Host.Outcome State Fault Refusal :=
  onDev s (fun d => tombExpire d uid.toNat)

/-- LSA_REFLOOD (R349). -/
def execLsaReflood (s : State) : Host.Outcome State Fault Refusal :=
  onDev s (fun d => lsaReflood d)

/-- RUN_SETUP (R361). -/
def execRunSetup (q : Req) (v : BitVec 64) (s : State) : Host.Outcome State Fault Refusal :=
  onAccess s (.pair q Adr.FAB_RUNCMD v.toNat)

/-- RUN_TEARDOWN (R361). -/
def execRunTeardown (q : Req) (v : BitVec 64) (s : State) : Host.Outcome State Fault Refusal :=
  onAccess s (.pair q Adr.FAB_RUNCMD v.toNat)

/-- RUN_TIMEOUT (R364). -/
def execRunTimeout (r : BitVec 8) (s : State) : Host.Outcome State Fault Refusal :=
  onDev s (fun d => runTimeout d r.toNat)

/-- FABRIC_GATE_OPEN (R369). -/
def execFabricGateOpen (s : State) : Host.Outcome State Fault Refusal :=
  onDev s (fun d => fabGateOpen d)

end Sys2Proof.Machine
end

