-- ==== Sys2Proof/Machine/CmdLoad.lean ====
section
/-! DEFINITION. Structure records, commanded loads and queue 0 (R60 to R92). -/

namespace Sys2Proof.Machine

/-- WRITE_RECORD (R60): the next record of a load path, if it is of this type or of an undefined one, which is rejected; `ws` are words a flash source supplies. -/
def execWriteRecord (path : Fin 3) (ws : List Word) (s : State) : Host.Outcome State Fault Refusal :=
  onDev s (fun d => recordRow d path ws (fun t => decide (t = 1 ∨ t = 0 ∨ 6 < t)))

/-- FILL_RECORD (R61): the next record of a load path, if it is of this type; `ws` are words a flash source supplies. -/
def execFillRecord (path : Fin 3) (ws : List Word) (s : State) : Host.Outcome State Fault Refusal :=
  onDev s (fun d => recordRow d path ws (fun t => decide (t = 2)))

/-- TABLE_RECORD (R64): the next record of a load path, if it is of this type; `ws` are words a flash source supplies. -/
def execTableRecord (path : Fin 3) (ws : List Word) (s : State) : Host.Outcome State Fault Refusal :=
  onDev s (fun d => recordRow d path ws (fun t => decide (t = 3)))

/-- PROGRAM_RECORD (R64): the next record of a load path, if it is of this type; `ws` are words a flash source supplies. -/
def execProgramRecord (path : Fin 3) (ws : List Word) (s : State) : Host.Outcome State Fault Refusal :=
  onDev s (fun d => recordRow d path ws (fun t => decide (t = 4)))

/-- COMMIT_RECORD (R72): the next record of a load path, if it is of this type; `ws` are words a flash source supplies. -/
def execCommitRecord (path : Fin 3) (ws : List Word) (s : State) : Host.Outcome State Fault Refusal :=
  onDev s (fun d => recordRow d path ws (fun t => decide (t = 5)))

/-- END_RECORD (R74): the next record of a load path, if it is of this type; `ws` are words a flash source supplies. -/
def execEndRecord (path : Fin 3) (ws : List Word) (s : State) : Host.Outcome State Fault Refusal :=
  onDev s (fun d => recordRow d path ws (fun t => decide (t = 6)))

/-- REGION_QUIESCED (R83). -/
def execRegionQuiesced (r : BitVec 12) (s : State) : Host.Outcome State Fault Refusal :=
  onDev s (fun d => regionQuiesced d r.toNat)

/-- LDR_GO (R90). -/
def execLdrGo (q : Req) (v : Word) (s : State) : Host.Outcome State Fault Refusal :=
  onAccess s (.write q Adr.LDR_CTL 4 v.toNat)

/-- LDR_ABORT (R74). -/
def execLdrAbort (q : Req) (v : Word) (s : State) : Host.Outcome State Fault Refusal :=
  onAccess s (.write q Adr.LDR_CTL 4 v.toNat)

/-- COMMANDED_LOAD_END (R75). -/
def execCommandedLoadEnd (s : State) : Host.Outcome State Fault Refusal :=
  onDev s (fun d => loadEnd d)

/-- QUEUE0_GAP_TIMEOUT (R87, R466). -/
def execQueue0GapTimeout (s : State) : Host.Outcome State Fault Refusal :=
  onDev s (fun d => pushGap (gapTimeout d))

end Sys2Proof.Machine
end

