-- ==== Sys2Proof/Machine/CmdPower.lean ====
section
/-! DEFINITION. The Coach, operating points, power states and domains (R405 to R446). -/

namespace Sys2Proof.Machine

/-- Everything HSPI has posted is carried out, `n` operations at most. -/
def hspiDrainN : Nat → Device → Device
  | 0, d => d
  | n + 1, d => hspiDrainN n (hspiPosted d)

/-- Everything HSPI has posted before an entry's commit point is carried out (R416, step 3). -/
def hspiDrain (d : Device) : Device := if d.entry.isSome then hspiDrainN d.hspiOps.length d else d

/-- COACH_DECISION (R442): `link` counts the blocks of links that are UP, `sap` the bit clocks of running ports. -/
def execCoachDecision (link sap : Nat) (s : State) : Host.Outcome State Fault Refusal :=
  onDev s (fun d => coachDecide d link sap)

/-- THERMAL_SENSOR_CONVERSION (R439): the twelve readings. -/
def execThermalSensorConversion (raw : List Int) (s : State) : Host.Outcome State Fault Refusal :=
  onDev s (fun d => thermalConvert d raw)

/-- DVFS_OPP_REQUEST (R432). -/
def execDvfsOppRequest (q : Req) (level : BitVec 2) (s : State) : Host.Outcome State Fault Refusal :=
  onAccess s (.write q Adr.PWR_DVFSREQ 4 (level.toNat + 16 * 0 + 256))

/-- DVFS_VOLTAGE_REQUEST (R432). -/
def execDvfsVoltageRequest (q : Req) (level : BitVec 2) (s : State) : Host.Outcome State Fault Refusal :=
  onAccess s (.write q Adr.PWR_DVFSREQ 4 (level.toNat + 16 * 1 + 256))

/-- DVFS_FREQUENCY_REQUEST (R432). -/
def execDvfsFrequencyRequest (q : Req) (level : BitVec 2) (s : State) : Host.Outcome State Fault Refusal :=
  onAccess s (.write q Adr.PWR_DVFSREQ 4 (level.toNat + 16 * 2 + 256))

/-- VOLTAGE_CONFIRM (R433): a READ_VOUT in mV. -/
def execVoltageConfirm (mv : Nat) (s : State) : Host.Outcome State Fault Refusal :=
  onDev s (fun d => voltageRead d mv)

/-- VOLTAGE_STEP_FAIL (R434), with the STATUS_WORD then read. -/
def execVoltageStepFail (why : VFail) (status : BitVec 16) (s : State) : Host.Outcome State Fault Refusal :=
  onDev s (fun d => voltageFail d why status.toNat)

/-- PWR_MODE_WRITE (R409, R410). -/
def execPwrModeWrite (q : Req) (v : Word) (s : State) : Host.Outcome State Fault Refusal :=
  onAccess s (.write q Adr.PWR_MODE 4 v.toNat)

/-- PWR_VOTE_WRITE (R408, R409). -/
def execPwrVoteWrite (q : Req) (k : Fin 32) (v : Word) (s : State) : Host.Outcome State Fault Refusal :=
  onAccess s (.write q (Adr.PWR_VOTE k.val) 4 v.toNat)

/-- DOMAIN_IDLE_TIMEOUT (R410). -/
def execDomainIdleTimeout (n : Fin 13) (s : State) : Host.Outcome State Fault Refusal :=
  onDev s (fun d => domainIdle d n.val)

/-- DOMAIN_DOWN_TIMEOUT (R410). -/
def execDomainDownTimeout (n : Fin 13) (s : State) : Host.Outcome State Fault Refusal :=
  onDev s (fun d => domainDown d n.val)

/-- DOMAIN_WAKE_DONE (R406, R410): a domain that is held and was not ON is; an access wakes its domain by itself. -/
def execDomainWakeDone (n : Fin 13) (s : State) : Host.Outcome State Fault Refusal :=
  onDev s (fun d => if domHeld d n.val then domainWake d n.val else d)

/-- PWR_ENTER (R414, R415). -/
def execPwrEnter (q : Req) (v : Word) (s : State) : Host.Outcome State Fault Refusal :=
  onAccess s (.write q Adr.PWR_CTL 4 v.toNat)

/-- DEVICE_TIMER_EXPIRY (R414). -/
def execDeviceTimerExpiry (s : State) : Host.Outcome State Fault Refusal :=
  onDev s (fun d => deviceTimer d)

/-- ENTRY_COMMIT_POINT (R416): what HSPI has posted is carried out, and the entry completes; `a0` is the AON count at A0. -/
def execEntryCommitPoint (a0 : Nat) (s : State) : Host.Outcome State Fault Refusal :=
  onDev s (fun d => entryCommit (hspiDrain d) a0)

/-- WAKE_N_ASSERT (R421). -/
def execWakeNAssert (s : State) : Host.Outcome State Fault Refusal :=
  onDev s (fun d => wakePin d)

/-- SENSE_CROSSING (R422): a sample of an input, in mV. -/
def execSenseCrossing (k : Fin 4) (mv : Nat) (s : State) : Host.Outcome State Fault Refusal :=
  onDev s (fun d => senseCrossing d k mv)

/-- LINK_SQUELCH_WAKE (R421). -/
def execLinkSquelchWake (n : Fin 8) (s : State) : Host.Outcome State Fault Refusal :=
  onDev s (fun d => squelchWake d n)

/-- HSPI_CS_WAKE (R421, R493). -/
def execHspiCsWake (s : State) : Host.Outcome State Fault Refusal :=
  onDev s (fun d => hostWake d)

/-- PCIE_L1_EXIT (R421). -/
def execPcieL1Exit (s : State) : Host.Outcome State Fault Refusal :=
  onDev s (fun d => if hasPcie d then hostWake d else d)

/-- PERST_N_RISE (R421, R502). -/
def execPerstNRise (s : State) : Host.Outcome State Fault Refusal :=
  onPins s (fun d => if held d then { d with perst := true } else perstRise d)

/-- PERST_N_FALL (R502). -/
def execPerstNFall (s : State) : Host.Outcome State Fault Refusal :=
  onPins s (fun d => if held d then { d with perst := false } else perstFall d)

/-- AON_ALARM (R423): the AON edge at which the alarm fires. -/
def execAonAlarm (s : State) : Host.Outcome State Fault Refusal :=
  onDev s (fun d => aonAlarm d)

/-- PMB_ALERT (R435): the pin is asserted, with the STATUS_WORD then read, or released. -/
def execPmbAlert (status : Option (BitVec 16)) (s : State) : Host.Outcome State Fault Refusal :=
  onDev s (fun d => pmbAlert d (status.map BitVec.toNat))

/-- EXIT_COMPLETE (R425, R426): `a1` is the AON count at A1, `lost` what changed in canary cells.
The accesses that stalled are carried out (R411). -/
def execExitComplete (a1 : Nat) (lost : List (Fin 128 × Fin 4 × Cell)) (s : State) : Host.Outcome State Fault Refusal :=
  onDev s (fun d => runStalled (exitComplete d a1 lost))

/-- PAD_RELEASE (R429). -/
def execPadRelease (q : Req) (v : BitVec 64) (s : State) : Host.Outcome State Fault Refusal :=
  onAccess s (.pair q Adr.PWR_PADREL v.toNat)

end Sys2Proof.Machine
end

