-- ==== Sys2Proof/Machine/CmdRally.lean ====
section
/-! DEFINITION. Kickoffs, rallies and frame resolution (R159, R166, R169, R234, R303, R306). -/

namespace Sys2Proof.Machine

/-- KICKOFF_MARK (R303, R306, R307). -/
def execKickoffMark (k : Fin 4) (m : KoMark) (s : State) : Host.Outcome State Fault Refusal :=
  onDev s (fun d =>
    match m with
    | .main => kickoffMark d k
    | .shadow within => shadowMark d k within)

/-- ENGINE_KICKOFF (R159, R166). -/
def execEngineKickoff (k : Fin 4) (s : State) : Host.Outcome State Fault Refusal :=
  onDev s (fun d => engineKickoff d k)

/-- OVERRUN_LEN (R169). -/
def execOverrunLen (n : Fin 64) (s : State) : Host.Outcome State Fault Refusal :=
  onDev s (fun d => overrunLen d (engProc n))

/-- RALLY_START (R166): the overhead cycles, certainly idle for the domain's banks, have placed what waits there (R199). -/
def execRallyStart (k : Fin 4) (s : State) : Host.Outcome State Fault Refusal :=
  onDev s (fun d => rallyStart (serveAll d) k)

/-- FRAME_RESOLVE (R234, R335): `tods` gives the time of day at which each link's start block leaves. -/
def execFrameResolve (k : Fin 4) (tods : List Nat) (s : State) : Host.Outcome State Fault Refusal :=
  onDev s (fun d => frameResolve d k tods)

/-- The device on an empty queue (R196, R310, R382). -/
def idleStep (d : Device) : Device := serveAll (idleEdge d)

end Sys2Proof.Machine
end

