-- ==== Sys2Proof/Machine/EngineAlu.lean ====
section
/-! DEFINITION. Moves, tags and arithmetic of the engine instruction set (R127 to R146), by the tables of the
operations chapter. -/

namespace Sys2Proof.Machine

/-! ### Shared operations -/

/-- Whether the form is defined where it stands: a short operation names D registers (R120). -/
def shortOk (i : Issue) (gs : List GReg) : Bool := decide (i.slot = .long) || gs.all isD

/-- An operation with two counted operands (R130, R132, R133): `f` is the exact result, narrowed. -/
def alu2 (i : Issue) (ok : Bool) (rule : KindRule) (gd ga : GReg) (b : Src) (f : Int → Int → Narrowed) (d : Device) : Device :=
  withWord i ok true d (fun d =>
    let w := srcWork d i
    let x := readG w ga
    let y := readSrc w b
    putResult d i.who gd (f x.p.int y.p.int) (tag2 (ag d i.who).chk rule x.t y.t))

/-- An operation with one counted operand, whose kind and rank it keeps (R133). -/
def alu1 (i : Issue) (ok : Bool) (gd ga : GReg) (f : Int → Narrowed) (d : Device) : Device :=
  withWord i ok true d (fun d =>
    let x := readG (srcWork d i) ga
    putResult d i.who gd (f x.p.int) (x.t, false))

/-- A comparison (R144): 0 or 1, with kind INT and the rank of the operands. -/
def aluCmp (i : Issue) (ok : Bool) (gd ga : GReg) (b : Src) (f : Int → Int → Bool) (d : Device) : Device :=
  withWord i ok true d (fun d =>
    let w := srcWork d i
    let x := readG w ga
    let y := readSrc w b
    putResult d i.who gd (exact (if f x.p.int y.p.int then 1 else 0)) (tagCmp x.t y.t, false))

/-- A logical operation on the bits of two payloads. -/
def aluBits (i : Issue) (ok : Bool) (gd ga gb : GReg) (f : Word → Word → Word) (d : Device) : Device :=
  withWord i ok true d (fun d =>
    let w := srcWork d i
    let x := readG w ga
    let y := readG w gb
    putResult d i.who gd (exact (f x.p y.p).toInt) (tag2 (ag d i.who).chk .logic x.t y.t))

/-- A shift (R145): the count is not a counted operand. -/
def aluShift (i : Issue) (gd ga : GReg) (k : Count) (f : Word → Int → Narrowed) (d : Device) : Device :=
  let ok := shortOk i [gd, ga] && (decide (i.slot = .long) || (match k with | .imm _ => true | .reg _ => false))
  withWord i ok true d (fun d =>
    let w := srcWork d i
    let x := readG w ga
    putResult d i.who gd (f x.p (readCount w k)) (x.t, false))

/-- A division (R146): the operands are read at issue, the result is written in the last of its 18 cycles. -/
def startDiv (i : Issue) (frac s : Bool) (gd ga gb : GReg) (d : Device) : Device :=
  withWord i (decide (i.slot = .long)) false d (fun d =>
    let w := srcWork d i
    let x := readG w ga
    let y := readG w gb
    let q := divide frac s x.p.int y.p.int
    let t := tag2 (ag d i.who).chk .mul x.t y.t
    let e := ag d i.who
    setAg d i.who { e with
      cyc := e.cur + 18
      div := some ⟨gd, ⟨BitVec.ofInt 32 q.n.r, t.1⟩, q.dz, q.n.v, q.n.sat, t.2, e.cur + 17⟩ })

/-! ### Moves and tags -/

/-- NOP (R119). -/
def execNop (i : Issue) (s : State) : Host.Outcome State Fault Refusal :=
  onDev s (fun d => withWord i true true d (fun d => d))

/-- MOV: GD ← GA with its tag (R127, R128). -/
def execMov (i : Issue) (gd ga : GReg) (s : State) : Host.Outcome State Fault Refusal :=
  onDev s (fun d => withWord i (shortOk i [gd, ga]) true d (fun d => wrReg d i.who gd (readG (srcWork d i) ga)))

/-- MOVI: GD ← the immediate with tag KIND; the short form sign-extends IMM16 with kind INT (R144). -/
def execMovi (i : Issue) (gd : GReg) (k : Kind) (v : Word) (s : State) : Host.Outcome State Fault Refusal :=
  onDev s (fun d =>
    withWord i (decide (i.slot = .long) || (isD gd && decide (k = .int) && decide ((v.extractLsb' 0 16).signExtend 32 = v)))
      true d (fun d => wrReg d i.who gd ⟨v, kindTag k⟩))

/-- TAGX.R: GD ← the tag of GA as an integer, tag INT. -/
def execTagxR (i : Issue) (gd ga : GReg) (s : State) : Host.Outcome State Fault Refusal :=
  onDev s (fun d => withWord i (decide (i.slot = .long)) true d (fun d =>
    wrReg d i.who gd ⟨BitVec.ofNat 32 (readG (srcWork d i) ga).t.code, .int⟩))

/-- TAGX.W: GD ← the payload of GA with tag IMM8[3:0] (R110, R136). -/
def execTagxW (i : Issue) (gd ga : GReg) (imm : BitVec 8) (s : State) : Host.Outcome State Fault Refusal :=
  onDev s (fun d => withWord i (decide (i.slot = .long)) true d (fun d =>
    wrReg d i.who gd ⟨(readG (srcWork d i) ga).p, tagOfCode (imm.toNat % 16)⟩))

/-- TAGX.S: GD ← the payload of GA with the tag in bits [3:0] of GB's payload (R110, R136). -/
def execTagxS (i : Issue) (gd ga gb : GReg) (s : State) : Host.Outcome State Fault Refusal :=
  onDev s (fun d => withWord i (decide (i.slot = .long)) true d (fun d =>
    wrReg d i.who gd ⟨(readG (srcWork d i) ga).p, tagOfCode ((readG (srcWork d i) gb).p.toNat % 16)⟩))

/-! ### Arithmetic -/

/-- ADD (R130, R133). -/
def execAdd (i : Issue) (sat : Bool) (gd ga : GReg) (b : Src) (s : State) : Host.Outcome State Fault Refusal :=
  onDev s (alu2 i (shortOk i [gd, ga] && (decide (i.slot = .long) || srcIsD b)) .add gd ga b (fun x y => narrow 32 sat (x + y)))

/-- SUB (R130, R133). -/
def execSub (i : Issue) (sat : Bool) (gd ga : GReg) (b : Src) (s : State) : Host.Outcome State Fault Refusal :=
  onDev s (alu2 i (shortOk i [gd, ga] && (decide (i.slot = .long) || srcIsD b)) .sub gd ga b (fun x y => narrow 32 sat (x - y)))

/-- NEG (R130, R155). -/
def execNeg (i : Issue) (sat : Bool) (gd ga : GReg) (s : State) : Host.Outcome State Fault Refusal :=
  onDev s (alu1 i (shortOk i [gd, ga]) gd ga (fun x => narrow 32 sat (-x)))

/-- ABS (R130, R155). -/
def execAbs (i : Issue) (sat : Bool) (gd ga : GReg) (s : State) : Host.Outcome State Fault Refusal :=
  onDev s (alu1 i (shortOk i [gd, ga]) gd ga (fun x => narrow 32 sat (if 0 ≤ x then x else -x)))

/-- MIN. -/
def execMin (i : Issue) (gd ga : GReg) (b : Src) (s : State) : Host.Outcome State Fault Refusal :=
  onDev s (alu2 i (shortOk i [gd, ga] && (decide (i.slot = .long) || srcIsD b)) .logic gd ga b
    (fun x y => exact (if x ≤ y then x else y)))

/-- MAX. -/
def execMax (i : Issue) (gd ga : GReg) (b : Src) (s : State) : Host.Outcome State Fault Refusal :=
  onDev s (alu2 i (shortOk i [gd, ga] && (decide (i.slot = .long) || srcIsD b)) .logic gd ga b
    (fun x y => exact (if y ≤ x then x else y)))

/-- CMPLT (R144). -/
def execCmplt (i : Issue) (gd ga : GReg) (b : Src) (s : State) : Host.Outcome State Fault Refusal :=
  onDev s (aluCmp i (shortOk i [gd, ga] && (decide (i.slot = .long) || srcIsD b)) gd ga b (fun x y => decide (x < y)))

/-- CMPLE (R144); it has no short form (R120). -/
def execCmple (i : Issue) (gd ga : GReg) (b : Src) (s : State) : Host.Outcome State Fault Refusal :=
  onDev s (aluCmp i (decide (i.slot = .long)) gd ga b (fun x y => decide (x ≤ y)))

/-- CMPEQ (R144). -/
def execCmpeq (i : Issue) (gd ga : GReg) (b : Src) (s : State) : Host.Outcome State Fault Refusal :=
  onDev s (aluCmp i (shortOk i [gd, ga] && (decide (i.slot = .long) || srcIsD b)) gd ga b (fun x y => decide (x = y)))

/-- ADDI, a short form: DD ← DA plus the sign-extended IMM16 of kind INT (R144). -/
def execAddi (i : Issue) (sat : Bool) (dd da : Fin 16) (imm : BitVec 16) (s : State) : Host.Outcome State Fault Refusal :=
  onDev s (alu2 i (decide (i.slot ≠ .long)) .add (.d dd) (.d da) (.imm .int (imm.signExtend 32))
    (fun x y => narrow 32 sat (x + y)))

/-! ### Logic and shifts -/

/-- AND. -/
def execAnd (i : Issue) (gd ga gb : GReg) (s : State) : Host.Outcome State Fault Refusal :=
  onDev s (aluBits i (shortOk i [gd, ga, gb]) gd ga gb (fun x y => x &&& y))

/-- OR. -/
def execOr (i : Issue) (gd ga gb : GReg) (s : State) : Host.Outcome State Fault Refusal :=
  onDev s (aluBits i (shortOk i [gd, ga, gb]) gd ga gb (fun x y => x ||| y))

/-- XOR. -/
def execXor (i : Issue) (gd ga gb : GReg) (s : State) : Host.Outcome State Fault Refusal :=
  onDev s (aluBits i (shortOk i [gd, ga, gb]) gd ga gb (fun x y => x ^^^ y))

/-- NOT; it has no short form (R120). -/
def execNot (i : Issue) (gd ga : GReg) (s : State) : Host.Outcome State Fault Refusal :=
  onDev s (alu1 i (decide (i.slot = .long)) gd ga (fun x => exact (-x - 1)))

/-- SHL (R145). -/
def execShl (i : Issue) (sat : Bool) (gd ga : GReg) (k : Count) (s : State) : Host.Outcome State Fault Refusal :=
  onDev s (aluShift i gd ga k (fun x n => shlSigned 32 sat x.toInt n))

/-- SHRA (R145). -/
def execShra (i : Issue) (sat : Bool) (gd ga : GReg) (k : Count) (s : State) : Host.Outcome State Fault Refusal :=
  onDev s (aluShift i gd ga k (fun x n => shraSigned 32 sat x.toInt n))

/-- SHRL (R145). -/
def execShrl (i : Issue) (gd ga : GReg) (k : Count) (s : State) : Host.Outcome State Fault Refusal :=
  onDev s (aluShift i gd ga k (fun x n => exact (shrlSigned x n).toInt))

/-! ### Multiplication and division -/

/-- MUL: the floor of the fractional product (R129, R155). -/
def execMul (i : Issue) (sat : Bool) (gd ga gb : GReg) (s : State) : Host.Outcome State Fault Refusal :=
  onDev s (alu2 i (shortOk i [gd, ga, gb]) .mul gd ga (.reg gb) (fun x y => narrow 32 sat (x * y / 2 ^ 31)))

/-- MULI: the integer product; it has no short form. -/
def execMuli (i : Issue) (sat : Bool) (gd ga gb : GReg) (s : State) : Host.Outcome State Fault Refusal :=
  onDev s (alu2 i (decide (i.slot = .long)) .mul gd ga (.reg gb) (fun x y => narrow 32 sat (x * y)))

/-- DIV (R146). -/
def execDiv (i : Issue) (sat : Bool) (gd ga gb : GReg) (s : State) : Host.Outcome State Fault Refusal :=
  onDev s (startDiv i true sat gd ga gb)

/-- DIVI (R146). -/
def execDivi (i : Issue) (sat : Bool) (gd ga gb : GReg) (s : State) : Host.Outcome State Fault Refusal :=
  onDev s (startDiv i false sat gd ga gb)

/-- The last of the 18 cycles of a division (R146); a division whose last cycle lies beyond the rally's limit is cut
(R169, R170) and writes nothing. -/
def execDivisionResult (n : Fin 68) (s : State) : Host.Outcome State Fault Refusal :=
  onDev s (fun d =>
    let e := ag d n
    match e.div with
    | none => d
    | some p => if isCc n || decide (p.last < e.limit) then setAg d n (finishDiv e) else d)

/-- A loaded value lands (R123): the oldest outstanding load whose cycle has come, or, when the rally has ended, the
oldest outstanding load (R104). -/
def execLoadResult (n : Fin 68) (s : State) : Host.Outcome State Fault Refusal :=
  onDev s (fun d =>
    let e := ag d n
    match e.pend with
    | [] => d
    | l :: ls => if l.due ≤ e.cyc ∨ (¬ isCc n ∧ e.phase ≠ .rallying) then setAg d n (land { e with pend := ls } l) else d)

/-! ### Accumulators -/

/-- QEXT: floor(q × 2^k / 2^31), narrowed to 32 bits. -/
def execQext (i : Issue) (sat : Bool) (gd : GReg) (qa : Fin 4) (k : BitVec 8) (s : State) : Host.Outcome State Fault Refusal :=
  onDev s (fun d => withWord i (decide (i.slot = .long)) true d (fun d =>
    let q := (srcWork d i).q[qa]
    let r : Int := if 0 ≤ k.toInt then q.v.toInt * 2 ^ k.toInt.toNat / 2 ^ 31 else q.v.toInt / 2 ^ (31 + (-k.toInt).toNat)
    putResult d i.who gd (narrow 32 sat r) (q.t, false)))

/-- QCLR: Q ← 0, tag INT. -/
def execQclr (i : Issue) (qd : Fin 4) (s : State) : Host.Outcome State Fault Refusal :=
  onDev s (fun d => withWord i (decide (i.slot = .long)) true d (fun d => wrQ d i.who qd ⟨0, .int⟩))

/-- QLD: Q ← a × 2^31, with the tag of GA. -/
def execQld (i : Issue) (qd : Fin 4) (ga : GReg) (s : State) : Host.Outcome State Fault Refusal :=
  onDev s (fun d => withWord i (decide (i.slot = .long)) true d (fun d =>
    let x := readG (srcWork d i) ga
    wrQ d i.who qd ⟨BitVec.ofInt 80 (x.p.toInt * 2 ^ 31), x.t⟩))

/-- The sum or difference of two accumulators, narrowed to 80 bits (R130, R133). -/
def accumOp (i : Issue) (qd qa qb : Fin 4) (f : Int → Int → Narrowed) (d : Device) : Device :=
  withWord i (decide (i.slot = .long)) true d (fun d =>
    let x := (srcWork d i).q[qa]
    let y := (srcWork d i).q[qb]
    let r := f x.v.toInt y.v.toInt
    let t := tag2 (ag d i.who).chk .mul x.t y.t
    tagFault (orStat (wrQ d i.who qd ⟨BitVec.ofInt 80 r.r, t.1⟩) i.who r.v r.sat) i.who t.2)

/-- A shift of an accumulator over 80 bits (R145). -/
def accumShift (i : Issue) (qd qa : Fin 4) (f : Int → Narrowed) (d : Device) : Device :=
  withWord i (decide (i.slot = .long)) true d (fun d =>
    let x := (srcWork d i).q[qa]
    let r := f x.v.toInt
    orStat (wrQ d i.who qd ⟨BitVec.ofInt 80 r.r, x.t⟩) i.who r.v r.sat)

/-- QADD. -/
def execQadd (i : Issue) (sat : Bool) (qd qa qb : Fin 4) (s : State) : Host.Outcome State Fault Refusal :=
  onDev s (accumOp i qd qa qb (fun x y => narrow 80 sat (x + y)))

/-- QSUB. -/
def execQsub (i : Issue) (sat : Bool) (qd qa qb : Fin 4) (s : State) : Host.Outcome State Fault Refusal :=
  onDev s (accumOp i qd qa qb (fun x y => narrow 80 sat (x - y)))

/-- QSHL (R145). -/
def execQshl (i : Issue) (sat : Bool) (qd qa : Fin 4) (k : BitVec 8) (s : State) : Host.Outcome State Fault Refusal :=
  onDev s (accumShift i qd qa (fun x => shlSigned 80 sat x k.toInt))

/-- QSHRA (R145). -/
def execQshra (i : Issue) (sat : Bool) (qd qa : Fin 4) (k : BitVec 8) (s : State) : Host.Outcome State Fault Refusal :=
  onDev s (accumShift i qd qa (fun x => shraSigned 80 sat x k.toInt))

end Sys2Proof.Machine
end

