-- ==== Sys2Proof/Machine/EngineBits.lean ====
section
/-! DEFINITION. Bit operations of engines and control cores (R111 to R115, R121, R150, R371, R475, R478). -/

namespace Sys2Proof.Machine

/-- Bit `b` of a store of words. -/
def bitAt (m : Sparse Word) (b : Nat) : Bool := (sparseGet wordZero m (b / 32)).getLsbD (b % 32)

/-- A store of words with bit `b` replaced. -/
def bitPut (m : Sparse Word) (b : Nat) (v : Bool) : Sparse Word :=
  let x := sparseGet wordZero m (b / 32)
  sparsePut wordZero m (b / 32) (BitVec.ofNat 32 (withBits x.toNat (b % 32) 1 v.toNat))

/-- The status bits of a control core, as they stand; the bits of tiers and sets read 0 (R371). -/
def ccStatusBit (d : Device) (b : Nat) : Bool :=
  let ws := statusWords d 0 0 false false
  let w := ws.getD ((b - 0x800) / 32) 0
  let w := if (b - 0x800) / 32 = 4 then w % 2 ^ 6 / 2 ^ 4 * 2 ^ 4 else w
  w / 2 ^ (b % 32) % 2 = 1

/-- The value a team bit had before the current cycle, where another engine wrote it in this cycle: what the
lowest-numbered of them found (R114). -/
def teamBefore (d : Device) (n : Fin 68) (b : Nat) : Option Bool :=
  let e := ag d n
  (List.finRange 64).findSome? (fun m =>
    let o := ag d (engProc m)
    if engProc m ≠ n ∧ o.cur = e.cur ∧ (o.phase = .rallying ∨ o.phase = .ended) ∧ engDomain d (engProc m) = engDomain d n ∧
        teamGroup d (engProc m) = teamGroup d n then
      (o.acc.find? (fun a => decide (a.kind = .bitWrite) && decide (a.addr = b))).map (fun a => decide (a.val.p = 1))
    else none)

/-- A team bit as it stands; for Y, before X (R121). -/
def teamNow (d : Device) (i : Issue) (b : Nat) : Bool :=
  match i.slot, (ag d i.who).pair with
  | .y, some p => bitAt p.team (b - 0xC00)
  | _, _ => bitAt d.team[teamGroup d i.who] (b - 0xC00)

/-- A bit below 0xC00 as the operation reads it: private flags (for Y, before X), captured status bits (R111, R112). -/
def lowBit (d : Device) (i : Issue) (b : Nat) : Bool :=
  let e := ag d i.who
  if b < 0x800 then
    match i.slot, e.pair with
    | .y, some p => bitAt p.flags b
    | _, _ => bitAt e.flags b
  else if isCc i.who then ccStatusBit d b
  else bitAt e.captured b

/-- A plain read of a bit (R114, R150, R371). -/
def readBit (d : Device) (i : Issue) (b : Nat) : Bool :=
  if b < 0xC00 then lowBit d i b
  else if isCc i.who then false
  else (teamBefore d i.who b).getD (teamNow d i b)

/-- The bit a toggle or a TAS finds: the value left by the operations ordered before it (R114). -/
def foundBit (d : Device) (i : Issue) (b : Nat) : Bool :=
  if b < 0xC00 then lowBit d i b else if isCc i.who then false else teamNow d i b

/-- A write of a team bit by the role's holder, recorded for the reads of its cycle (R114). -/
def putTeamBit (d : Device) (n : Fin 68) (b : Nat) (v : Bool) : Device :=
  let g := teamGroup d n
  let old := bitAt d.team[g] (b - 0xC00)
  noteAcc { d with team := d.team.set g (bitPut d.team[g] (b - 0xC00) v) } n .bitWrite b ⟨if old then 1 else 0, .int⟩

/-- A write of a bit (R111, R112, R114, R371, R475). -/
def writeBit (d : Device) (i : Issue) (b : Nat) (v : Bool) : Device :=
  let e := ag d i.who
  if b < 0x800 then setAg d i.who { e with flags := bitPut e.flags b v }
  else if b < 0xC00 ∨ isCc i.who then d
  else
    match e.own with
    | .owner => putTeamBit d i.who b v
    | .mirror => d
    | .fenced => fencedDrop d i.who

/-- What the owner's TAS of a bit returned in the mirroring engine's cycle (R475). -/
def ownerTas (d : Device) (n : Fin 68) (b : Nat) : Option Bool :=
  ((ownerAccs d n).find? (fun a => decide (a.kind = .bitTas) && decide (a.addr = b))).map (fun a => decide (a.val.p = 1))

/-- A bit TAS (R114, R150, R475). -/
def tasBit (d : Device) (i : Issue) (b : Nat) : Device × Bool :=
  let e := ag d i.who
  let old := foundBit d i b
  if b < 0x800 then (setAg d i.who { e with flags := bitPut e.flags b true }, old)
  else if b < 0xC00 ∨ isCc i.who then (d, old)
  else
    match e.own with
    | .owner => (putTeamBit (noteAcc d i.who .bitTas b ⟨if old then 1 else 0, .int⟩) i.who b true, old)
    | .mirror => (d, (ownerTas d i.who b).getD old)
    | .fenced => (fencedDrop d i.who, true)

/-- A bit as a register receives it. -/
def bitWord (b : Bool) : TWord := ⟨if b then 1 else 0, .int⟩

/-- Whether a bit operation with a short form is defined where it stands: no index in a short form (R120). -/
def bitOk (i : Issue) (b : BitRef) : Bool := decide (i.slot = .long) || b.ix.isNone

/-- BSET. -/
def execBset (i : Issue) (b : BitRef) (s : State) : Host.Outcome State Fault Refusal :=
  onDev s (fun d => withWord i (bitOk i b) true d (fun d => writeBit d i (bitAddr (srcWork d i) b) true))

/-- BCLR. -/
def execBclr (i : Issue) (b : BitRef) (s : State) : Host.Outcome State Fault Refusal :=
  onDev s (fun d => withWord i (bitOk i b) true d (fun d => writeBit d i (bitAddr (srcWork d i) b) false))

/-- BTGL. -/
def execBtgl (i : Issue) (b : BitRef) (s : State) : Host.Outcome State Fault Refusal :=
  onDev s (fun d => withWord i (bitOk i b) true d (fun d =>
    let k := bitAddr (srcWork d i) b
    writeBit d i k (!foundBit d i k)))

/-- BTST. -/
def execBtst (i : Issue) (gd : GReg) (b : BitRef) (s : State) : Host.Outcome State Fault Refusal :=
  onDev s (fun d => withWord i (bitOk i b && shortOk i [gd]) true d (fun d =>
    wrReg d i.who gd (bitWord (readBit d i (bitAddr (srcWork d i) b)))))

/-- BMOV (from bit): BB is never offset. -/
def execBmovFromBit (i : Issue) (b : BitRef) (bb : BitVec 12) (s : State) : Host.Outcome State Fault Refusal :=
  onDev s (fun d => withWord i (decide (i.slot = .long)) true d (fun d =>
    writeBit d i (bitAddr (srcWork d i) b) (readBit d i bb.toNat)))

/-- BMOV (from register). -/
def execBmovFromRegister (i : Issue) (b : BitRef) (gd : GReg) (s : State) : Host.Outcome State Fault Refusal :=
  onDev s (fun d => withWord i (decide (i.slot = .long)) true d (fun d =>
    writeBit d i (bitAddr (srcWork d i) b) (decide ((readG (srcWork d i) gd).p ≠ 0))))

/-- BAND. -/
def execBand (i : Issue) (gd : GReg) (b : BitRef) (bb : BitVec 12) (s : State) : Host.Outcome State Fault Refusal :=
  onDev s (fun d => withWord i (decide (i.slot = .long)) true d (fun d =>
    wrReg d i.who gd (bitWord (readBit d i (bitAddr (srcWork d i) b) && readBit d i bb.toNat))))

/-- BOR. -/
def execBor (i : Issue) (gd : GReg) (b : BitRef) (bb : BitVec 12) (s : State) : Host.Outcome State Fault Refusal :=
  onDev s (fun d => withWord i (decide (i.slot = .long)) true d (fun d =>
    wrReg d i.who gd (bitWord (readBit d i (bitAddr (srcWork d i) b) || readBit d i bb.toNat))))

/-- TAS on a bit. -/
def execBitTas (i : Issue) (gd : GReg) (b : BitRef) (s : State) : Host.Outcome State Fault Refusal :=
  onDev s (fun d => withWord i (decide (i.slot = .long)) true d (fun d =>
    let r := tasBit d i (bitAddr (srcWork d i) b)
    wrReg r.1 i.who gd (bitWord r.2)))

end Sys2Proof.Machine
end

