-- ==== Sys2Proof/Machine/EngineMem.lean ====
section
/-! DEFINITION. Loads, stores, atomics, extreme search and multiply-accumulate of engines and control cores (R97, R98,
R100, R122, R123, R134, R135, R138 to R143, R147 to R149, R371 to R374). -/

namespace Sys2Proof.Machine

/-! ### Accesses of a control core (R371 to R374) -/

/-- The device byte address of a core's data address; none beyond the 32-bit device map. -/
def ccByte (a : Nat) : Option Nat := if a < 2 ^ 30 then some (4 * a) else none

/-- Whether a data address lies in the core's own local memory, whose loads are delayed (R373). -/
def ccOwn (n : Fin 68) (a : Nat) : Bool := decide (0x6000000 + 0x10000 * (coreOf n).val ≤ a ∧ a < 0x6000000 + 0x10000 * ((coreOf n).val + 1))

/-- The word of delay memory a data address of a core names, or of the shared memory: where LDRV and STCN act (R374). -/
def ccLoc (a : Nat) : Option Loc :=
  if a < 0x1000000 then some (.delay a)
  else if 0x6040000 ≤ a ∧ a < 0x6080000 then some (.ccMem a)
  else none

/-- A stored word as a core would read it, for the Y half of a word that stores to it (R121). -/
def ccStored (d : Device) (a : Nat) : Option TWord :=
  match areaOf (4 * a) with
  | .delay => some ⟨(delayCell d a).w.p, .sample⟩
  | .ccMem => some ⟨(ccCell d a).w.p, (cellRead (ccCell d a)).t⟩
  | .engine n o => if o < 0x30000 then some (engWinRead d (engProc n) o 4) else none
  | _ => none

/-- What the X half of a word overwrites is kept for Y (R121). -/
def ccKeep (d : Device) (i : Issue) (a : Nat) : Device :=
  match ccStored d a with
  | some v => keepUndo d i a (cellOf v)
  | none => d

/-- A core's load at a data address (R97, R100, R101, R372). -/
def ccLoad (d : Device) (i : Issue) (a : Nat) : Device × TWord :=
  match ccByte a with
  | none => (addrFault d i.who, TWord.zero .poison)
  | some b =>
    let d := if areaOf b = .ccMem ∧ (ccCell d a).bad then parFault d i.who else d
    let r := readWord (settle (touch d b) b) (.cc (coreOf i.who)) b 4
    (entryCheck r.1, (seenCell d i a (cellOf r.2)).w)

/-- A core's store at a data address (R20, R21, R372). -/
def ccStore (d : Device) (i : Issue) (a : Nat) (v : TWord) : Device :=
  match ccByte a with
  | none => addrFault d i.who
  | some b => busWrite (ccKeep d i a) (.cc (coreOf i.who)) b 4 v.p.toNat v.t

/-- A core's TAS: the word read, then 1 tagged INT written, with nothing between (R140, R374). -/
def ccTas (d : Device) (i : Issue) (a : Nat) : Device × TWord :=
  match ccByte a with
  | none => (addrFault d i.who, TWord.zero .poison)
  | some _ =>
    let r := ccLoad d i a
    (ccStore r.1 i a tasWord, r.2)

/-- Whether a delay word takes accesses: its bank is present and ready (R43, R208). -/
def ccReaches (d : Device) (a : Nat) : Bool := decide (0x1000000 ≤ a) || (bankPresent d a && bankReady d (bankOf a))

/-- A core's LDRV (R374): elsewhere than on shared or delay memory it behaves as at an unmapped address (R100). -/
def ccLdrv (d : Device) (i : Issue) (a : Nat) : Device × TWord :=
  match ccLoc a with
  | none => (setResv (addrFault d i.who) i.who none, TWord.zero .poison)
  | some l =>
    let r := ccLoad d i a
    (if ccReaches d a then setResv r.1 i.who (some l) else r.1, r.2)

/-- A core's STCN (R142, R374). -/
def ccStcn (d : Device) (i : Issue) (a : Nat) (v : TWord) : Device × TWord :=
  let d := settle d (4 * a)
  let gone := setResv d i.who none
  match ccLoc a with
  | none => (addrFault gone i.who, TWord.zero .poison)
  | some l =>
    if ¬ ccReaches d a then ((readWord d (.cc (coreOf i.who)) (4 * a) 4).1, stcnWord false)
    else if (ag d i.who).resv = some l then (ccStore gone i a v, stcnWord true)
    else (gone, stcnWord false)

/-! ### One memory access of a word -/

/-- What a memory access specifier comes to (R97, R98). -/
inductive MaWay where
  | poison | unmapped | at_ (a : Nat)
  deriving DecidableEq, Repr

/-- The way of an access: a poisoned pointer before an oversized buffer (R97, R98). -/
def maWay (w : Work) (m : Ma) : MaWay :=
  if maPoison w m then .poison else if maUnmapped w m then .unmapped else .at_ (maAddr w m)

/-- The address update an access calls for (R97, R135). -/
def stepPtr (d : Device) (i : Issue) (w : Work) (m : Ma) : Device :=
  match maUpdate w m with
  | some v => wrPtr d i.who m.n v
  | none => d

/-- A load through an access specifier, its pointer already updated (R97, R98, R100). -/
def loadWord (d : Device) (i : Issue) (port : Nat) (w : Work) (m : Ma) : Device × TWord :=
  match maWay w m with
  | .poison => (tagFault d i.who true, TWord.zero .poison)
  | .unmapped => (addrFault d i.who, TWord.zero .poison)
  | .at_ a => if isCc i.who then ccLoad d i a else engLoad d i port a

/-- Whether a load's register takes its value two words late (R123, R373). -/
def lateLoad (i : Issue) (w : Work) (m : Ma) : Bool :=
  if isCc i.who then
    match maWay w m with
    | .at_ a => ccOwn i.who a
    | _ => false
  else true

/-- A value a memory access delivers to a register (R123, R373). -/
def giveReg (d : Device) (i : Issue) (w : Work) (m : Ma) (g : GReg) (v : TWord) : Device :=
  if lateLoad i w m then queueLoad d i.who g v else wrReg d i.who g v

/-- G ← word. -/
def doLoad (d : Device) (i : Issue) (port : Nat) (w : Work) (g : GReg) (m : Ma) : Device :=
  let r := loadWord (stepPtr d i w m) i port w m
  giveReg r.1 i w m g r.2

/-- word ← G. -/
def doStore (d : Device) (i : Issue) (port : Nat) (w : Work) (g : GReg) (m : Ma) : Device :=
  let d := stepPtr d i w m
  let v := readG w g
  match maWay w m with
  | .poison => tagFault d i.who true
  | .unmapped => addrFault d i.who
  | .at_ a => if isCc i.who then ccStore d i a v else engStore d i port a v

/-- An atomic access that delivers a value: `f` at a mapped address; otherwise it has no memory effect, delivers POISON,
and clears the reservation where `resv` says so (R97, R100, R141). -/
def doAtomic (d : Device) (i : Issue) (w : Work) (g : GReg) (m : Ma) (resv : Bool)
    (f : Device → Nat → Device × TWord) : Device :=
  let d := stepPtr d i w m
  let drop := fun d : Device => if resv then setResv d i.who none else d
  match maWay w m with
  | .poison => giveReg (tagFault (drop d) i.who true) i w m g (TWord.zero .poison)
  | .unmapped => giveReg (addrFault (drop d) i.who) i w m g (TWord.zero .poison)
  | .at_ a =>
    let r := f d a
    giveReg r.1 i w m g r.2

/-- Whether the form of LD or ST is defined where it stands: a short form makes one access (R120, R137). -/
def accessOk (i : Issue) (second : Bool) : Bool := decide (i.slot = .long) || !second

/-- LD (R122, R123, R138). -/
def execLd (i : Issue) (g1 : GReg) (m1 : Ma) (second : Option (GReg × Ma)) (s : State) : Host.Outcome State Fault Refusal :=
  onDev s (fun d => withWord i (accessOk i second.isSome) true d (fun d =>
    let w := srcWork d i
    let d := doLoad d i (firstPort i) w g1 m1
    match second with
    | none => d
    | some (g2, m2) => doLoad d i 1 w g2 m2))

/-- ST (R122, R138). -/
def execSt (i : Issue) (g1 : GReg) (m1 : Ma) (second : Option (GReg × Ma)) (s : State) : Host.Outcome State Fault Refusal :=
  onDev s (fun d => withWord i (accessOk i second.isSome) true d (fun d =>
    let w := srcWork d i
    let d := doStore d i (firstPort i) w g1 m1
    match second with
    | none => d
    | some (g2, m2) => doStore d i 1 w g2 m2))

/-- LDST: the load on port 0, the store on port 1; of one word the load returns the old value (R138). -/
def execLdst (i : Issue) (g1 : GReg) (m1 : Ma) (g2 : GReg) (m2 : Ma) (s : State) : Host.Outcome State Fault Refusal :=
  onDev s (fun d => withWord i (decide (i.slot = .long)) true d (fun d =>
    let w := srcWork d i
    doStore (doLoad d i 0 w g1 m1) i 1 w g2 m2))

/-- TAS on a memory word (R140). -/
def execTas (i : Issue) (g1 : GReg) (m1 : Ma) (s : State) : Host.Outcome State Fault Refusal :=
  onDev s (fun d => withWord i (decide (i.slot = .long)) true d (fun d =>
    let w := srcWork d i
    doAtomic d i w g1 m1 false (fun d a => if isCc i.who then ccTas d i a else engTas d i a)))

/-- LDRV (R141, R374). -/
def execLdrv (i : Issue) (g1 : GReg) (m1 : Ma) (s : State) : Host.Outcome State Fault Refusal :=
  onDev s (fun d => withWord i (decide (i.slot = .long)) true d (fun d =>
    let w := srcWork d i
    doAtomic d i w g1 m1 true (fun d a => if isCc i.who then ccLdrv d i a else engLdrv d i a)))

/-- STCN (R142, R374): G1 is stored if the word is reserved, and G2 takes the result. -/
def execStcn (i : Issue) (g1 : GReg) (m1 : Ma) (g2 : GReg) (s : State) : Host.Outcome State Fault Refusal :=
  onDev s (fun d => withWord i (decide (i.slot = .long)) true d (fun d =>
    let w := srcWork d i
    let v := readG w g1
    doAtomic d i w g2 m1 true (fun d a => if isCc i.who then ccStcn d i a v else engStcn d i a v)))

/-! ### Extreme search (R147) -/

/-- MAXI and MINI: `better` compares the candidate with the running extreme. Where AM names the register of the access, the
index written to it stands over the address update (DESIGN CHOICE, log 76). -/
def extreme (i : Issue) (gd : Fin 16) (an am : Fin 8) (better : Int → Int → Bool) (d : Device) : Device :=
  withWord i (decide (i.slot = .long)) true d (fun d =>
    let n := i.who
    let w := srcWork d i
    let m : Ma := ⟨an, an, .post⟩
    let r := loadWord (stepPtr d i w m) i 0 w m
    let d := r.1
    let k := (ag d n).repCur
    let old := w.d[gd]
    if k = 0 then wrReg (wrReg d n (.d gd) r.2) n (.a am) ⟨0, .int⟩
    else
      let t := tag2 (ag d n).chk .logic old.t r.2.t
      if better r.2.p.toInt old.p.toInt then
        wrReg (tagFault (wrReg d n (.d gd) ⟨r.2.p, t.1⟩) n t.2) n (.a am) ⟨BitVec.ofNat 32 k, .int⟩
      else tagFault (wrReg d n (.d gd) ⟨old.p, t.1⟩) n t.2)

/-- MAXI. -/
def execMaxi (i : Issue) (gd : Fin 16) (an am : Fin 8) (s : State) : Host.Outcome State Fault Refusal :=
  onDev s (extreme i gd an am (fun x y => decide (y < x)))

/-- MINI. -/
def execMini (i : Issue) (gd : Fin 16) (an am : Fin 8) (s : State) : Host.Outcome State Fault Refusal :=
  onDev s (extreme i gd an am (fun x y => decide (x < y)))

/-! ### Four products (R148, R149) -/

/-- D(k + j), where the form allows it. -/
def dAt (k : Fin 16) (j : Nat) : Fin 16 := ⟨(k.val + j) % 16, by omega⟩

/-- One product accumulated: Qn ± x × D(DK + n), narrowed to 80 bits, with its tag (R148). -/
def macOne (i : Issue) (sat minus : Bool) (x : TWord) (dk : Fin 16) (w : Work) (d : Device) (n : Fin 4) : Device :=
  let q := w.q[n]
  let y := w.d[dAt dk n.val]
  let p := x.p.toInt * y.p.toInt
  let r := narrow 80 sat (if minus then q.v.toInt - p else q.v.toInt + p)
  let t := tag3 (ag d i.who).chk q.t x.t y.t
  tagFault (orStat (wrQ d i.who n ⟨BitVec.ofInt 80 r.r, t.1⟩) i.who r.v r.sat) i.who t.2

/-- The rotation D(DK + n + 1) ← D(DK + n) for n = 0 to 2 (R149). -/
def rotate (i : Issue) (dk : Fin 16) (w : Work) (d : Device) : Device :=
  (List.range 3).foldl (fun d n => wrReg d i.who (.d (dAt dk (n + 1))) (w.d[dAt dk n])) d

/-- QMAC and QMSB with and without rotation; an engine's word counts in activity class 1 (R440). -/
def quadMac (i : Issue) (sat minus rt : Bool) (m1 : Ma) (dk : Fin 16) (second : Option (Fin 16 × Ma)) (d : Device) : Device :=
  withWord i (decide (i.slot = .long) && decide (dk.val ≤ 12)) true d (fun d =>
    let w := srcWork d i
    let r := loadWord (stepPtr d i w m1) i 0 w m1
    let d := if isCc i.who then r.1 else tally r.1 1 1
    let d := (List.finRange 4).foldl (macOne i sat minus r.2 dk w) d
    let d := if rt then rotate i dk w d else d
    match second with
    | none => d
    | some (dl, m2) => doLoad d i 1 w (.d dl) m2)

/-- QMAC. -/
def execQmac (i : Issue) (sat : Bool) (m1 : Ma) (dk : Fin 16) (second : Option (Fin 16 × Ma)) (s : State) :
    Host.Outcome State Fault Refusal := onDev s (quadMac i sat false false m1 dk second)

/-- QMAC.RT. -/
def execQmacRt (i : Issue) (sat : Bool) (m1 : Ma) (dk : Fin 16) (second : Option (Fin 16 × Ma)) (s : State) :
    Host.Outcome State Fault Refusal := onDev s (quadMac i sat false true m1 dk second)

/-- QMSB. -/
def execQmsb (i : Issue) (sat : Bool) (m1 : Ma) (dk : Fin 16) (second : Option (Fin 16 × Ma)) (s : State) :
    Host.Outcome State Fault Refusal := onDev s (quadMac i sat true false m1 dk second)

/-- QMSB.RT. -/
def execQmsbRt (i : Issue) (sat : Bool) (m1 : Ma) (dk : Fin 16) (second : Option (Fin 16 × Ma)) (s : State) :
    Host.Outcome State Fault Refusal := onDev s (quadMac i sat true true m1 dk second)

/-! ### LDW and STW (R371 to R373) -/

/-- The way of a 64-bit access of a core: an odd address is unmapped (R372). -/
def pairWay (w : Work) (m : Ma) : MaWay :=
  match maWay w m with
  | .at_ a => if a % 2 = 0 ∧ a < 2 ^ 30 then .at_ a else .unmapped
  | x => x

/-- A core's 64-bit load: the low word, then the high word, of one access (R31, R372). -/
def ccLoadPair (d : Device) (i : Issue) (a : Nat) : Device × TWord × TWord :=
  let q : Req := .cc (coreOf i.who)
  let b := 4 * a
  deadOr ((deadAccess (settle (touch d b) b) q b).map entryCheck) (absentWord, absentWord)
    (if coversWide d b then
      let r := readWide (touch d b) q b
      (entryCheck r.1, ⟨BitVec.ofNat 32 r.2, .int⟩, ⟨BitVec.ofNat 32 (r.2 / 2 ^ 32), .int⟩)
    else
      let lo := ccLoad d i a
      let hi := ccLoad lo.1 i (a + 1)
      (hi.1, lo.2, hi.2))

/-- LDW: Qn.L ← word, Qn.H ← the next word, in that order. -/
def execLdw (c : Fin 4) (q : Fin 4) (m1 : Ma) (s : State) : Host.Outcome State Fault Refusal :=
  onDev s (fun d =>
    let i := ccIssue c
    withWord i true true d (fun d =>
      let w := srcWork d i
      let d := stepPtr d i w m1
      let put := fun (d : Device) (l h : TWord) => giveReg (giveReg d i w m1 (.ql q) l) i w m1 (.qh q) h
      match pairWay w m1 with
      | .poison => put (tagFault d i.who true) (TWord.zero .poison) (TWord.zero .poison)
      | .unmapped => put (addrFault d i.who) (TWord.zero .poison) (TWord.zero .poison)
      | .at_ a =>
        let r := ccLoadPair d i a
        put r.1 r.2.1 r.2.2))

/-- STW: word ← Qn.L, the next word ← Qn.H, each with Qn's tag, as one 64-bit access. -/
def execStw (c : Fin 4) (q : Fin 4) (m1 : Ma) (s : State) : Host.Outcome State Fault Refusal :=
  onDev s (fun d =>
    let i := ccIssue c
    withWord i true true d (fun d =>
      let w := srcWork d i
      let d := stepPtr d i w m1
      match pairWay w m1 with
      | .poison => tagFault d i.who true
      | .unmapped => addrFault d i.who
      | .at_ a => busWrite d (.cc c) (4 * a) 8 ((w.q[q]).v.toNat % 2 ^ 64) (w.q[q]).t))

end Sys2Proof.Machine
end

