-- ==== Sys2Proof/Machine/Dispatch.lean ====
section
/-! DEFINITION. The meaning of every command, one arm per row of the table. -/

namespace Sys2Proof.Machine

def exec (i : Instr) (s : State) : Host.Outcome State Fault Refusal :=
  match i with
  | .nop j => Sys2Proof.Machine.execNop j s
  | .done j => Sys2Proof.Machine.execDone j s
  | .br j target => Sys2Proof.Machine.execBr j target s
  | .brz j gc target => Sys2Proof.Machine.execBrz j gc target s
  | .brnz j gc target => Sys2Proof.Machine.execBrnz j gc target s
  | .brlc j target => Sys2Proof.Machine.execBrlc j target s
  | .call j target => Sys2Proof.Machine.execCall j target s
  | .callz j gc target => Sys2Proof.Machine.execCallz j gc target s
  | .callnz j gc target => Sys2Proof.Machine.execCallnz j gc target s
  | .ret j => Sys2Proof.Machine.execRet j s
  | .rep j count => Sys2Proof.Machine.execRep j count s
  | .tmark j t target => Sys2Proof.Machine.execTmark j t target s
  | .mov j gd ga => Sys2Proof.Machine.execMov j gd ga s
  | .movi j gd k v => Sys2Proof.Machine.execMovi j gd k v s
  | .movcRead j g c => Sys2Proof.Machine.execMovcRead j g c s
  | .movcWrite j g c => Sys2Proof.Machine.execMovcWrite j g c s
  | .tagxR j gd ga => Sys2Proof.Machine.execTagxR j gd ga s
  | .tagxW j gd ga imm => Sys2Proof.Machine.execTagxW j gd ga imm s
  | .tagxS j gd ga gb => Sys2Proof.Machine.execTagxS j gd ga gb s
  | .ld j g1 m1 second => Sys2Proof.Machine.execLd j g1 m1 second s
  | .st j g1 m1 second => Sys2Proof.Machine.execSt j g1 m1 second s
  | .ldst j g1 m1 g2 m2 => Sys2Proof.Machine.execLdst j g1 m1 g2 m2 s
  | .tas j g1 m1 => Sys2Proof.Machine.execTas j g1 m1 s
  | .ldrv j g1 m1 => Sys2Proof.Machine.execLdrv j g1 m1 s
  | .stcn j g1 m1 g2 => Sys2Proof.Machine.execStcn j g1 m1 g2 s
  | .add j sat gd ga b => Sys2Proof.Machine.execAdd j sat gd ga b s
  | .sub j sat gd ga b => Sys2Proof.Machine.execSub j sat gd ga b s
  | .neg j sat gd ga => Sys2Proof.Machine.execNeg j sat gd ga s
  | .abs j sat gd ga => Sys2Proof.Machine.execAbs j sat gd ga s
  | .min j gd ga b => Sys2Proof.Machine.execMin j gd ga b s
  | .max j gd ga b => Sys2Proof.Machine.execMax j gd ga b s
  | .cmplt j gd ga b => Sys2Proof.Machine.execCmplt j gd ga b s
  | .cmple j gd ga b => Sys2Proof.Machine.execCmple j gd ga b s
  | .cmpeq j gd ga b => Sys2Proof.Machine.execCmpeq j gd ga b s
  | .addi j sat dd da imm => Sys2Proof.Machine.execAddi j sat dd da imm s
  | .and j gd ga gb => Sys2Proof.Machine.execAnd j gd ga gb s
  | .or j gd ga gb => Sys2Proof.Machine.execOr j gd ga gb s
  | .xor j gd ga gb => Sys2Proof.Machine.execXor j gd ga gb s
  | .not j gd ga => Sys2Proof.Machine.execNot j gd ga s
  | .shl j sat gd ga k => Sys2Proof.Machine.execShl j sat gd ga k s
  | .shra j sat gd ga k => Sys2Proof.Machine.execShra j sat gd ga k s
  | .shrl j gd ga k => Sys2Proof.Machine.execShrl j gd ga k s
  | .mul j sat gd ga gb => Sys2Proof.Machine.execMul j sat gd ga gb s
  | .muli j sat gd ga gb => Sys2Proof.Machine.execMuli j sat gd ga gb s
  | .div j sat gd ga gb => Sys2Proof.Machine.execDiv j sat gd ga gb s
  | .divi j sat gd ga gb => Sys2Proof.Machine.execDivi j sat gd ga gb s
  | .divisionResult n => Sys2Proof.Machine.execDivisionResult n s
  | .maxi j gd an am => Sys2Proof.Machine.execMaxi j gd an am s
  | .mini j gd an am => Sys2Proof.Machine.execMini j gd an am s
  | .qmac j sat m1 dk second => Sys2Proof.Machine.execQmac j sat m1 dk second s
  | .qmacRt j sat m1 dk second => Sys2Proof.Machine.execQmacRt j sat m1 dk second s
  | .qmsb j sat m1 dk second => Sys2Proof.Machine.execQmsb j sat m1 dk second s
  | .qmsbRt j sat m1 dk second => Sys2Proof.Machine.execQmsbRt j sat m1 dk second s
  | .qext j sat gd qa k => Sys2Proof.Machine.execQext j sat gd qa k s
  | .qclr j qd => Sys2Proof.Machine.execQclr j qd s
  | .qld j qd ga => Sys2Proof.Machine.execQld j qd ga s
  | .qadd j sat qd qa qb => Sys2Proof.Machine.execQadd j sat qd qa qb s
  | .qsub j sat qd qa qb => Sys2Proof.Machine.execQsub j sat qd qa qb s
  | .qshl j sat qd qa k => Sys2Proof.Machine.execQshl j sat qd qa k s
  | .qshra j sat qd qa k => Sys2Proof.Machine.execQshra j sat qd qa k s
  | .bset j b => Sys2Proof.Machine.execBset j b s
  | .bclr j b => Sys2Proof.Machine.execBclr j b s
  | .btgl j b => Sys2Proof.Machine.execBtgl j b s
  | .btst j gd b => Sys2Proof.Machine.execBtst j gd b s
  | .bmovFromBit j b bb => Sys2Proof.Machine.execBmovFromBit j b bb s
  | .bmovFromRegister j b gd => Sys2Proof.Machine.execBmovFromRegister j b gd s
  | .band j gd b bb => Sys2Proof.Machine.execBand j gd b bb s
  | .bor j gd b bb => Sys2Proof.Machine.execBor j gd b bb s
  | .bitTas j gd b => Sys2Proof.Machine.execBitTas j gd b s
  | .spinIssue j ga prog => Sys2Proof.Machine.execSpinIssue j ga prog s
  | .spinGet j gd prog => Sys2Proof.Machine.execSpinGet j gd prog s
  | .spinXg j gd ga prog => Sys2Proof.Machine.execSpinXg j gd ga prog s
  | .spinResult unit => Sys2Proof.Machine.execSpinResult unit s
  | .loadResult n => Sys2Proof.Machine.execLoadResult n s
  | .illegalWord j => Sys2Proof.Machine.execIllegalWord j s
  | .wait c => Sys2Proof.Machine.execWait c s
  | .waitResume c => Sys2Proof.Machine.execWaitResume c s
  | .reti c => Sys2Proof.Machine.execReti c s
  | .doLoop c n target => Sys2Proof.Machine.execDo c n target s
  | .ldw c q m1 => Sys2Proof.Machine.execLdw c q m1 s
  | .stw c q m1 => Sys2Proof.Machine.execStw c q m1 s
  | .interruptEntry c => Sys2Proof.Machine.execInterruptEntry c s
  | .kickoffMark k m => Sys2Proof.Machine.execKickoffMark k m s
  | .engineKickoff k => Sys2Proof.Machine.execEngineKickoff k s
  | .overrunLen n => Sys2Proof.Machine.execOverrunLen n s
  | .rallyStart k => Sys2Proof.Machine.execRallyStart k s
  | .frameResolve k tods => Sys2Proof.Machine.execFrameResolve k tods s
  | .sapFrameBoundary n len phase ready sent zeroFrom => Sys2Proof.Machine.execSapFrameBoundary n len phase ready sent zeroFrom s
  | .sapRxFrameEnd n len ws => Sys2Proof.Machine.execSapRxFrameEnd n len ws s
  | .sapClockLoss n => Sys2Proof.Machine.execSapClockLoss n s
  | .asrcLock u ratio => Sys2Proof.Machine.execAsrcLock u ratio s
  | .asrcUnlock u why ratio => Sys2Proof.Machine.execAsrcUnlock u why ratio s
  | .whistleAssert => Sys2Proof.Machine.execWhistleAssert s
  | .whistleRelease => Sys2Proof.Machine.execWhistleRelease s
  | .writeRecord path ws => Sys2Proof.Machine.execWriteRecord path ws s
  | .fillRecord path ws => Sys2Proof.Machine.execFillRecord path ws s
  | .tableRecord path ws => Sys2Proof.Machine.execTableRecord path ws s
  | .programRecord path ws => Sys2Proof.Machine.execProgramRecord path ws s
  | .commitRecord path ws => Sys2Proof.Machine.execCommitRecord path ws s
  | .endRecord path ws => Sys2Proof.Machine.execEndRecord path ws s
  | .regionQuiesced r => Sys2Proof.Machine.execRegionQuiesced r s
  | .ldrGo q v => Sys2Proof.Machine.execLdrGo q v s
  | .ldrAbort q v => Sys2Proof.Machine.execLdrAbort q v s
  | .commandedLoadEnd => Sys2Proof.Machine.execCommandedLoadEnd s
  | .queue0GapTimeout => Sys2Proof.Machine.execQueue0GapTimeout s
  | .registerWrite q addr w v => Sys2Proof.Machine.execRegisterWrite q addr w v s
  | .readClear q addr w => Sys2Proof.Machine.execReadClear q addr w s
  | .wLowRead q addr => Sys2Proof.Machine.execWLowRead q addr s
  | .wLowWrite q addr v => Sys2Proof.Machine.execWLowWrite q addr v s
  | .wHighWrite q addr v => Sys2Proof.Machine.execWHighWrite q addr v s
  | .mediaWriteComplete addr => Sys2Proof.Machine.execMediaWriteComplete addr s
  | .aonWriteComplete addr => Sys2Proof.Machine.execAonWriteComplete addr s
  | .engineRegisterWrite q n offset v => Sys2Proof.Machine.execEngineRegisterWrite q n offset v s
  | .engTagctlWrite q n v => Sys2Proof.Machine.execEngTagctlWrite q n v s
  | .localDataHostAccess q n offset w v => Sys2Proof.Machine.execLocalDataHostAccess q n offset w v s
  | .programBankHostWrite q n shadow offset w v => Sys2Proof.Machine.execProgramBankHostWrite q n shadow offset w v s
  | .groupWindowWrite q g offset w v => Sys2Proof.Machine.execGroupWindowWrite q g offset w v s
  | .delayHostAccess q addr w v place => Sys2Proof.Machine.execDelayHostAccess q addr w v place s
  | .aliasAtomicAdd q offset w v => Sys2Proof.Machine.execAliasAtomicAdd q offset w v s
  | .aliasAtomicSwap q offset w v => Sys2Proof.Machine.execAliasAtomicSwap q offset w v s
  | .aliasBitSet q offset w v => Sys2Proof.Machine.execAliasBitSet q offset w v s
  | .aliasBitClear q offset w v => Sys2Proof.Machine.execAliasBitClear q offset w v s
  | .tagViewWrite q offset w v => Sys2Proof.Machine.execTagViewWrite q offset w v s
  | .dlyBankpwrWrite q k v => Sys2Proof.Machine.execDlyBankpwrWrite q k v s
  | .bankTransitionDone b lost => Sys2Proof.Machine.execBankTransitionDone b lost s
  | .bankSweepDone b => Sys2Proof.Machine.execBankSweepDone b s
  | .routeChgWrite q v => Sys2Proof.Machine.execRouteChgWrite q v s
  | .routeGo q v => Sys2Proof.Machine.execRouteGo q v s
  | .routeDiscard q v => Sys2Proof.Machine.execRouteDiscard q v s
  | .routeBypselWrite q v => Sys2Proof.Machine.execRouteBypselWrite q v s
  | .genSineWrite q g v => Sys2Proof.Machine.execGenSineWrite q g v s
  | .genNoiseWrite q g v => Sys2Proof.Machine.execGenNoiseWrite q g v s
  | .mixXpcmdWrite q m v => Sys2Proof.Machine.execMixXpcmdWrite q m v s
  | .mixGo q m v => Sys2Proof.Machine.execMixGo q m v s
  | .mixDiscard q m v => Sys2Proof.Machine.execMixDiscard q m v s
  | .sapUnmute q n => Sys2Proof.Machine.execSapUnmute q n s
  | .guardRtWrite q addr v => Sys2Proof.Machine.execGuardRtWrite q addr v s
  | .guardWdrel q => Sys2Proof.Machine.execGuardWdrel q s
  | .wdogKickWrite q v => Sys2Proof.Machine.execWdogKickWrite q v s
  | .wdogCtlWrite q v => Sys2Proof.Machine.execWdogCtlWrite q v s
  | .watchdogExpiry => Sys2Proof.Machine.execWatchdogExpiry s
  | .ccRun q c => Sys2Proof.Machine.execCcRun q c s
  | .ccReset q c => Sys2Proof.Machine.execCcReset q c s
  | .evtSwtrigWrite q v => Sys2Proof.Machine.execEvtSwtrigWrite q v s
  | .evtRouteWrite q e v => Sys2Proof.Machine.execEvtRouteWrite q e v s
  | .evtMsixackWrite q v => Sys2Proof.Machine.execEvtMsixackWrite q v s
  | .eventDelivery e => Sys2Proof.Machine.execEventDelivery e s
  | .quePortRead q k => Sys2Proof.Machine.execQuePortRead q k s
  | .quePortWrite q k v => Sys2Proof.Machine.execQuePortWrite q k v s
  | .quePushWrite q k v => Sys2Proof.Machine.execQuePushWrite q k v s
  | .queFlush q v => Sys2Proof.Machine.execQueFlush q v s
  | .queueCrossingEntry k => Sys2Proof.Machine.execQueueCrossingEntry k s
  | .clkMtgtWrite q m v => Sys2Proof.Machine.execClkMtgtWrite q m v s
  | .clkMctlWrite q m v => Sys2Proof.Machine.execClkMctlWrite q m v s
  | .handoverArm q k v => Sys2Proof.Machine.execHandoverArm q k v s
  | .pllLock j => Sys2Proof.Machine.execPllLock j s
  | .pllLockTimeout j => Sys2Proof.Machine.execPllLockTimeout j s
  | .pllLossOfLock j => Sys2Proof.Machine.execPllLossOfLock j s
  | .timeStepWrite q v => Sys2Proof.Machine.execTimeStepWrite q v s
  | .timeCtlWrite q v => Sys2Proof.Machine.execTimeCtlWrite q v s
  | .timeFreqWrite q v => Sys2Proof.Machine.execTimeFreqWrite q v s
  | .ppsInEdge ts => Sys2Proof.Machine.execPpsInEdge ts s
  | .wclkInEdge pin ts => Sys2Proof.Machine.execWclkInEdge pin ts s
  | .holdoverTimeout => Sys2Proof.Machine.execHoldoverTimeout s
  | .aonCalibrationWindow => Sys2Proof.Machine.execAonCalibrationWindow s
  | .ppsOutPulse => Sys2Proof.Machine.execPpsOutPulse s
  | .linkSignalDetect n => Sys2Proof.Machine.execLinkSignalDetect n s
  | .cdrLock n => Sys2Proof.Machine.execCdrLock n s
  | .blockLock n => Sys2Proof.Machine.execBlockLock n s
  | .trainingSetRx n d1 d2 d3 => Sys2Proof.Machine.execTrainingSetRx n d1 d2 d3 s
  | .rateChangeDone n => Sys2Proof.Machine.execRateChangeDone n s
  | .rateFallback n => Sys2Proof.Machine.execRateFallback n s
  | .linkTrainTimeout n => Sys2Proof.Machine.execLinkTrainTimeout n s
  | .linkHiber n lockLoss => Sys2Proof.Machine.execLinkHiber n lockLoss s
  | .linkRetrain q n v => Sys2Proof.Machine.execLinkRetrain q n v s
  | .lyathFrameRx n bs rxtod => Sys2Proof.Machine.execLyathFrameRx n bs rxtod s
  | .linkMapdataWrite q n v => Sys2Proof.Machine.execLinkMapdataWrite q n v s
  | .hello n => Sys2Proof.Machine.execHello n s
  | .lsa n => Sys2Proof.Machine.execLsa n s
  | .captain n => Sys2Proof.Machine.execCaptain n s
  | .grant n => Sys2Proof.Machine.execGrant n s
  | .runReq n => Sys2Proof.Machine.execRunReq n s
  | .runAck n => Sys2Proof.Machine.execRunAck n s
  | .runNak n => Sys2Proof.Machine.execRunNak n s
  | .runTear n => Sys2Proof.Machine.execRunTear n s
  | .user n => Sys2Proof.Machine.execUser n s
  | .fabRejoin q v => Sys2Proof.Machine.execFabRejoin q v s
  | .isolatedRejoin => Sys2Proof.Machine.execIsolatedRejoin s
  | .adjacencyDead n => Sys2Proof.Machine.execAdjacencyDead n s
  | .helloKeepalive n => Sys2Proof.Machine.execHelloKeepalive n s
  | .endOfQuiet => Sys2Proof.Machine.execEndOfQuiet s
  | .grantDeadline => Sys2Proof.Machine.execGrantDeadline s
  | .tombstoneCreate uid => Sys2Proof.Machine.execTombstoneCreate uid s
  | .tombstoneExpiry uid => Sys2Proof.Machine.execTombstoneExpiry uid s
  | .lsaReflood => Sys2Proof.Machine.execLsaReflood s
  | .runSetup q v => Sys2Proof.Machine.execRunSetup q v s
  | .runTeardown q v => Sys2Proof.Machine.execRunTeardown q v s
  | .runTimeout r => Sys2Proof.Machine.execRunTimeout r s
  | .fabricGateOpen => Sys2Proof.Machine.execFabricGateOpen s
  | .coachDecision link sap => Sys2Proof.Machine.execCoachDecision link sap s
  | .thermalSensorConversion raw => Sys2Proof.Machine.execThermalSensorConversion raw s
  | .dvfsOppRequest q level => Sys2Proof.Machine.execDvfsOppRequest q level s
  | .dvfsVoltageRequest q level => Sys2Proof.Machine.execDvfsVoltageRequest q level s
  | .dvfsFrequencyRequest q level => Sys2Proof.Machine.execDvfsFrequencyRequest q level s
  | .voltageConfirm mv => Sys2Proof.Machine.execVoltageConfirm mv s
  | .voltageStepFail why status => Sys2Proof.Machine.execVoltageStepFail why status s
  | .pwrModeWrite q v => Sys2Proof.Machine.execPwrModeWrite q v s
  | .pwrVoteWrite q k v => Sys2Proof.Machine.execPwrVoteWrite q k v s
  | .domainIdleTimeout n => Sys2Proof.Machine.execDomainIdleTimeout n s
  | .domainDownTimeout n => Sys2Proof.Machine.execDomainDownTimeout n s
  | .domainWakeDone n => Sys2Proof.Machine.execDomainWakeDone n s
  | .pwrEnter q v => Sys2Proof.Machine.execPwrEnter q v s
  | .deviceTimerExpiry => Sys2Proof.Machine.execDeviceTimerExpiry s
  | .entryCommitPoint a0 => Sys2Proof.Machine.execEntryCommitPoint a0 s
  | .wakeNAssert => Sys2Proof.Machine.execWakeNAssert s
  | .senseCrossing k mv => Sys2Proof.Machine.execSenseCrossing k mv s
  | .linkSquelchWake n => Sys2Proof.Machine.execLinkSquelchWake n s
  | .hspiCsWake => Sys2Proof.Machine.execHspiCsWake s
  | .pcieL1Exit => Sys2Proof.Machine.execPcieL1Exit s
  | .perstNRise => Sys2Proof.Machine.execPerstNRise s
  | .perstNFall => Sys2Proof.Machine.execPerstNFall s
  | .aonAlarm => Sys2Proof.Machine.execAonAlarm s
  | .pmbAlert status => Sys2Proof.Machine.execPmbAlert status s
  | .exitComplete a1 lost => Sys2Proof.Machine.execExitComplete a1 lost s
  | .offWakeBoot sel a1 => Sys2Proof.Machine.execOffWakeBoot sel a1 s
  | .padRelease q v => Sys2Proof.Machine.execPadRelease q v s
  | .vddAonPowerOn sel tamper => Sys2Proof.Machine.execVddAonPowerOn sel tamper s
  | .resetNAssert => Sys2Proof.Machine.execResetNAssert s
  | .resetNRise sel => Sys2Proof.Machine.execResetNRise sel s
  | .loadBegin => Sys2Proof.Machine.execLoadBegin s
  | .slotHeaderRead slot ws => Sys2Proof.Machine.execSlotHeaderRead slot ws s
  | .blockReadDone ws early => Sys2Proof.Machine.execBlockReadDone ws early s
  | .recordsBlock => Sys2Proof.Machine.execRecordsBlock s
  | .memoryBlock => Sys2Proof.Machine.execMemoryBlock s
  | .startBlock => Sys2Proof.Machine.execStartBlock s
  | .loaderGateOpen => Sys2Proof.Machine.execLoaderGateOpen s
  | .hostPushTimeout => Sys2Proof.Machine.execHostPushTimeout s
  | .subArm q v => Sys2Proof.Machine.execSubArm q v s
  | .subCopyDone => Sys2Proof.Machine.execSubCopyDone s
  | .subAbort q v => Sys2Proof.Machine.execSubAbort q v s
  | .subReadmit q v => Sys2Proof.Machine.execSubReadmit q v s
  | .fspiXcmdGo q v => Sys2Proof.Machine.execFspiXcmdGo q v s
  | .fspiCommandDone bytes => Sys2Proof.Machine.execFspiCommandDone bytes s
  | .bootActGo q v => Sys2Proof.Machine.execBootActGo q v s
  | .partitionWrite q offset v => Sys2Proof.Machine.execPartitionWrite q offset v s
  | .lcAdvanceWrite q v => Sys2Proof.Machine.execLcAdvanceWrite q v s
  | .tamperAssert => Sys2Proof.Machine.execTamperAssert s
  | .partitionWipeDone => Sys2Proof.Machine.execPartitionWipeDone s
  | .hspiWrite bits addr ws => Sys2Proof.Machine.execHspiWrite bits addr ws s
  | .hspiRead bits addr onTime => Sys2Proof.Machine.execHspiRead bits addr onTime s
  | .hspiStatus bits addr => Sys2Proof.Machine.execHspiStatus bits addr s
  | .hspiQread bits addr => Sys2Proof.Machine.execHspiQread bits addr s
  | .hspiFetch bits addr => Sys2Proof.Machine.execHspiFetch bits addr s
  | .hspiReservedFrame bits addr => Sys2Proof.Machine.execHspiReservedFrame bits addr s
  | .hspiPostedAccess => Sys2Proof.Machine.execHspiPostedAccess s
  | .cspiGo q v => Sys2Proof.Machine.execCspiGo q v s
  | .cspiDone rx => Sys2Proof.Machine.execCspiDone rx s
  | .cspiTxWrite q v => Sys2Proof.Machine.execCspiTxWrite q v s
  | .cspiRxRead q => Sys2Proof.Machine.execCspiRxRead q s
  | .pcieMemoryWrite addr ws => Sys2Proof.Machine.execPcieMemoryWrite addr ws s
  | .pcieMemoryRead addr len => Sys2Proof.Machine.execPcieMemoryRead addr len s
  | .pcieUnsupportedRequest => Sys2Proof.Machine.execPcieUnsupportedRequest s
  | .pciePoisonedWrite => Sys2Proof.Machine.execPciePoisonedWrite s
  | .pcieLinkChange up speed width pstate => Sys2Proof.Machine.execPcieLinkChange up speed width pstate s
  | .pcieConfigurationRequest c => Sys2Proof.Machine.execPcieConfigurationRequest c s
  | .membusyNPulseEnd => Sys2Proof.Machine.execMembusyNPulseEnd s
  | .ppsOutFall => Sys2Proof.Machine.execPpsOutFall s
  | .gpioInputChange k level => Sys2Proof.Machine.execGpioInputChange k level s
  | .ts2Sent n => Sys2Proof.Machine.execTs2Sent n s
  | .vddAonRemoval => Sys2Proof.Machine.execVddAonRemoval s

end Sys2Proof.Machine
end

