-- ==== Sys2Proof/Machine/Step.lean ====
section
/-! DEFINITION. One step: the command at the front of the queue, or, on an empty queue, one edge of the clock that drives
TIME. -/

namespace Sys2Proof.Machine

/-- One step. With no command waiting the device sees one edge of the clock that drives TIME (R310, R382; DESIGN CHOICE,
log entry 2), and the accesses that wait at delay banks take the certainly idle cycles there are (R196). -/
def step (s : State) : Host.Outcome State Fault Refusal :=
  match s.pending with
  | [] => onDev s idleStep
  | c :: cs => exec c { s with pending := cs }

/-- `s` with the command a word spells put at the front of its queue; no row of the table gives bits. -/
def State.withFetchWord (s : State) (nbits w : Nat) : State :=
  match Sys2Proof.decodeTableWord nbits w with
  | some c => { s with pending := c :: s.pending }
  | none => s

end Sys2Proof.Machine
end

