-- ==== Sys2Proof/WellFormed.lean ====
section
/-! DEFINITION. Well-formed commands: an operation stands in a place its form has, an operand names what the row admits, and
an access is aligned. A word whose form is not defined is illegal, and exec says what it does (R117). -/

namespace Sys2Proof

/-- A long word. -/
def Issue.long (i : Issue) : Bool := decide (i.slot = .long)

/-- A word of an engine, not of a control core. -/
def Issue.engine (i : Issue) : Bool := decide (i.who.val < 64)

/-- A branch target the word holds: 13 bits for an engine, 32 for a control core (R371). -/
def targetFits (i : Issue) (t : Nat) : Bool := decide (t < if i.engine then 2 ^ 13 else 2 ^ 32)

/-- A D register. -/
def GReg.isD : GReg → Bool
  | .d _ => true
  | _ => false

/-- A D register as second operand. -/
def Src.isD : Src → Bool
  | .reg g => g.isD
  | .imm _ _ => false

/-- An immediate count. -/
def Count.isImm : Count → Bool
  | .imm _ => true
  | .reg _ => false

/-- A requester that accesses the address map: the loader does not. -/
def Req.onBus (q : Req) : Bool := decide (q ≠ .loader)

/-- Bytes of a width. -/
def Width.bytes : Width → Nat
  | .w8 => 1
  | .w16 => 2
  | .w32 => 4
  | .w64 => 8

/-- A naturally aligned address. -/
def Width.aligned (w : Width) (a : Nat) : Bool := decide (a % w.bytes = 0)

/-- A well-formed command. -/
def Instr.wf : Instr → Bool
  | .nop _ => true
  | .done i => i.long && i.engine
  | .br i target => i.long && targetFits i target
  | .brz i _ target => i.long && targetFits i target
  | .brnz i _ target => i.long && targetFits i target
  | .brlc i target => i.long && targetFits i target
  | .call i target => i.long && targetFits i target
  | .callz i _ target => i.long && targetFits i target
  | .callnz i _ target => i.long && targetFits i target
  | .ret i => i.long
  | .rep i _ => i.long
  | .tmark i t target => i.long && i.engine && targetFits i target && decide (1 ≤ t.toNat ∧ t.toNat ≤ 3)
  | .mov i gd ga => i.long || (gd.isD && ga.isD)
  | .movi i gd k v => i.long || (gd.isD && decide (k = .int) && decide ((v.extractLsb' 0 16).signExtend 32 = v))
  | .movcRead i _ c => i.long && decide (c.val < (if i.engine then 9 else 12))
  | .movcWrite i _ c => i.long && decide (c.val < (if i.engine then 9 else 12))
  | .tagxR i _ _ => i.long
  | .tagxW i _ _ _ => i.long
  | .tagxS i _ _ _ => i.long
  | .ld i _ _ second => i.long || second.isNone
  | .st i _ _ second => i.long || second.isNone
  | .ldst i _ _ _ _ => i.long
  | .tas i _ _ => i.long
  | .ldrv i _ _ => i.long
  | .stcn i _ _ _ => i.long
  | .add i _ gd ga b => i.long || (gd.isD && ga.isD && b.isD)
  | .sub i _ gd ga b => i.long || (gd.isD && ga.isD && b.isD)
  | .neg i _ gd ga => i.long || (gd.isD && ga.isD)
  | .abs i _ gd ga => i.long || (gd.isD && ga.isD)
  | .min i gd ga b => i.long || (gd.isD && ga.isD && b.isD)
  | .max i gd ga b => i.long || (gd.isD && ga.isD && b.isD)
  | .cmplt i gd ga b => i.long || (gd.isD && ga.isD && b.isD)
  | .cmple i _ _ _ => i.long
  | .cmpeq i gd ga b => i.long || (gd.isD && ga.isD && b.isD)
  | .addi i _ _ _ _ => !i.long
  | .and i gd ga gb => i.long || (gd.isD && ga.isD && gb.isD)
  | .or i gd ga gb => i.long || (gd.isD && ga.isD && gb.isD)
  | .xor i gd ga gb => i.long || (gd.isD && ga.isD && gb.isD)
  | .not i _ _ => i.long
  | .shl i _ gd ga k => i.long || (gd.isD && ga.isD && k.isImm)
  | .shra i _ gd ga k => i.long || (gd.isD && ga.isD && k.isImm)
  | .shrl i gd ga k => i.long || (gd.isD && ga.isD && k.isImm)
  | .mul i _ gd ga gb => i.long || (gd.isD && ga.isD && gb.isD)
  | .muli i _ _ _ _ => i.long
  | .div i _ _ _ _ => i.long
  | .divi i _ _ _ _ => i.long
  | .divisionResult _ => true
  | .maxi i _ _ _ => i.long
  | .mini i _ _ _ => i.long
  | .qmac i _ _ dk _ => i.long && decide (dk.val ≤ 12)
  | .qmacRt i _ _ dk _ => i.long && decide (dk.val ≤ 12)
  | .qmsb i _ _ dk _ => i.long && decide (dk.val ≤ 12)
  | .qmsbRt i _ _ dk _ => i.long && decide (dk.val ≤ 12)
  | .qext i _ _ _ _ => i.long
  | .qclr i _ => i.long
  | .qld i _ _ => i.long
  | .qadd i _ _ _ _ => i.long
  | .qsub i _ _ _ _ => i.long
  | .qshl i _ _ _ _ => i.long
  | .qshra i _ _ _ _ => i.long
  | .bset i b => i.long || b.ix.isNone
  | .bclr i b => i.long || b.ix.isNone
  | .btgl i b => i.long || b.ix.isNone
  | .btst i gd b => i.long || (gd.isD && b.ix.isNone)
  | .bmovFromBit i _ _ => i.long
  | .bmovFromRegister i _ _ => i.long
  | .band i _ _ _ => i.long
  | .bor i _ _ _ => i.long
  | .bitTas i _ _ => i.long
  | .spinIssue i _ _ => i.long && i.engine
  | .spinGet i _ _ => i.long && i.engine
  | .spinXg i _ _ _ => i.long && i.engine
  | .spinResult _ => true
  | .loadResult _ => true
  | .illegalWord _ => true
  | .wait _ => true
  | .waitResume _ => true
  | .reti _ => true
  | .doLoop _ _ target => decide (target < 2 ^ 32)
  | .ldw _ _ _ => true
  | .stw _ _ _ => true
  | .interruptEntry _ => true
  | .kickoffMark _ _ => true
  | .engineKickoff _ => true
  | .overrunLen _ => true
  | .rallyStart _ => true
  | .frameResolve _ _ => true
  | .sapFrameBoundary _ _ _ _ _ _ => true
  | .sapRxFrameEnd _ _ _ => true
  | .sapClockLoss _ => true
  | .asrcLock _ _ => true
  | .asrcUnlock _ _ _ => true
  | .whistleAssert => true
  | .whistleRelease => true
  | .writeRecord _ _ => true
  | .fillRecord _ _ => true
  | .tableRecord _ _ => true
  | .programRecord _ _ => true
  | .commitRecord _ _ => true
  | .endRecord _ _ => true
  | .regionQuiesced _ => true
  | .ldrGo q _ => q.onBus
  | .ldrAbort q _ => q.onBus
  | .commandedLoadEnd => true
  | .queue0GapTimeout => true
  | .registerWrite q addr w _ => q.onBus && w.aligned addr.toNat
  | .readClear q addr w => q.onBus && w.aligned addr.toNat
  | .wLowRead q addr => q.onBus && decide (addr.toNat % 8 = 0)
  | .wLowWrite q addr _ => q.onBus && decide (addr.toNat % 8 = 0)
  | .wHighWrite q addr _ => q.onBus && decide (addr.toNat % 8 = 4)
  | .mediaWriteComplete _ => true
  | .aonWriteComplete _ => true
  | .engineRegisterWrite q _ offset _ => q.onBus && Width.aligned .w32 offset.toNat
  | .engTagctlWrite q _ _ => q.onBus
  | .localDataHostAccess q _ offset w _ => q.onBus && w.aligned offset.toNat && decide (offset.toNat < 0x3C000)
  | .programBankHostWrite q _ _ offset w _ => q.onBus && w.aligned offset.toNat
  | .groupWindowWrite q _ offset w _ => q.onBus && w.aligned offset.toNat
  | .delayHostAccess q addr w v _ => q.onBus && w.aligned addr.toNat && decide (addr.toNat < (if v.isSome then 0x4000000 else 0xC000000))
  | .aliasAtomicAdd q offset w _ => q.onBus && w.aligned offset.toNat && decide (w ≠ .w64)
  | .aliasAtomicSwap q offset w _ => q.onBus && w.aligned offset.toNat && decide (w ≠ .w64)
  | .aliasBitSet q offset w _ => q.onBus && w.aligned offset.toNat && decide (w ≠ .w64)
  | .aliasBitClear q offset w _ => q.onBus && w.aligned offset.toNat && decide (w ≠ .w64)
  | .tagViewWrite q offset w _ => q.onBus && w.aligned offset.toNat && decide (w ≠ .w64)
  | .dlyBankpwrWrite q _ _ => q.onBus
  | .bankTransitionDone _ _ => true
  | .bankSweepDone _ => true
  | .routeChgWrite q _ => q.onBus
  | .routeGo q _ => q.onBus
  | .routeDiscard q _ => q.onBus
  | .routeBypselWrite q _ => q.onBus
  | .genSineWrite q _ _ => q.onBus
  | .genNoiseWrite q _ _ => q.onBus
  | .mixXpcmdWrite q _ _ => q.onBus
  | .mixGo q _ _ => q.onBus
  | .mixDiscard q _ _ => q.onBus
  | .sapUnmute q _ => q.onBus
  | .guardRtWrite q addr _ => q.onBus && Width.aligned .w32 addr.toNat && decide (addr.toNat / 0x10000 = 0x1C07)
  | .guardWdrel q => q.onBus
  | .wdogKickWrite q _ => q.onBus
  | .wdogCtlWrite q _ => q.onBus
  | .watchdogExpiry => true
  | .ccRun q _ => q.onBus
  | .ccReset q _ => q.onBus
  | .evtSwtrigWrite q _ => q.onBus
  | .evtRouteWrite q _ _ => q.onBus
  | .evtMsixackWrite q _ => q.onBus
  | .eventDelivery _ => true
  | .quePortRead q _ => q.onBus
  | .quePortWrite q _ _ => q.onBus
  | .quePushWrite q _ _ => q.onBus
  | .queFlush q _ => q.onBus
  | .queueCrossingEntry _ => true
  | .clkMtgtWrite q _ _ => q.onBus
  | .clkMctlWrite q _ _ => q.onBus
  | .handoverArm q _ _ => q.onBus
  | .pllLock _ => true
  | .pllLockTimeout _ => true
  | .pllLossOfLock _ => true
  | .timeStepWrite q _ => q.onBus
  | .timeCtlWrite q _ => q.onBus
  | .timeFreqWrite q _ => q.onBus
  | .ppsInEdge _ => true
  | .wclkInEdge _ _ => true
  | .holdoverTimeout => true
  | .aonCalibrationWindow => true
  | .ppsOutPulse => true
  | .linkSignalDetect _ => true
  | .cdrLock _ => true
  | .blockLock _ => true
  | .trainingSetRx _ _ _ _ => true
  | .rateChangeDone _ => true
  | .rateFallback _ => true
  | .linkTrainTimeout _ => true
  | .linkHiber _ _ => true
  | .linkRetrain q _ _ => q.onBus
  | .lyathFrameRx _ _ _ => true
  | .linkMapdataWrite q _ _ => q.onBus
  | .hello _ => true
  | .lsa _ => true
  | .captain _ => true
  | .grant _ => true
  | .runReq _ => true
  | .runAck _ => true
  | .runNak _ => true
  | .runTear _ => true
  | .user _ => true
  | .fabRejoin q _ => q.onBus
  | .isolatedRejoin => true
  | .adjacencyDead _ => true
  | .helloKeepalive _ => true
  | .endOfQuiet => true
  | .grantDeadline => true
  | .tombstoneCreate _ => true
  | .tombstoneExpiry _ => true
  | .lsaReflood => true
  | .runSetup q _ => q.onBus
  | .runTeardown q _ => q.onBus
  | .runTimeout _ => true
  | .fabricGateOpen => true
  | .coachDecision _ _ => true
  | .thermalSensorConversion raw => decide (raw.length = 12)
  | .dvfsOppRequest q _ => q.onBus
  | .dvfsVoltageRequest q _ => q.onBus
  | .dvfsFrequencyRequest q _ => q.onBus
  | .voltageConfirm _ => true
  | .voltageStepFail _ _ => true
  | .pwrModeWrite q _ => q.onBus
  | .pwrVoteWrite q _ _ => q.onBus
  | .domainIdleTimeout _ => true
  | .domainDownTimeout _ => true
  | .domainWakeDone _ => true
  | .pwrEnter q _ => q.onBus
  | .deviceTimerExpiry => true
  | .entryCommitPoint _ => true
  | .wakeNAssert => true
  | .senseCrossing _ _ => true
  | .linkSquelchWake _ => true
  | .hspiCsWake => true
  | .pcieL1Exit => true
  | .perstNRise => true
  | .perstNFall => true
  | .aonAlarm => true
  | .pmbAlert _ => true
  | .exitComplete _ _ => true
  | .offWakeBoot _ _ => true
  | .padRelease q _ => q.onBus
  | .vddAonPowerOn _ _ => true
  | .resetNAssert => true
  | .resetNRise _ => true
  | .loadBegin => true
  | .slotHeaderRead _ ws => decide (ws.length = 16)
  | .blockReadDone _ _ => true
  | .recordsBlock => true
  | .memoryBlock => true
  | .startBlock => true
  | .loaderGateOpen => true
  | .hostPushTimeout => true
  | .subArm q _ => q.onBus
  | .subCopyDone => true
  | .subAbort q _ => q.onBus
  | .subReadmit q _ => q.onBus
  | .fspiXcmdGo q _ => q.onBus
  | .fspiCommandDone _ => true
  | .bootActGo q _ => q.onBus
  | .partitionWrite q offset _ => q.onBus && Width.aligned .w32 offset.toNat
  | .lcAdvanceWrite q _ => q.onBus
  | .tamperAssert => true
  | .partitionWipeDone => true
  | .hspiWrite _ _ _ => true
  | .hspiRead _ _ _ => true
  | .hspiStatus _ _ => true
  | .hspiQread _ _ => true
  | .hspiFetch _ _ => true
  | .hspiReservedFrame _ _ => true
  | .hspiPostedAccess => true
  | .cspiGo q _ => q.onBus
  | .cspiDone _ => true
  | .cspiTxWrite q _ => q.onBus
  | .cspiRxRead q => q.onBus
  | .pcieMemoryWrite _ ws => decide (ws.length ≤ 64)
  | .pcieMemoryRead _ len => decide (1 ≤ len ∧ len ≤ 4096)
  | .pcieUnsupportedRequest => true
  | .pciePoisonedWrite => true
  | .pcieLinkChange _ _ _ _ => true
  | .pcieConfigurationRequest _ => true
  | .membusyNPulseEnd => true
  | .ppsOutFall => true
  | .gpioInputChange _ _ => true
  | .ts2Sent _ => true
  | .vddAonRemoval => true

/-- The place of an instruction word of the engine instruction set; none for the other commands. -/
def Instr.word : Instr → Option Issue
  | .nop i => some i
  | .done i => some i
  | .br i _ => some i
  | .brz i _ _ => some i
  | .brnz i _ _ => some i
  | .brlc i _ => some i
  | .call i _ => some i
  | .callz i _ _ => some i
  | .callnz i _ _ => some i
  | .ret i => some i
  | .rep i _ => some i
  | .tmark i _ _ => some i
  | .mov i _ _ => some i
  | .movi i _ _ _ => some i
  | .movcRead i _ _ => some i
  | .movcWrite i _ _ => some i
  | .tagxR i _ _ => some i
  | .tagxW i _ _ _ => some i
  | .tagxS i _ _ _ => some i
  | .ld i _ _ _ => some i
  | .st i _ _ _ => some i
  | .ldst i _ _ _ _ => some i
  | .tas i _ _ => some i
  | .ldrv i _ _ => some i
  | .stcn i _ _ _ => some i
  | .add i _ _ _ _ => some i
  | .sub i _ _ _ _ => some i
  | .neg i _ _ _ => some i
  | .abs i _ _ _ => some i
  | .min i _ _ _ => some i
  | .max i _ _ _ => some i
  | .cmplt i _ _ _ => some i
  | .cmple i _ _ _ => some i
  | .cmpeq i _ _ _ => some i
  | .addi i _ _ _ _ => some i
  | .and i _ _ _ => some i
  | .or i _ _ _ => some i
  | .xor i _ _ _ => some i
  | .not i _ _ => some i
  | .shl i _ _ _ _ => some i
  | .shra i _ _ _ _ => some i
  | .shrl i _ _ _ => some i
  | .mul i _ _ _ _ => some i
  | .muli i _ _ _ _ => some i
  | .div i _ _ _ _ => some i
  | .divi i _ _ _ _ => some i
  | .maxi i _ _ _ => some i
  | .mini i _ _ _ => some i
  | .qmac i _ _ _ _ => some i
  | .qmacRt i _ _ _ _ => some i
  | .qmsb i _ _ _ _ => some i
  | .qmsbRt i _ _ _ _ => some i
  | .qext i _ _ _ _ => some i
  | .qclr i _ => some i
  | .qld i _ _ => some i
  | .qadd i _ _ _ _ => some i
  | .qsub i _ _ _ _ => some i
  | .qshl i _ _ _ _ => some i
  | .qshra i _ _ _ _ => some i
  | .bset i _ => some i
  | .bclr i _ => some i
  | .btgl i _ => some i
  | .btst i _ _ => some i
  | .bmovFromBit i _ _ => some i
  | .bmovFromRegister i _ _ => some i
  | .band i _ _ _ => some i
  | .bor i _ _ _ => some i
  | .bitTas i _ _ => some i
  | .spinIssue i _ _ => some i
  | .spinGet i _ _ => some i
  | .spinXg i _ _ _ => some i
  | .illegalWord i => some i
  | _ => none

end Sys2Proof
end

