-- ==== Sys2Proof/Safety.lean ====
section
/-! DEFINITION. What counts as a safe run: no step stops, and the addressed memories keep their canonical form; and the words in
which claims say that a command completes. -/

namespace Sys2Proof

/-! ### Kinds of commands -/

/-- The commands a held device still takes: its resets and its supply, and levels of pins it tracks (R53, R484, R507, R514). -/
def Instr.pin : Instr → Bool
  | .whistleAssert => true
  | .whistleRelease => true
  | .perstNRise => true
  | .perstNFall => true
  | .vddAonPowerOn _ _ => true
  | .resetNAssert => true
  | .resetNRise _ => true
  | .tamperAssert => true
  | .partitionWipeDone => true
  | .gpioInputChange _ _ => true
  | .vddAonRemoval => true
  | _ => false

/-- The commands that are accesses of a requester (R19, R411). -/
def Instr.access : Instr → Bool
  | .ldrGo _ _ => true
  | .ldrAbort _ _ => true
  | .registerWrite _ _ _ _ => true
  | .readClear _ _ _ => true
  | .wLowRead _ _ => true
  | .wLowWrite _ _ _ => true
  | .wHighWrite _ _ _ => true
  | .engineRegisterWrite _ _ _ _ => true
  | .engTagctlWrite _ _ _ => true
  | .localDataHostAccess _ _ _ _ _ => true
  | .programBankHostWrite _ _ _ _ _ _ => true
  | .groupWindowWrite _ _ _ _ _ => true
  | .delayHostAccess _ _ _ _ _ => true
  | .aliasAtomicAdd _ _ _ _ => true
  | .aliasAtomicSwap _ _ _ _ => true
  | .aliasBitSet _ _ _ _ => true
  | .aliasBitClear _ _ _ _ => true
  | .tagViewWrite _ _ _ _ => true
  | .dlyBankpwrWrite _ _ _ => true
  | .routeChgWrite _ _ => true
  | .routeGo _ _ => true
  | .routeDiscard _ _ => true
  | .routeBypselWrite _ _ => true
  | .genSineWrite _ _ _ => true
  | .genNoiseWrite _ _ _ => true
  | .mixXpcmdWrite _ _ _ => true
  | .mixGo _ _ _ => true
  | .mixDiscard _ _ _ => true
  | .sapUnmute _ _ => true
  | .guardRtWrite _ _ _ => true
  | .guardWdrel _ => true
  | .wdogKickWrite _ _ => true
  | .wdogCtlWrite _ _ => true
  | .ccRun _ _ => true
  | .ccReset _ _ => true
  | .evtSwtrigWrite _ _ => true
  | .evtRouteWrite _ _ _ => true
  | .evtMsixackWrite _ _ => true
  | .quePortRead _ _ => true
  | .quePortWrite _ _ _ => true
  | .quePushWrite _ _ _ => true
  | .queFlush _ _ => true
  | .clkMtgtWrite _ _ _ => true
  | .clkMctlWrite _ _ _ => true
  | .handoverArm _ _ _ => true
  | .timeStepWrite _ _ => true
  | .timeCtlWrite _ _ => true
  | .timeFreqWrite _ _ => true
  | .linkRetrain _ _ _ => true
  | .linkMapdataWrite _ _ _ => true
  | .fabRejoin _ _ => true
  | .runSetup _ _ => true
  | .runTeardown _ _ => true
  | .dvfsOppRequest _ _ => true
  | .dvfsVoltageRequest _ _ => true
  | .dvfsFrequencyRequest _ _ => true
  | .pwrModeWrite _ _ => true
  | .pwrVoteWrite _ _ _ => true
  | .pwrEnter _ _ => true
  | .padRelease _ _ => true
  | .subArm _ _ => true
  | .subAbort _ _ => true
  | .subReadmit _ _ => true
  | .fspiXcmdGo _ _ => true
  | .bootActGo _ _ => true
  | .partitionWrite _ _ _ => true
  | .lcAdvanceWrite _ _ => true
  | .cspiGo _ _ => true
  | .cspiTxWrite _ _ => true
  | .cspiRxRead _ => true
  | .pcieMemoryWrite _ _ => true
  | .pcieMemoryRead _ _ => true
  | _ => false

/-- The commands that end an operation under way, and need the device to run (R411). -/
def Instr.running : Instr → Bool
  | .mediaWriteComplete _ => true
  | .hspiPostedAccess => true
  | .cspiDone _ => true
  | _ => false

/-- The commands that may write delay memory or a control core's memory beside the accesses: stores, loads and atomics, the
cycles in which waiting accesses of delay memory are served, records, blocks, delay banks, entries and exits, and resets. -/
def Instr.mayWrite : Instr → Bool
  | .ld _ _ _ _ => true
  | .st _ _ _ _ => true
  | .ldst _ _ _ _ _ => true
  | .tas _ _ _ => true
  | .ldrv _ _ _ => true
  | .stcn _ _ _ _ => true
  | .maxi _ _ _ _ => true
  | .mini _ _ _ _ => true
  | .qmac _ _ _ _ _ => true
  | .qmacRt _ _ _ _ _ => true
  | .qmsb _ _ _ _ _ => true
  | .qmsbRt _ _ _ _ _ => true
  | .ldw _ _ _ => true
  | .stw _ _ _ => true
  | .rallyStart _ => true
  | .hspiRead _ _ _ => true
  | .hspiPostedAccess => true
  | .writeRecord _ _ => true
  | .fillRecord _ _ => true
  | .tableRecord _ _ => true
  | .programRecord _ _ => true
  | .commitRecord _ _ => true
  | .endRecord _ _ => true
  | .queue0GapTimeout => true
  | .bankTransitionDone _ _ => true
  | .entryCommitPoint _ => true
  | .exitComplete _ _ => true
  | .offWakeBoot _ _ => true
  | .vddAonPowerOn _ _ => true
  | .vddAonRemoval => true
  | .resetNAssert => true
  | .resetNRise _ => true
  | .slotHeaderRead _ _ => true
  | .blockReadDone _ _ => true
  | .recordsBlock => true
  | .memoryBlock => true
  | .startBlock => true
  | _ => false

end Sys2Proof

namespace Sys2Proof.Machine

/-- The canonical form of the addressed memories: delay memory and the memories of the control cores. -/
def Memory.wf (d : Device) : Bool := sparseWf cellUninit d.delay && sparseWf cellUninit d.ccMem

/-- A state whose memories have their canonical form. -/
def State.safe (s : State) : Bool := Memory.wf s.dev

/-- A run of `n` steps that meets no fault and no refusal, through safe states only. -/
def safeRun : Nat → State → Bool
  | 0, s => s.safe
  | n + 1, s =>
    s.safe && (match step s with
      | .next t => safeRun n t
      | .fault _ => false
      | .refused _ => false)

/-! ### Completion -/

/-- A command completes: its outcome is the next state with this device, and the queue as it was. -/
def completes (c : Instr) (s : State) (d : Device) : Prop := exec c s = .next { s with dev := d }

/-- Whether the next word of a processor lies where it fetches words (R117, R372). -/
def fetchable (d : Device) (n : Fin 68) : Bool :=
  if isCc n then ccFetchOk d n else decide ((ag d n).npc ≤ 8191)

/-- Whether an operation can issue in its place, and its place is not itself an illegal one (R117, R126, R169, R376, R377):
`rep` says that the word may be repeated and may end a DO loop. -/
def mayIssue (d : Device) (i : Issue) (rep : Bool) : Bool :=
  !held d &&
    (match i.slot with
    | .y => (ag d i.who).pair.isSome
    | .x => canIssue d i.who && fetchable d i.who
    | .long =>
      canIssue d i.who && fetchable d i.who && (rep || (decide ((ag d i.who).repLeft = 0) && !atLoopEnd d i.who)))

/-- The device once the word of an operation has issued: X and a long word fetch it, Y comes after X (R121). -/
def issued (d : Device) (i : Issue) : Device :=
  match i.slot with
  | .y => d
  | .x => startPair (fetchWord d i.who) i.who
  | .long => fetchWord d i.who

/-- The end of a word: Y completes its pair (R121). -/
def pairDone (d : Device) (i : Issue) : Device :=
  match i.slot with
  | .y => endPair d i.who
  | _ => d

/-- A word that issues and has the effect `f`. -/
def wordEffect (d : Device) (i : Issue) (f : Device → Device) : Device := pairDone (f (issued d i)) i

/-- The payload an operand of a word supplies, as a signed integer (R127, R129). -/
def operand (d : Device) (i : Issue) (g : GReg) : Int := (readG (srcWork d i) g).p.int

/-- The tag an operand of a word supplies (R127). -/
def operandTag (d : Device) (i : Issue) (g : GReg) : Tag := (readG (srcWork d i) g).t

/-- The payload of a second operand. -/
def second (d : Device) (i : Issue) (b : Src) : Int := (readSrc (srcWork d i) b).p.int

/-- The tag of a second operand. -/
def secondTag (d : Device) (i : Issue) (b : Src) : Tag := (readSrc (srcWork d i) b).t

/-! ### Accesses of the requesters -/

/-- Whether the device carries out an access: it is not held, and runs (R53, R411, R514). -/
def mayReach (d : Device) : Bool := !held d && awake d

/-- The device an access at `a` finds: the domain of its target is ON (R410, R411). -/
def found (d : Device) (a : Nat) : Device := { touch d a with wrNone := false }

/-- What a write access at `a` leaves when its effect leaves `e`: its journal entry follows (R485), and a voter that begins
to hold aborts an entry (R415). -/
def written (e : Device) (q : Req) (a : Nat) : Device := entryCheck (journal { e with wrNone := false } q a e.wrNone)

/-- What a read access leaves when its effect leaves `e` and its data are `v`. -/
def answered (e : Device) (q : Req) (v : Nat) (t : Tag) : Device := entryCheck (respond e q v t)

/-- The address of the access that completes a write of both halves of a W register: by HSPI, the high half (R32, R487). -/
def lastAt (q : Req) (a : Nat) : Nat :=
  match q with
  | .hspi => a + 4
  | _ => a

/-- The device that access finds. -/
def foundPair (d : Device) (q : Req) (a v : Nat) : Device :=
  match q with
  | .hspi => found (busWrite d q a 4 v) (a + 4)
  | _ => found d a

/-! ### Structure records -/

/-- A load path with the words its source supplies, and the batch open. -/
def recordFed (d : Device) (p : Fin 3) (ws : List Word) : Device :=
  let d := if p = 1 then supplyFlash d ws else d
  if (path d p).batch then d else batchBit d p true

/-- The path with the three header words of its next record taken (R58, R64). -/
def headerTaken (d : Device) (p : Fin 3) (ws : List Word) : Device := (gather (recordFed d p ws) p 3).1

/-- The header taken. -/
def headerAt (d : Device) (p : Fin 3) (ws : List Word) : Header := headerIn (path (headerTaken d p ws) p).got

/-- Whether a record of type `t` begins on a path that the loader serves, and its header has come whole, within what is left
of its source. -/
def recordBegins (d : Device) (p : Fin 3) (ws : List Word) (t : Nat) : Prop :=
  let e := if p = 1 then supplyFlash d ws else d
  pathServed e p = true ∧ (p = 2 → getB e F.LDR_STAT.Q0SYNC = true) ∧ nextType e p = some t ∧ (path e p).got = [] ∧
  (path e p).judged = none ∧ (remaining (recordFed d p ws) p).any (fun n => decide (n < 4)) = false ∧
  (gather (recordFed d p ws) p 3).2 = false ∧ (path (headerTaken d p ws) p).got.length = 3 ∧
  (headerAt d p ws).type = t ∧
  (remaining (headerTaken d p ws) p).any (fun n => decide (n + 3 < (headerAt d p ws).len + 4)) = false

/-- Whether the rest of a record has come whole into `e`, and its CRC holds (R87, checks 1 and 3). -/
def recordWhole (g : Device × Bool) (p : Fin 3) (h : Header) : Prop :=
  g.2 = false ∧ (path g.1 p).got.length = h.len + 4 ∧
  crcOf ((path g.1 p).got.take (h.len + 3)) = (path g.1 p).got.getD (h.len + 3) 0

/-- A write that waits for its handshake, crossed (R19). -/
def crossed (e : Device) (a : Nat) : Device := { e with handshake := sparsePut noPend e.handshake a none }

end Sys2Proof.Machine
end

