-- ==== Sys2Proof/Certificates/Slice0/Obligations.lean ====
section
/-! DEFINITION. The statements for the provers: what each command does, what it leaves as it is, and what every step keeps. -/

section

open Sys2Proof Sys2Proof.Machine

/-! ### Words that move and compute -/

/-- NOP, the moves, the moves of the control registers and TAGX complete, and write what R105, R127, R128, R136, R137, R144
and R371 give them. -/
def Obligations.MovesComplete : Prop :=
  ∀ (s : State) (i : Issue) (gd ga gb : GReg) (k : Kind) (v : Word) (imm : BitVec 8) (c : Fin 16),
    mayIssue s.dev i true = true →
      completes (.nop i) s (wordEffect s.dev i (fun d => d)) ∧
      ((Instr.mov i gd ga).wf = true →
        completes (.mov i gd ga) s (wordEffect s.dev i (fun d => wrReg d i.who gd (readG (srcWork d i) ga)))) ∧
      ((Instr.movi i gd k v).wf = true →
        completes (.movi i gd k v) s (wordEffect s.dev i (fun d => wrReg d i.who gd ⟨v, kindTag k⟩))) ∧
      (i.slot = .long →
        completes (.tagxR i gd ga) s (wordEffect s.dev i (fun d =>
          wrReg d i.who gd ⟨BitVec.ofNat 32 (operandTag d i ga).code, .int⟩)) ∧
        completes (.tagxW i gd ga imm) s (wordEffect s.dev i (fun d =>
          wrReg d i.who gd ⟨(readG (srcWork d i) ga).p, tagOfCode (imm.toNat % 16)⟩)) ∧
        completes (.tagxS i gd ga gb) s (wordEffect s.dev i (fun d =>
          wrReg d i.who gd ⟨(readG (srcWork d i) ga).p, tagOfCode ((readG (srcWork d i) gb).p.toNat % 16)⟩))) ∧
      ((Instr.movcRead i gd c).wf = true →
        (∃ x, controlReg (issued s.dev i) i.who c = some x ∧
          completes (.movcRead i gd c) s (wordEffect s.dev i (fun d => wrReg d i.who gd ⟨x, .int⟩))) ∧
        completes (.movcWrite i gd c) s (wordEffect s.dev i (fun d => putControlReg d i.who c (readG (srcWork d i) gd).p)))

/-- The arithmetic words complete: the exact result of the table of the arithmetic operations narrowed under R130, with
the tag of R116 and R133; the comparisons complete with 0 or 1, of kind INT and with the rank of their operands (R144). -/
def Obligations.ArithmeticAndComparisonsComplete : Prop :=
  ∀ (s : State) (i : Issue) (sat : Bool) (gd ga : GReg) (b : Src) (dd da : Fin 16) (imm : BitVec 16),
    mayIssue s.dev i true = true →
      ((Instr.add i sat gd ga b).wf = true →
        completes (.add i sat gd ga b) s (wordEffect s.dev i (fun d =>
          putResult d i.who gd (narrow 32 sat (operand d i ga + second d i b))
            (tag2 (ag d i.who).chk .add (operandTag d i ga) (secondTag d i b))))) ∧
      ((Instr.sub i sat gd ga b).wf = true →
        completes (.sub i sat gd ga b) s (wordEffect s.dev i (fun d =>
          putResult d i.who gd (narrow 32 sat (operand d i ga - second d i b))
            (tag2 (ag d i.who).chk .sub (operandTag d i ga) (secondTag d i b))))) ∧
      ((Instr.neg i sat gd ga).wf = true →
        completes (.neg i sat gd ga) s (wordEffect s.dev i (fun d =>
          putResult d i.who gd (narrow 32 sat (-operand d i ga)) (operandTag d i ga, false)))) ∧
      ((Instr.abs i sat gd ga).wf = true →
        completes (.abs i sat gd ga) s (wordEffect s.dev i (fun d =>
          putResult d i.who gd (narrow 32 sat |operand d i ga|) (operandTag d i ga, false)))) ∧
      ((Instr.min i gd ga b).wf = true →
        completes (.min i gd ga b) s (wordEffect s.dev i (fun d =>
          putResult d i.who gd (exact (Min.min (operand d i ga) (second d i b)))
            (tag2 (ag d i.who).chk .logic (operandTag d i ga) (secondTag d i b))))) ∧
      ((Instr.max i gd ga b).wf = true →
        completes (.max i gd ga b) s (wordEffect s.dev i (fun d =>
          putResult d i.who gd (exact (Max.max (operand d i ga) (second d i b)))
            (tag2 (ag d i.who).chk .logic (operandTag d i ga) (secondTag d i b))))) ∧
      (i.slot ≠ .long →
        completes (.addi i sat dd da imm) s (wordEffect s.dev i (fun d =>
          putResult d i.who (.d dd) (narrow 32 sat (operand d i (.d da) + imm.toInt))
            (tag2 (ag d i.who).chk .add (operandTag d i (.d da)) .int)))) ∧
      ((Instr.cmplt i gd ga b).wf = true →
        completes (.cmplt i gd ga b) s (wordEffect s.dev i (fun d =>
          putResult d i.who gd (exact (if operand d i ga < second d i b then 1 else 0))
            (tagCmp (operandTag d i ga) (secondTag d i b), false)))) ∧
      ((Instr.cmple i gd ga b).wf = true →
        completes (.cmple i gd ga b) s (wordEffect s.dev i (fun d =>
          putResult d i.who gd (exact (if operand d i ga ≤ second d i b then 1 else 0))
            (tagCmp (operandTag d i ga) (secondTag d i b), false)))) ∧
      ((Instr.cmpeq i gd ga b).wf = true →
        completes (.cmpeq i gd ga b) s (wordEffect s.dev i (fun d =>
          putResult d i.who gd (exact (if operand d i ga = second d i b then 1 else 0))
            (tagCmp (operandTag d i ga) (secondTag d i b), false))))

/-- The logical operations and the shifts complete (R133, R145). -/
def Obligations.LogicAndShiftsComplete : Prop :=
  ∀ (s : State) (i : Issue) (sat : Bool) (gd ga gb : GReg) (k : Count),
    mayIssue s.dev i true = true →
      ((Instr.and i gd ga gb).wf = true →
        completes (.and i gd ga gb) s (wordEffect s.dev i (fun d =>
          putResult d i.who gd (exact ((readG (srcWork d i) ga).p &&& (readG (srcWork d i) gb).p).toInt)
            (tag2 (ag d i.who).chk .logic (operandTag d i ga) (operandTag d i gb))))) ∧
      ((Instr.or i gd ga gb).wf = true →
        completes (.or i gd ga gb) s (wordEffect s.dev i (fun d =>
          putResult d i.who gd (exact ((readG (srcWork d i) ga).p ||| (readG (srcWork d i) gb).p).toInt)
            (tag2 (ag d i.who).chk .logic (operandTag d i ga) (operandTag d i gb))))) ∧
      ((Instr.xor i gd ga gb).wf = true →
        completes (.xor i gd ga gb) s (wordEffect s.dev i (fun d =>
          putResult d i.who gd (exact ((readG (srcWork d i) ga).p ^^^ (readG (srcWork d i) gb).p).toInt)
            (tag2 (ag d i.who).chk .logic (operandTag d i ga) (operandTag d i gb))))) ∧
      ((Instr.not i gd ga).wf = true →
        completes (.not i gd ga) s (wordEffect s.dev i (fun d =>
          putResult d i.who gd (exact (~~~(readG (srcWork d i) ga).p).toInt) (operandTag d i ga, false)))) ∧
      ((Instr.shl i sat gd ga k).wf = true →
        completes (.shl i sat gd ga k) s (wordEffect s.dev i (fun d =>
          putResult d i.who gd (shlSigned 32 sat (operand d i ga) (readCount (srcWork d i) k)) (operandTag d i ga, false)))) ∧
      ((Instr.shra i sat gd ga k).wf = true →
        completes (.shra i sat gd ga k) s (wordEffect s.dev i (fun d =>
          putResult d i.who gd (shraSigned 32 sat (operand d i ga) (readCount (srcWork d i) k)) (operandTag d i ga, false)))) ∧
      ((Instr.shrl i gd ga k).wf = true →
        completes (.shrl i gd ga k) s (wordEffect s.dev i (fun d =>
          putResult d i.who gd (exact (shrlSigned (readG (srcWork d i) ga).p (readCount (srcWork d i) k)).toInt)
            (operandTag d i ga, false))))

/-- The products complete (R129, R133), and a division starts: no word issues for 18 cycles, and its result stands ready
for the last of them (R146). -/
def Obligations.ProductsAndDivisionsComplete : Prop :=
  ∀ (s : State) (i : Issue) (sat : Bool) (gd ga gb : GReg),
    (mayIssue s.dev i true = true →
      ((Instr.mul i sat gd ga gb).wf = true →
        completes (.mul i sat gd ga gb) s (wordEffect s.dev i (fun d =>
          putResult d i.who gd (narrow 32 sat (operand d i ga * operand d i gb / 2 ^ 31))
            (tag2 (ag d i.who).chk .mul (operandTag d i ga) (operandTag d i gb))))) ∧
      ((Instr.muli i sat gd ga gb).wf = true →
        completes (.muli i sat gd ga gb) s (wordEffect s.dev i (fun d =>
          putResult d i.who gd (narrow 32 sat (operand d i ga * operand d i gb))
            (tag2 (ag d i.who).chk .mul (operandTag d i ga) (operandTag d i gb)))))) ∧
    (mayIssue s.dev i false = true → i.slot = .long →
      ∀ frac : Bool,
        completes (if frac then .div i sat gd ga gb else .divi i sat gd ga gb) s (wordEffect s.dev i (fun d =>
          let e := ag d i.who
          let q := divide frac sat (operand d i ga) (operand d i gb)
          let t := tag2 e.chk .mul (operandTag d i ga) (operandTag d i gb)
          setAg d i.who { e with
            cyc := e.cur + 18
            div := some ⟨gd, ⟨BitVec.ofInt 32 q.n.r, t.1⟩, q.dz, q.n.v, q.n.sat, t.2, e.cur + 17⟩ })))

/-- The accumulator operations complete, over 80 bits (R94, R130, R145). -/
def Obligations.AccumulatorWordsComplete : Prop :=
  ∀ (s : State) (i : Issue) (sat : Bool) (gd ga : GReg) (qd qa qb : Fin 4) (k : BitVec 8),
    mayIssue s.dev i true = true → i.slot = .long →
      completes (.qext i sat gd qa k) s (wordEffect s.dev i (fun d =>
        let q := (srcWork d i).q[qa]
        putResult d i.who gd
          (narrow 32 sat (if 0 ≤ k.toInt then q.v.toInt * 2 ^ k.toInt.toNat / 2 ^ 31
            else q.v.toInt / 2 ^ (31 + (-k.toInt).toNat))) (q.t, false))) ∧
      completes (.qclr i qd) s (wordEffect s.dev i (fun d => wrQ d i.who qd ⟨0, .int⟩)) ∧
      completes (.qld i qd ga) s (wordEffect s.dev i (fun d =>
        wrQ d i.who qd ⟨BitVec.ofInt 80 (operand d i ga * 2 ^ 31), operandTag d i ga⟩)) ∧
      (∀ minus : Bool,
        completes (if minus then .qsub i sat qd qa qb else .qadd i sat qd qa qb) s (wordEffect s.dev i (fun d =>
          let x := (srcWork d i).q[qa]
          let y := (srcWork d i).q[qb]
          let r := narrow 80 sat (if minus then x.v.toInt - y.v.toInt else x.v.toInt + y.v.toInt)
          let t := tag2 (ag d i.who).chk .mul x.t y.t
          tagFault (orStat (wrQ d i.who qd ⟨BitVec.ofInt 80 r.r, t.1⟩) i.who r.v r.sat) i.who t.2))) ∧
      (∀ right : Bool,
        completes (if right then .qshra i sat qd qa k else .qshl i sat qd qa k) s (wordEffect s.dev i (fun d =>
          let x := (srcWork d i).q[qa]
          let r := if right then shraSigned 80 sat x.v.toInt k.toInt else shlSigned 80 sat x.v.toInt k.toInt
          orStat (wrQ d i.who qd ⟨BitVec.ofInt 80 r.r, x.t⟩) i.who r.v r.sat)))

/-- The words over a quad complete. QMAC and QMSB, with or without the rotation: X is read through port 0, each accumulator
takes its product, narrowed to 80 bits, and the second access is a load (R148, R149). MAXI and MINI: the first repetition takes
the candidate and index 0, a later one a strictly better candidate and its index, or only the tag (R147). -/
def Obligations.QuadWordsComplete : Prop :=
  (∀ (s : State) (i : Issue) (sat rt minus : Bool) (m1 : Ma) (dk : Fin 16) (two : Option (Fin 16 × Ma)),
    mayIssue s.dev i true = true → i.slot = .long → dk.val ≤ 12 →
      completes
        (match minus, rt with
          | false, false => .qmac i sat m1 dk two
          | false, true => .qmacRt i sat m1 dk two
          | true, false => .qmsb i sat m1 dk two
          | true, true => .qmsbRt i sat m1 dk two) s
        (wordEffect s.dev i (fun d =>
          let w := srcWork d i
          let r := loadWord (stepPtr d i w m1) i 0 w m1
          let d := (List.finRange 4).foldl (macOne i sat minus r.2 dk w) (if isCc i.who then r.1 else tally r.1 1 1)
          let d := if rt then rotate i dk w d else d
          match two with
          | none => d
          | some (dl, m2) => doLoad d i 1 w (.d dl) m2))) ∧
  (∀ (s : State) (i : Issue) (max : Bool) (gd : Fin 16) (an am : Fin 8),
    mayIssue s.dev i true = true → i.slot = .long →
      completes (if max then .maxi i gd an am else .mini i gd an am) s (wordEffect s.dev i (fun d =>
        let w := srcWork d i
        let r := loadWord (stepPtr d i w ⟨an, an, .post⟩) i 0 w ⟨an, an, .post⟩
        let e := ag r.1 i.who
        let old := w.d[gd]
        let t := tag2 e.chk .logic old.t r.2.t
        if e.repCur = 0 then wrReg (wrReg r.1 i.who (.d gd) r.2) i.who (.a am) ⟨0, .int⟩
        else if (if max then old.p.toInt < r.2.p.toInt else r.2.p.toInt < old.p.toInt) then
          wrReg (tagFault (wrReg r.1 i.who (.d gd) ⟨r.2.p, t.1⟩) i.who t.2) i.who (.a am) ⟨BitVec.ofNat 32 e.repCur, .int⟩
        else tagFault (wrReg r.1 i.who (.d gd) ⟨old.p, t.1⟩) i.who t.2)))

/-! ### Flow -/

/-- The flow words complete (R125, R151 to R154, R169, R175): a taken branch goes to its target in three cycles, one not taken
changes nothing, and a call pushes the address after it; DONE ends the rally in its cycle; REP repeats the next word; TMARK
enters a tier that runs and skips one that does not. -/
def Obligations.FlowCompletes : Prop :=
  (∀ (s : State) (i : Issue) (gc : GReg) (target : Nat),
    mayIssue s.dev i false = true → (Instr.br i target).wf = true →
      let zero := fun d : Device => (readG (srcWork d i) gc).p = 0
      completes (.br i target) s (wordEffect s.dev i (fun d => jump d i.who target)) ∧
      completes (.brz i gc target) s (wordEffect s.dev i (fun d => if zero d then jump d i.who target else d)) ∧
      completes (.brnz i gc target) s (wordEffect s.dev i (fun d => if zero d then d else jump d i.who target)) ∧
      completes (.brlc i target) s (wordEffect s.dev i (fun d =>
        let e := ag d i.who
        if e.lc = 0 then d else jump (setAg d i.who { e with lc := e.lc - 1 }) i.who target)) ∧
      completes (.call i target) s (wordEffect s.dev i (fun d => doCall d i.who target)) ∧
      completes (.callz i gc target) s (wordEffect s.dev i (fun d => if zero d then doCall d i.who target else d)) ∧
      completes (.callnz i gc target) s (wordEffect s.dev i (fun d => if zero d then d else doCall d i.who target)) ∧
      (¬ (rsTraps (issued s.dev i) i.who = true ∧ (ag (issued s.dev i) i.who).rsDepth = 0) →
        completes (.ret i) s (wordEffect s.dev i (fun d =>
          let e := ag d i.who
          jump (setAg d i.who (rsPopped e)) i.who (e.rs[rsSlot e.rsTop]).toNat)))) ∧
  (∀ (s : State) (i : Issue) (count t : BitVec 12) (target : Nat),
    mayIssue s.dev i false = true → i.slot = .long →
      (isCc i.who = false →
        completes (.done i) s (wordEffect s.dev i (fun d => endRally d i.who false ((ag d i.who).cur + 1)))) ∧
      ((isCc i.who = true ∨ (ag s.dev i.who).npc < 8191) →
        unrepeatable (isCc i.who) (progHigh s.dev i.who ((ag s.dev i.who).npc + 1)) = false →
        completes (.rep i count) s (wordEffect s.dev i (fun d =>
          setAg d i.who { ag d i.who with repLeft := count.toNat + 1, repN := count.toNat + 1 }))) ∧
      ((Instr.tmark i t target).wf = true → (ag (issued s.dev i) i.who).curt < t.toNat →
        completes (.tmark i t target) s (wordEffect s.dev i (fun d =>
          let e := ag d i.who
          if e.runs.getLsbD t.toNat then
            setAg d i.who { e with tierStk := (e.curt, target) :: e.tierStk, curt := t.toNat }
          else jump d i.who target))))

/-- The return stack (R125): a push and a pop that neither overflow nor underflow move TOP by 1 modulo 8 and the depth by 1,
and a pop returns what the push left; at the ends, WRAP mode keeps the depth and sets RSW, and TRAP mode faults. -/
def Obligations.ReturnStackRule : Prop :=
  ∀ (d : Device) (n : Fin 68) (e : Engine) (a : Word) (target : Nat), e.rsTop < 8 →
    ((rsPushed e a).rs[rsSlot (e.rsTop + 1)] = a ∧ (rsPopped e).rs = e.rs ∧
      ∀ k : Fin 8, k ≠ rsSlot (e.rsTop + 1) → (rsPushed e a).rs[k] = e.rs[k]) ∧
    (e.rsDepth < 8 →
      (rsPushed e a).rsDepth = e.rsDepth + 1 ∧ (rsPushed e a).rsTop = (e.rsTop + 1) % 8 ∧
      (rsPushed e a).statRsw = e.statRsw ∧
      (rsPopped (rsPushed e a)).rsTop = e.rsTop ∧ (rsPopped (rsPushed e a)).rsDepth = e.rsDepth) ∧
    (e.rsDepth = 8 → (rsPushed e a).rsDepth = 8 ∧ (rsPushed e a).rsTop = (e.rsTop + 1) % 8 ∧ (rsPushed e a).statRsw = true) ∧
    (0 < e.rsDepth → (rsPopped e).rsDepth = e.rsDepth - 1 ∧ (rsPopped e).rsTop = (e.rsTop + 7) % 8 ∧
      (rsPopped e).statRsw = e.statRsw) ∧
    (e.rsDepth = 0 → (rsPopped e).rsDepth = 0 ∧ (rsPopped e).rsTop = (e.rsTop + 7) % 8 ∧ (rsPopped e).statRsw = true) ∧
    (¬ (rsTraps d n = true ∧ 8 ≤ (ag d n).rsDepth) → (isCc n = true ∨ (ag d n).pc + 1 < 8192) →
      doCall d n target = jump (setAg d n (rsPushed (ag d n) (BitVec.ofNat 32 ((ag d n).pc + 1)))) n target) ∧
    (∀ (s : State) (i : Issue), mayIssue s.dev i false = true → i.slot = .long →
      ¬ (rsTraps (issued s.dev i) i.who = true ∧ (ag (issued s.dev i) i.who).rsDepth = 0) →
        completes (.ret i) s (wordEffect s.dev i (fun d => jump (setAg d i.who (rsPopped (ag d i.who))) i.who
          ((ag d i.who).rs[rsSlot (ag d i.who).rsTop]).toNat))) ∧
    (rsTraps d n = true → 8 ≤ (ag d n).rsDepth → doCall d n target = rsFault d n) ∧
    (∀ (s : State) (i : Issue), mayIssue s.dev i false = true → i.slot = .long →
      rsTraps (issued s.dev i) i.who = true → (ag (issued s.dev i) i.who).rsDepth = 0 →
        completes (.ret i) s (wordEffect s.dev i (fun d => rsFault d i.who))) ∧
    (ag (rsFault d n) n).fRs = true ∧ (ag (rsFault d n) n).rsDepth = (ag d n).rsDepth ∧
    (ag (rsFault d n) n).rsTop = (ag d n).rsTop ∧ (ag (rsFault d n) n).rs = (ag d n).rs

/-- An undefined form is an illegal word: it issues, has no effect, sets FAULT.ILL and FPC, and ends an engine's rally or
halts a control core (R117, R118, R375). -/
def Obligations.UndefinedFormsFault : Prop :=
  ∀ (s : State) (c : Instr) (i : Issue), c.word = some i → i.slot = .long → c.wf = false →
    mayIssue s.dev i false = true →
      completes c s (illWord s.dev i.who (ag s.dev i.who).npc) ∧
      completes (.illegalWord i) s (illWord s.dev i.who (ag s.dev i.who).npc) ∧
      (ag (illWord s.dev i.who (ag s.dev i.who).npc) i.who).fIll = true ∧
      (ag (illWord s.dev i.who (ag s.dev i.who).npc) i.who).fpc = (ag s.dev i.who).npc ∧
      (isCc i.who = false → (ag (illWord s.dev i.who (ag s.dev i.who).npc) i.who).phase = .ended) ∧
      (isCc i.who = true → (illWord s.dev i.who (ag s.dev i.who).npc).ccx[coreOf i.who].halt = true)

/-! ### What the shared operations of a word do -/

/-- The issue of a long word of an engine (R123, R152, R154): the program counter takes the word's address, one cycle passes,
the next word is the one after it unless a repetition goes on, every load due is in its register, and nothing but the engine's
own record changes. -/
def Obligations.IssueAdvancesTheEngine : Prop :=
  ∀ (d : Device) (n : Fin 68), isCc n = false →
    fetchWord d n = setAg d n (ag (fetchWord d n) n) ∧
    (ag (fetchWord d n) n).pc = (ag d n).npc ∧
    (ag (fetchWord d n) n).cur = (ag d n).cyc ∧
    (ag (fetchWord d n) n).cyc = (ag d n).cyc + 1 ∧
    (ag (fetchWord d n) n).npc = (if 1 < (ag d n).repLeft then (ag d n).npc else (ag d n).npc + 1) ∧
    (ag (fetchWord d n) n).repLeft = (ag d n).repLeft - 1 ∧
    (∀ l ∈ (ag (fetchWord d n) n).pend, (ag d n).cyc < l.due) ∧
    (∀ (g : GReg) (v : TWord), (ag d n).div = none → (ag d n).pend = [⟨g, v, (ag d n).cyc⟩] →
      (ag (fetchWord d n) n).w = writeG (ag d n).chk (ag d n).w g v)

/-- A result is written with its tag, its status bits are combined with those set, and a type-check failure is recorded; an
outstanding load of the register is discarded, and nothing else changes (R124, R128, R130, R133). -/
def Obligations.ResultIsWritten : Prop :=
  ∀ (d : Device) (n : Fin 68) (g : GReg) (r : Narrowed) (t : Tag × Bool),
    putResult d n g r t = setAg d n { ag d n with
      w := writeG (ag d n).chk (ag d n).w g ⟨BitVec.ofInt 32 r.r, t.1⟩
      pend := (ag d n).pend.filter (fun l => !decide (l.reg = g))
      statV := (ag d n).statV || r.v
      statSat := (ag d n).statSat || r.sat
      fTag := (ag d n).fTag || t.2
      warn := (ag d n).warn || t.2 }

/-- A register reads as it was written, in the form its kind has, and every other register as before: M, L and E drop the
tag, An turns it into its poison bit, and a part of Qn replaces its bits of Qn and gives Qn its tag (R95, R96, R127, R128). -/
def Obligations.RegisterReadsAsWritten : Prop :=
  ∀ (chk : Bool) (w : Work) (v : TWord),
    (∀ i, readG (writeG chk w (.d i) v) (.d i) = v) ∧
    (∀ i, readG (writeG chk w (.m i) v) (.m i) = ⟨v.p, .int⟩) ∧
    (∀ i, readG (writeG chk w (.l i) v) (.l i) = ⟨v.p, .int⟩) ∧
    (∀ i, readG (writeG chk w (.e i) v) (.e i) = ⟨v.p, .int⟩) ∧
    (∀ i, readG (writeG chk w (.a i) v) (.a i) =
      ⟨v.p, if v.t = .poison ∨ v.t = .uninit ∨ v.t = .invalid ∨ (chk = true ∧ (v.t = .sample ∨ v.t = .coef))
        then .poison else .addr⟩) ∧
    (∀ n, readG (writeG chk w (.ql n) v) (.ql n) = v ∧ readG (writeG chk w (.qh n) v) (.qh n) = v ∧
      readG (writeG chk w (.qg n) v) (.qg n) = ⟨(v.p.extractLsb' 0 16).signExtend 32, v.t⟩ ∧
      (∀ g h : GReg, partOfQ n g = true → partOfQ n h = true → g ≠ h →
        readG (writeG chk w g v) h = ⟨(readG w h).p, v.t⟩)) ∧
    (∀ g h : GReg, g ≠ h → (∀ n, ¬ (partOfQ n g = true ∧ partOfQ n h = true)) →
      readG (writeG chk w g v) h = readG w h)

/-- R130: a result in the range of the width is kept; one beyond it saturates to full scale of its sign with SAT, or wraps
with V; and the STAT bits of an operation are combined with those set before it. -/
def Obligations.NarrowingFollowsTheWidth : Prop :=
  (∀ (d : Device) (n : Fin 68) (v sat : Bool),
    orStat d n v sat = setAg d n { ag d n with statV := (ag d n).statV || v, statSat := (ag d n).statSat || sat }) ∧
  ∀ (w : Nat) (r : Int), 0 < w →
    ((-(2 ^ (w - 1) : Int) ≤ r ∧ r ≤ 2 ^ (w - 1) - 1) → ∀ s, narrow w s r = ⟨r, false, false⟩) ∧
    (2 ^ (w - 1) - 1 < r → narrow w true r = ⟨2 ^ (w - 1) - 1, false, true⟩) ∧
    (r < -(2 ^ (w - 1) : Int) → narrow w true r = ⟨-(2 ^ (w - 1)), false, true⟩) ∧
    (r < -(2 ^ (w - 1) : Int) ∨ 2 ^ (w - 1) - 1 < r →
      (narrow w false r).v = true ∧ (narrow w false r).sat = false ∧
      (narrow w false r).r % 2 ^ w = r % 2 ^ w ∧
      -(2 ^ (w - 1) : Int) ≤ (narrow w false r).r ∧ (narrow w false r).r ≤ 2 ^ (w - 1) - 1)

/-- The tag of a result of two counted operands (R116, R133): with a rank above 0 among them it is an operand's tag of the
highest rank; else it is the kind of the table, and a failure gives POISON with FAULT.TAG under CHK and INT without it. -/
def Obligations.TagFollowsRankAndKind : Prop :=
  ∀ (chk : Bool) (rule : KindRule) (a b : Tag),
    (0 < a.rank ∨ 0 < b.rank →
      ((tag2 chk rule a b).1 = a ∨ (tag2 chk rule a b).1 = b) ∧
      (tag2 chk rule a b).1.rank = Nat.max a.rank b.rank ∧ (tag2 chk rule a b).2 = false) ∧
    (a.rank = 0 → b.rank = 0 →
      (∀ k, kindOf rule a b = some k → tag2 chk rule a b = (k, false)) ∧
      (kindOf rule a b = none → tag2 true rule a b = (.poison, true) ∧ tag2 false rule a b = (.int, false)) ∧
      (a ≠ .addr → b ≠ .addr → rule ≠ .cmp → kindOf rule a b =
        some (if a = .sample ∨ b = .sample then .sample else if a = .coef ∨ b = .coef then .coef else .int)) ∧
      (kindOf .cmp a b = some .int) ∧
      (a = .addr → b = .addr → kindOf .add a b = none ∧ kindOf .sub a b = some .int ∧ kindOf .logic a b = some .addr ∧
        kindOf .mul a b = none) ∧
      (a = .addr → b = .int → kindOf .add a b = some .addr ∧ kindOf .sub a b = some .addr ∧ kindOf .logic a b = some .addr ∧
        kindOf .mul a b = none) ∧
      (a = .int → b = .addr → kindOf .add a b = some .addr ∧ kindOf .sub a b = none ∧ kindOf .logic a b = some .addr ∧
        kindOf .mul a b = none))

/-- R134: "An updated by Mm" is linear when Ln is 0, and otherwise the address in the buffer of Ln words from En that lies Mm
words on, whatever the size of Mm and wherever An lies. -/
def Obligations.AddressUpdateIsCircular : Prop :=
  ∀ (w : Work) (n m : Fin 8),
    (w.l[n] = 0 → updated w n m = w.a[n] + w.m[m]) ∧
    (w.l[n] ≠ 0 → ∃ k : Nat, k < (w.l[n]).toNat ∧ updated w n m = w.e[n] + BitVec.ofNat 32 k ∧
      ((k : Int) - ((w.a[n]).toNat - (w.e[n]).toNat + (w.m[m]).toInt)) % (w.l[n]).toNat = 0)

/-- The quotients of R146: a division by zero gives full scale of the dividend's sign, or 0, with DZ alone; otherwise the
floor of the exact quotient is narrowed. The shifts at their ends (R145, R155): a count of the width or more, a negative count,
and count −128. -/
def Obligations.QuotientsAndShiftsAtTheirEnds : Prop :=
  (∀ (s : Bool) (a b : Int),
    (∀ frac, divide frac s a 0 =
      ⟨⟨if 0 < a then 2 ^ 31 - 1 else if a < 0 then -(2 ^ 31) else 0, false, false⟩, true⟩) ∧
    (b ≠ 0 → ∃ q f : Int,
      divide false s a b = ⟨narrow 32 s q, false⟩ ∧ divide true s a b = ⟨narrow 32 s f, false⟩ ∧
      (0 < b → q * b ≤ a ∧ a < (q + 1) * b ∧ f * b ≤ a * 2 ^ 31 ∧ a * 2 ^ 31 < (f + 1) * b) ∧
      (b < 0 → a ≤ q * b ∧ (q + 1) * b < a ∧ a * 2 ^ 31 ≤ f * b ∧ (f + 1) * b < a * 2 ^ 31))) ∧
  (∀ (w : Nat) (s : Bool) (a k : Int), 0 < w →
    (k < 0 → shlSigned w s a k = shraSigned w s a (-k) ∧ shraSigned w s a k = shlSigned w s a (-k)) ∧
    ((w : Int) ≤ k →
      shlSigned w false a k = (if a = 0 then ⟨0, false, false⟩ else ⟨0, true, false⟩) ∧
      shlSigned w true a k = (if a = 0 then ⟨0, false, false⟩
        else ⟨if 0 < a then 2 ^ (w - 1) - 1 else -(2 ^ (w - 1)), false, true⟩) ∧
      (-(2 ^ (w - 1) : Int) ≤ a → a < 2 ^ (w - 1) → shraSigned w s a k = ⟨if a < 0 then -1 else 0, false, false⟩)) ∧
    (0 ≤ k → k < w → shlSigned w s a k = narrow w s (a * 2 ^ k.toNat) ∧ shraSigned w s a k = ⟨a / 2 ^ k.toNat, false, false⟩))

/-! ### Words that reach memory -/

/-- Loads, stores and the atomics complete: each access goes through its specifier, on its port, with the registers as they
stood before the word (R122, R135, R138, R140 to R142). -/
def Obligations.MemoryWordsComplete : Prop :=
  ∀ (s : State) (i : Issue) (g1 g2 : GReg) (m1 m2 : Ma) (two : Option (GReg × Ma)),
    mayIssue s.dev i true = true →
      let old := fun d : Device => srcWork d i
      ((i.slot = .long ∨ two = none) →
        completes (.ld i g1 m1 two) s (wordEffect s.dev i (fun d =>
          match two with
          | none => doLoad d i (firstPort i) (old d) g1 m1
          | some (g, m) => doLoad (doLoad d i (firstPort i) (old d) g1 m1) i 1 (old d) g m)) ∧
        completes (.st i g1 m1 two) s (wordEffect s.dev i (fun d =>
          match two with
          | none => doStore d i (firstPort i) (old d) g1 m1
          | some (g, m) => doStore (doStore d i (firstPort i) (old d) g1 m1) i 1 (old d) g m))) ∧
      (i.slot = .long →
        completes (.ldst i g1 m1 g2 m2) s (wordEffect s.dev i (fun d =>
          doStore (doLoad d i 0 (old d) g1 m1) i 1 (old d) g2 m2)) ∧
        completes (.tas i g1 m1) s (wordEffect s.dev i (fun d =>
          doAtomic d i (old d) g1 m1 false (fun d a => if isCc i.who then ccTas d i a else engTas d i a))) ∧
        completes (.ldrv i g1 m1) s (wordEffect s.dev i (fun d =>
          doAtomic d i (old d) g1 m1 true (fun d a => if isCc i.who then ccLdrv d i a else engLdrv d i a))) ∧
        completes (.stcn i g1 m1 g2) s (wordEffect s.dev i (fun d =>
          doAtomic d i (old d) g2 m1 true (fun d a =>
            if isCc i.who then ccStcn d i a (readG (old (issued s.dev i)) g1)
            else engStcn d i a (readG (old (issued s.dev i)) g1)))))

/-- An engine's load, store, TAS and STCN of local data (R99, R101, R138, R140 to R142): a load takes the word, POISON with
FAULT.PAR where its parity fails; a store is what the word then reads as, and every other word of local data reads as
before; a TAS takes the old word and leaves 1 tagged INT; an STCN stores if the word is reserved, and gives the reservation
up. -/
def Obligations.LocalDataAccesses : Prop :=
  ∀ (d : Device) (n : Fin 68) (port a : Nat) (v : TWord), a < 0xC000 →
    let i : Issue := ⟨n, .long⟩
    let c := localCell d n a
    engLoad d i port a = (if c.bad then parFault d n else d, if c.bad then ⟨c.w.p, .poison⟩ else c.w) ∧
    (localCell (engStore d i port a v) n a).w = v ∧
    (∀ b, b ≠ a → localCell (engStore d i port a v) n b = localCell d n b) ∧
    ((ag d n).own ≠ .fenced →
      (engTas d i a).2 = cellRead c ∧ (localCell (engTas d i a).1 n a).w = ⟨1, .int⟩ ∧
      ((ag d n).resv = some (.localData n.val a) →
        (engStcn d i a v).2 = ⟨1, .int⟩ ∧ (localCell (engStcn d i a v).1 n a).w = v)) ∧
    ((ag d n).resv ≠ some (.localData n.val a) →
      engStcn d i a v = (setResv d n none, ⟨0, .int⟩)) ∧
    (ag (engStcn d i a v).1 n).resv = none

/-- R100 and R97: at an unmapped address a load delivers POISON, a store is dropped, and the atomics have no memory effect;
FAULT.ADDR is set. Through a poisoned pointer the same holds with FAULT.TAG, and the address update still takes place. -/
def Obligations.UnmappedAndPoisonedAccesses : Prop :=
  ∀ (d : Device) (n : Fin 68) (port a : Nat) (v : TWord) (g : GReg) (w : Work) (m : Ma),
    let i : Issue := ⟨n, .long⟩
    (engTarget a = .unmapped →
      engLoad d i port a = (addrFault d n, ⟨0, .poison⟩) ∧ engStore d i port a v = addrFault d n ∧
      engTas d i a = (addrFault d n, ⟨0, .poison⟩) ∧
      engLdrv d i a = (setResv (addrFault d n) n none, ⟨0, .poison⟩) ∧
      engStcn d i a v = (addrFault (setResv d n none) n, ⟨0, .poison⟩) ∧
      (ag (addrFault d n) n).fAddr = true ∧ (ag (addrFault d n) n).phase = (ag d n).phase) ∧
    (maPoison w m = true →
      loadWord (stepPtr d i w m) i port w m = (tagFault (stepPtr d i w m) n true, ⟨0, .poison⟩) ∧
      doStore d i port w g m = tagFault (stepPtr d i w m) n true ∧
      (ag (tagFault (stepPtr d i w m) n true) n).fTag = true ∧
      (ag (tagFault (stepPtr d i w m) n true) n).phase = (ag d n).phase ∧
      (∀ x, maUpdate w m = some x → (ag (tagFault (stepPtr d i w m) n true) n).w.a[m.n] = x) ∧
      (∀ (resv : Bool) (f : Device → Nat → Device × TWord),
        doAtomic d i w g m resv f = giveReg (tagFault
          (if resv then setResv (stepPtr d i w m) n none else stepPtr d i w m) n true) i w m g ⟨0, .poison⟩))

/-- An engine's store to delay memory that its slot grants writes the word with fresh parity, clears every reservation on it,
and leaves every other word of delay memory and of the control-core memories as it was; one that it does not grant leaves all
of them (R138, R141, R191 to R193, R206, R208). -/
def Obligations.DelayStoresWriteOneWord : Prop :=
  ∀ (d : Device) (i : Issue) (port a : Nat) (v : TWord) (w : Nat), engTarget a = .delay w →
    (delayWay d i.who port w = .performed →
      delayCell (engStore d i port a v) w = ⟨v, false⟩ ∧
      (∀ n, (ag (engStore d i port a v) n).resv ≠ some (.delay w)) ∧
      (∀ x, x ≠ w → delayCell (engStore d i port a v) x = delayCell d x) ∧
      (∀ x, ccCell (engStore d i port a v) x = ccCell d x)) ∧
    (delayWay d i.who port w ≠ .performed →
      (∀ x, delayCell (engStore d i port a v) x = delayCell d x) ∧ (∀ x, ccCell (engStore d i port a v) x = ccCell d x))

/-- The landing of a load and of a division complete: the register takes the value at its cycle, with the division's status
(R104, R123, R146). -/
def Obligations.LandingsComplete : Prop :=
  ∀ (s : State) (n : Fin 68), held s.dev = false →
    (∀ l ls, (ag s.dev n).pend = l :: ls → (l.due ≤ (ag s.dev n).cyc ∨ (isCc n = false ∧ (ag s.dev n).phase ≠ .rallying)) →
      completes (.loadResult n) s (setAg s.dev n { ag s.dev n with
        pend := ls, w := writeG (ag s.dev n).chk (ag s.dev n).w l.reg l.val })) ∧
    (∀ p, (ag s.dev n).div = some p → (isCc n = true ∨ p.last < (ag s.dev n).limit) →
      completes (.divisionResult n) s (setAg s.dev n { ag s.dev n with
        w := writeG (ag s.dev n).chk (ag s.dev n).w p.gd p.val
        pend := (ag s.dev n).pend.filter (fun l => !decide (l.reg = p.gd))
        statDz := (ag s.dev n).statDz || p.dz
        statV := (ag s.dev n).statV || p.v
        statSat := (ag s.dev n).statSat || p.sat
        fTag := (ag s.dev n).fTag || p.fail
        warn := (ag s.dev n).warn || p.fail
        div := none }))

/-! ### Bits, Spin units, control cores -/

/-- The bit operations complete (R111 to R115, R150). -/
def Obligations.BitWordsComplete : Prop :=
  ∀ (s : State) (i : Issue) (gd : GReg) (b : BitRef) (bb : BitVec 12),
    mayIssue s.dev i true = true →
      let k := fun d : Device => bitAddr (srcWork d i) b
      ((Instr.bset i b).wf = true →
        completes (.bset i b) s (wordEffect s.dev i (fun d => writeBit d i (k d) true)) ∧
        completes (.bclr i b) s (wordEffect s.dev i (fun d => writeBit d i (k d) false)) ∧
        completes (.btgl i b) s (wordEffect s.dev i (fun d => writeBit d i (k d) (!foundBit d i (k d))))) ∧
      ((Instr.btst i gd b).wf = true →
        completes (.btst i gd b) s (wordEffect s.dev i (fun d => wrReg d i.who gd (bitWord (readBit d i (k d)))))) ∧
      (i.slot = .long →
        completes (.bmovFromBit i b bb) s (wordEffect s.dev i (fun d => writeBit d i (k d) (readBit d i bb.toNat))) ∧
        completes (.bmovFromRegister i b gd) s (wordEffect s.dev i (fun d =>
          writeBit d i (k d) (decide ((readG (srcWork d i) gd).p ≠ 0)))) ∧
        completes (.band i gd b bb) s (wordEffect s.dev i (fun d =>
          wrReg d i.who gd (bitWord (readBit d i (k d) && readBit d i bb.toNat)))) ∧
        completes (.bor i gd b bb) s (wordEffect s.dev i (fun d =>
          wrReg d i.who gd (bitWord (readBit d i (k d) || readBit d i bb.toNat)))) ∧
        completes (.bitTas i gd b) s (wordEffect s.dev i (fun d =>
          wrReg (tasBit d i (k d)).1 i.who gd (bitWord (tasBit d i (k d)).2))))

/-- Private flags and team bits (R112 to R114, R150, R478): a flag reads as it was last written and belongs to one engine; a
status bit takes no write; a team bit is written by the role's owner alone, and a fenced engine's write is dropped and
counted. -/
def Obligations.BitsAreKept : Prop :=
  ∀ (d : Device) (n m : Fin 68) (b c : Nat) (v : Bool), isCc n = false →
    let i : Issue := ⟨n, .long⟩
    (b < 0x800 →
      readBit (writeBit d i b v) i b = v ∧ (c ≠ b → c < 0x800 → readBit (writeBit d i b v) i c = readBit d i c) ∧
      (m ≠ n → ag (writeBit d i b v) m = ag d m) ∧ (writeBit d i b v).team = d.team ∧
      (tasBit d i b).2 = readBit d i b ∧ readBit (tasBit d i b).1 i b = true) ∧
    (0x800 ≤ b → b < 0xC00 → writeBit d i b v = d ∧ tasBit d i b = (d, bitAt (ag d n).captured b)) ∧
    (0xC00 ≤ b → b < 0x1000 →
      ((ag d n).own = .owner →
        bitAt (writeBit d i b v).team[teamGroup d n] (b - 0xC00) = v ∧ (tasBit d i b).2 = bitAt d.team[teamGroup d n] (b - 0xC00)) ∧
      ((ag d n).own = .mirror → writeBit d i b v = d) ∧
      ((ag d n).own = .fenced → writeBit d i b v = fencedDrop d n ∧ tasBit d i b = (fencedDrop d n, true)))

/-- The Spin words complete, and a due result is delivered (R213, R215, R217, R218). -/
def Obligations.SpinCompletes : Prop :=
  ∀ (s : State) (i : Issue) (gd ga : GReg) (p : Fin 8) (u : Fin 16) (f : SpinFly) (fs : List SpinFly),
    (mayIssue s.dev i true = true → i.slot = .long → isCc i.who = false →
      completes (.spinIssue i ga p) s (wordEffect s.dev i (fun d => spinIssue d i.who p (readG (srcWork d i) ga))) ∧
      completes (.spinGet i gd p) s (wordEffect s.dev i (fun d =>
        wrReg (spinGet d i.who p).1 i.who gd (spinGet d i.who p).2)) ∧
      completes (.spinXg i gd ga p) s (wordEffect s.dev i (fun d =>
        spinIssue (wrReg (spinGet d i.who p).1 i.who gd (spinGet d i.who p).2) i.who p (readG (srcWork d i) ga)))) ∧
    (held s.dev = false → takeDue (spinDue s.dev) s.dev.spin[u].fly = some (f, fs) →
      completes (.spinResult u) s (spinDeliver { s.dev with spin := s.dev.spin.set u { s.dev.spin[u] with fly := fs } } u f)) ∧
    (∀ d : Device, (ag d i.who).own = .owner → Regions.live d.regions (spinRegion (spinUnitOf d i.who)) = true →
      (ag d i.who).cur % 4 = (spinSlotOf d i.who).val →
      (spinIssue d i.who p ⟨0, .sample⟩).spin[spinUnitOf d i.who].fly = d.spin[spinUnitOf d i.who].fly ++
        [⟨spinSlotOf d i.who, p, (spinEval d.spin[spinUnitOf d i.who] p ⟨0, .sample⟩ (ag d i.who).chk).1,
          (spinEval d.spin[spinUnitOf d i.who] p ⟨0, .sample⟩ (ag d i.who).chk).2.1,
          (spinEval d.spin[spinUnitOf d i.who] p ⟨0, .sample⟩ (ag d i.who).chk).2.2,
          i.who :: (mirrorOf d (ag d i.who).role).toList,
          (ag d i.who).cur + spinStages d.spin[spinUnitOf d i.who] p + 2⟩])

/-- The words of a control core complete: WAIT stops issue and an event ends it, DO sets the loop, RETI pops the interrupt
stack, and LDW and STW move the two words of Qn (R371 to R381). -/
def Obligations.ControlCoreWordsComplete : Prop :=
  ∀ (s : State) (c q : Fin 4) (m : Ma) (k : DoCount) (target : Nat),
    let i := ccIssue c
    let n := ccProc c
    (mayIssue s.dev i false = true →
      completes (.wait c) s (wordEffect s.dev i (fun d => { d with ccx := d.ccx.set c { d.ccx[c] with wait := true } })) ∧
      (∀ idx lev act st, (issued s.dev i).ccx[c].istk = (idx, lev, act) :: st →
        completes (.reti c) s (wordEffect s.dev i (fun d =>
          let d := { d with ccx := d.ccx.set c { d.ccx[c] with istk := st, curLev := lev, act := act } }
          jump (setAg d n { ag d n with resv := none }) n idx))) ∧
      ((ag s.dev n).npc + 1 ≤ target → target < 2 ^ 32 →
        completes (.doLoop c k target) s (wordEffect s.dev i (fun d =>
          let e := ag d n
          let count := match k with
            | .imm v => v.toNat + 1
            | .reg g => (readG e.w g).p.toNat % 2 ^ 16
          let d := { d with ccx := d.ccx.set c { d.ccx[c] with ls := e.pc + 1, le := target } }
          let d := setAg d n { e with lc := BitVec.ofNat 16 count }
          if count = 0 then jump d n (target + 1) else d)))) ∧
    (mayIssue s.dev i true = true → pairWay (srcWork (issued s.dev i) i) m = .at_ (maAddr (srcWork (issued s.dev i) i) m) →
      completes (.ldw c q m) s (wordEffect s.dev i (fun d =>
        let w := srcWork d i
        let r := ccLoadPair (stepPtr d i w m) i (maAddr w m)
        giveReg (giveReg r.1 i w m (.ql q) r.2.1) i w m (.qh q) r.2.2)) ∧
      completes (.stw c q m) s (wordEffect s.dev i (fun d =>
        let w := srcWork d i
        busWrite (stepPtr d i w m) (.cc c) (4 * maAddr w m) 8 ((w.q[q]).v.toNat % 2 ^ 64) (w.q[q]).t))) ∧
    (held s.dev = false → s.dev.ccx[c].wait = true → (takeable s.dev c).isSome = true →
      completes (.waitResume c) s { s.dev with ccx := s.dev.ccx.set c { s.dev.ccx[c] with wait := false } })

/-- Taking an event (R374, R378, R379): a running core at a word boundary takes the pending event of the highest level that
it is enabled for; the index of the next word, its level and ACT are pushed, it goes on at CC_VBASE + 8v, and its reservation
is cleared. -/
def Obligations.InterruptEntryCompletes : Prop :=
  ∀ (s : State) (c : Fin 4) (v l : Nat), held s.dev = false →
    s.dev.ccx[c].run = true → s.dev.ccx[c].halt = false → awake s.dev = true → (ag s.dev (ccProc c)).repLeft = 0 →
    (ag s.dev (ccProc c)).pair = none → takeable s.dev c = some (v, l) →
      ∃ d, completes (.interruptEntry c) s d ∧
        d.ccx = s.dev.ccx.set c { s.dev.ccx[c] with
          istk := ((ag s.dev (ccProc c)).npc, s.dev.ccx[c].curLev, s.dev.ccx[c].act) :: s.dev.ccx[c].istk
          curLev := l, act := true, wait := false } ∧
        (ag d (ccProc c)).npc = (getF s.dev (F.CC_VBASE.ADDR c.val) + 8 * v) / 8 ∧
        (ag d (ccProc c)).resv = none ∧
        (∀ m, m ≠ ccProc c → ag d m = ag s.dev m) ∧
        d.toDevBus = s.dev.toDevBus ∧ d.ccMem = s.dev.ccMem ∧ d.toDevMem = s.dev.toDevMem

/-! ### Steps, holds and frames -/

/-- A step takes the command at the front of the queue and is its effect on the device with the queue's rest; every command
answers a next state whose queue is that rest. -/
def Obligations.StepTakesTheFront : Prop :=
  ∀ (c : Instr) (cs : List Instr) (d : Device),
    step ⟨c :: cs, d⟩ = exec c ⟨cs, d⟩ ∧
    ∃ e, exec c ⟨cs, d⟩ = .next ⟨cs, e⟩

/-- On an empty queue a step is one edge of the clock that drives TIME: TIME_TOD advances by the period of R310, corrected,
and what counts with it (the model's choice, log entry 2: the table has no row for a tick). -/
def Obligations.IdleStepIsOneEdge : Prop :=
  ∀ d : Device,
    step ⟨[], d⟩ = .next ⟨[], if held d then d else serveAll (idleEdge d)⟩

/-- What reset leaves (R22, R103, R165, R376, R384, R402): nothing waits; the working registers are 0, Dn and Qn with tag
UNINIT; local data, delay memory and the memories of the control cores are UNINIT, and the exchange buffers INVALID; no event
is latched, no queue holds a word, no core runs, and no kickoff is marked. -/
def Obligations.ResetLeavesTheMachineEmpty : Prop :=
  State.reset.pending = [] ∧ held State.reset.dev = false ∧
  (∀ (n : Fin 68), (ag State.reset.dev n).phase = .idle ∧ (ag State.reset.dev n).pend = [] ∧
    (∀ g : GReg, (readG (ag State.reset.dev n).w g).p = 0) ∧
    (∀ i, (readG (ag State.reset.dev n).w (.d i)).t = .uninit) ∧ (∀ m, (readG (ag State.reset.dev n).w (.ql m)).t = .uninit) ∧
    (∀ a, (localCell State.reset.dev n a).w = ⟨0, if ioBase State.reset.dev n ≤ a ∧ a < ioBase State.reset.dev n + 128
      then .invalid else .uninit⟩) ∧
    (∀ b, b < 0x800 → bitAt (ag State.reset.dev n).flags b = false)) ∧
  (∀ w, (delayCell State.reset.dev w).w.t = .uninit ∧ (ccCell State.reset.dev w).w.t = .uninit) ∧
  (∀ v, v < 512 → getB State.reset.dev (latchF v) = false) ∧
  (∀ q, (que State.reset.dev q).words = []) ∧
  (∀ c : Fin 4, (State.reset.dev.ccx[c]).run = false ∧ (State.reset.dev.ccx[c]).wait = false) ∧
  (∀ k : Fin 4, State.reset.dev.marked[k] = [] ∧ State.reset.dev.ho[k] = none)

/-- The memories have their canonical form at reset. -/
def Obligations.ResetMemoryIsCanonical : Prop := Memory.wf State.reset.dev = true

/-- Every step keeps the canonical form of delay memory and of the memories of the control cores. -/
def Obligations.EveryStepKeepsMemoryCanonical : Prop :=
  ∀ s t : State, Memory.wf s.dev = true → step s = .next t → Memory.wf t.dev = true

/-- A held device does nothing but follow its pins and its supply (R53, R514). An access is carried out by a device that runs,
stalls in SLEEP behind those that stall already and is carried out in that order once the device runs, and reaches nothing in
DEEP and OFF (R411). The accesses of one cycle take effect in the order of R26, those of one requester as it made them. -/
def Obligations.HeldAndStoppedDevicesKeepEverything : Prop :=
  ∀ (c : Instr) (s : State),
    (held s.dev = true → c.pin = false → exec c s = .next s) ∧
    (awake s.dev = false → c.running = true → exec c s = .next s) ∧
    (c.access = true → ∃ op : BusOp, ∀ t : State, held t.dev = false →
      (awake t.dev = true → completes c t (carryOut t.dev op)) ∧
      (t.dev.pstate = .sleep → completes c t { t.dev with stalled := t.dev.stalled ++ [op] }) ∧
      (t.dev.pstate = .deep ∨ t.dev.pstate = .off → completes c t t.dev)) ∧
    (awake s.dev = true → runStalled s.dev = s.dev.stalled.foldl carryOut { s.dev with stalled := [] }) ∧
    (∀ ops : List BusOp, accessCycle s.dev ops = (inOrder ops).foldl access s.dev ∧ (inOrder ops).Perm ops ∧
      (inOrder ops).Pairwise (fun x y => reqRank x.req ≤ reqRank y.req) ∧
      ∀ q : Req, (inOrder ops).filter (fun o => decide (o.req = q)) = ops.filter (fun o => decide (o.req = q)))

/-- The commands that store nothing in delay memory or in a control core's memory leave every word of both, and every cell's
tag and parity, as it was. -/
def Obligations.NonStoringCommandsKeepMemory : Prop :=
  ∀ (c : Instr) (s t : State), c.access = false → c.mayWrite = false → exec c s = .next t →
    (∀ w, delayCell t.dev w = delayCell s.dev w) ∧ (∀ w, ccCell t.dev w = ccCell s.dev w)

/-- The frame of the words that write one register (R121, R127, R128, R144): of the device, only the issuer's record changes
and, for a control core, its activity count; of the record, only the program counter and cycle, the loop count at a control
core's loop end, the status and warning bits of the result, and the registers; and with no load or division outstanding no
register but the destination, and the parts of the accumulator the destination is a part of. -/
def Obligations.RegisterWordFrame : Prop :=
  ∀ (s t : State) (c : Instr) (i : Issue) (sat : Bool) (gd ga gb : GReg) (k : Kind) (v : Word) (b : Src) (n : Count)
    (qa : Fin 4) (x : BitVec 8) (bit : BitRef),
    c ∈ [Instr.mov i gd ga, .movi i gd k v, .tagxR i gd ga, .tagxW i gd ga x, .tagxS i gd ga gb, .add i sat gd ga b,
      .sub i sat gd ga b, .neg i sat gd ga, .abs i sat gd ga, .min i gd ga b, .max i gd ga b, .cmplt i gd ga b,
      .cmple i gd ga b, .cmpeq i gd ga b, .and i gd ga gb, .or i gd ga gb, .xor i gd ga gb, .not i gd ga,
      .shl i sat gd ga n, .shra i sat gd ga n, .shrl i gd ga n, .mul i sat gd ga gb, .muli i sat gd ga gb,
      .qext i sat gd qa x, .btst i gd bit] →
    c.wf = true → mayIssue s.dev i true = true → exec c s = .next t →
      t.pending = s.pending ∧
      t.dev = { s.dev with ag := t.dev.ag, act := t.dev.act } ∧
      (isCc i.who = false → t.dev.act = s.dev.act) ∧
      (∀ m, m ≠ i.who → ag t.dev m = ag s.dev m) ∧
      (let e := ag s.dev i.who
       let f := ag t.dev i.who
       f = { e with
         w := f.w, pend := f.pend, div := f.div, pc := f.pc, npc := f.npc, cur := f.cur, cyc := f.cyc, repLeft := f.repLeft,
         repCur := f.repCur, curt := f.curt, tierStk := f.tierStk, lc := f.lc, acc := f.acc, pair := f.pair,
         statV := f.statV, statSat := f.statSat, statDz := f.statDz, fTag := f.fTag, warn := f.warn } ∧
       (isCc i.who = false → f.lc = e.lc) ∧
       (e.pend = [] → e.div = none → f.statDz = e.statDz ∧
         ∀ g : GReg, g ≠ gd → (∀ m, ¬ (partOfQ m gd = true ∧ partOfQ m g = true)) → readG f.w g = readG e.w g))

/-- The frame of the branches and of the accumulator words (R121, R124, R145, R151): only the issuer's record changes and, for a
control core, its activity count; of the record, no status bit but V and SAT, no bit of the Scoreboard and no reservation; and
with no load or division outstanding a branch changes no register, and an accumulator word none but the parts of Qd. -/
def Obligations.BranchAndAccumulatorFrame : Prop :=
  ∀ (s t : State) (c : Instr) (i : Issue) (sat : Bool) (g : GReg) (qd qa qb : Fin 4) (x : BitVec 8) (target : Nat),
    let branches := [Instr.nop i, .br i target, .brz i g target, .brnz i g target, .brlc i target]
    let words := [Instr.qclr i qd, .qld i qd g, .qadd i sat qd qa qb, .qsub i sat qd qa qb, .qshl i sat qd qa x,
      .qshra i sat qd qa x]
    (c ∈ branches ∧ mayIssue s.dev i (decide (c = .nop i)) = true ∨ c ∈ words ∧ mayIssue s.dev i true = true) →
    c.wf = true → exec c s = .next t →
      t.pending = s.pending ∧
      t.dev = { s.dev with ag := t.dev.ag, act := t.dev.act } ∧
      (isCc i.who = false → t.dev.act = s.dev.act) ∧
      (∀ m, m ≠ i.who → ag t.dev m = ag s.dev m) ∧
      (let e := ag s.dev i.who
       let f := ag t.dev i.who
       f.flags = e.flags ∧ f.captured = e.captured ∧ f.resv = e.resv ∧ f.phase = e.phase ∧ f.statRsw = e.statRsw ∧
       f.rs = e.rs ∧ f.rsTop = e.rsTop ∧ f.rsDepth = e.rsDepth ∧ f.fIll = e.fIll ∧ f.fAddr = e.fAddr ∧ f.fPar = e.fPar ∧
       (e.pend = [] → e.div = none → f.statDz = e.statDz ∧
         (c ∈ branches → f.w = e.w ∧ f.statV = e.statV ∧ f.statSat = e.statSat ∧ f.fTag = e.fTag) ∧
         ∀ h : GReg, partOfQ qd h = false → readG f.w h = readG e.w h))

/-! ### Kickoffs, audio ports, time -/

/-- The kickoff rows complete (R159, R166, R169, R234, R303, R306): a domain that produces kickoffs marks the next one, a
shadow generator counts its aligned kickoffs, the oldest marked kickoff reaches the engines, the rallies begin to issue, one
whose L cycles have passed without DONE is cut, and the frame of the latest kickoff is resolved. -/
def Obligations.KickoffsComplete : Prop :=
  ∀ (s : State) (k : Fin 4) (n p : Nat) (ns tods : List Nat) (within : Bool) (h : Handover) (m : Fin 64),
    held s.dev = false →
    (produces s.dev k = true → mayMark s.dev k (nextCount s.dev k) = true →
      completes (.kickoffMark k .main) s (markAt s.dev k (nextCount s.dev k).toNat)) ∧
    (s.dev.ho[k] = some h → getB s.dev (F.CLK_PLLSTAT.LOCK (2 + h.pll)) = true →
      h.aligned < 63 → ¬ (domConfigured s.dev k ∧ awake s.dev ∧ mediaMuted s.dev (ratePll s.dev k)) →
      completes (.kickoffMark k (.shadow within)) s
        { s.dev with ho := s.dev.ho.set k (some { h with aligned := if within then h.aligned + 1 else 0 }) }) ∧
    (s.dev.marked[k] = n :: ns →
      completes (.engineKickoff k) s (kickoffAt { s.dev with marked := s.dev.marked.set k ns } k n)) ∧
    (∃ d, completes (.rallyStart k) s d ∧ ∀ a ∈ engines (serveAll s.dev),
      ag d a = (if (ag (serveAll s.dev) a).phase = .overhead ∧ engDomain (serveAll s.dev) a = k
        then { ag (serveAll s.dev) a with phase := .rallying } else ag (serveAll s.dev) a)) ∧
    ((ag s.dev (engProc m)).phase = .rallying → (ag s.dev (engProc m)).limit ≤ (ag s.dev (engProc m)).cyc →
      completes (.overrunLen m) s (cutRally s.dev (engProc m) false)) ∧
    (s.dev.resolve[k] = some p →
      completes (.frameResolve k tods) s
        (let d := { s.dev with resolve := s.dev.resolve.set k none }
         let d := (List.finRange 16).foldl (fun d m => mixResolve d k m) d
         let d := (List.range 8).foldl (fun d u => asrcOutputs d k u) d
         let d := (List.range 8).foldl (fun d u => asrcInputs d k u) d
         let d := (List.range 16).foldl (fun d b => meterBlock d k p b) d
         let d := (List.finRange 32).foldl (fun d n => txLatch d k n) d
         linkTransmit (notePositions d k) k p tods))

/-- The rows of the audio ports, the rate converters, the Guard's pin and the watchdog complete (R260, R263, R276, R290, R292,
R294, R382, R429). -/
def Obligations.AudioRowsComplete : Prop :=
  ∀ (s : State) (n : Fin 32) (u : Fin 8) (len bits phase ready zeroFrom : Nat) (sent : Bool) (ws : List Word)
    (ratio : Word) (why : Unlock),
    held s.dev = false →
    (mayBound s.dev n = true →
      let l := if sent then some len else none
      completes (.sapFrameBoundary n len phase ready sent zeroFrom) s
        (startFrame (padBoundary (boundaryStatus (endFrame s.dev n l zeroFrom) n l phase) n) n ready)) ∧
    (laneOn s.dev n = true → padInOff s.dev n = false →
      (laneMode s.dev n = 0 →
        completes (.sapRxFrameEnd n bits ws) s (setSap s.dev n { sap s.dev n with
          rx := (sap s.dev n).rx ++ [rxWords s.dev n (badLength s.dev n (some bits)) ws], rxSeen := true }))) ∧
    ((laneOn s.dev n && laneMaster s.dev n) = false →
      completes (.sapClockLoss n) s
        (setB (setSap s.dev n { sap s.dev n with fresh := true }) (F.SAP_STAT.CLKOK n.val) false)) ∧
    (Regions.live s.dev.regions 0xA4 = true → getB s.dev (F.ASRC_STAT.LOCK u) = false →
      completes (.asrcLock u ratio) s
        (setF (setB (setB (setB s.dev (F.ASRC_STAT.LOCK u) true) (F.ASRC_STAT.RANGE u) false) (F.ASRC_STAT.STARVE u) false)
          (F.ASRC_RATIO.RATIO u) ratio.toNat)) ∧
    (getB s.dev (F.ASRC_STAT.LOCK u) = true →
      completes (.asrcUnlock u why ratio) s
        (let d := setF s.dev (F.ASRC_RATIO.RATIO u) ratio.toNat
         let d := match why with
           | .range => setB d (F.ASRC_STAT.RANGE u) true
           | .starve => setB d (F.ASRC_STAT.STARVE u) true
           | _ => d
         raiseEv (incF (setB d (F.ASRC_STAT.LOCK u) false) (F.ASRC_STAT.UNLOCKCNT u)) (0x170 + u.val))) ∧
    (s.dev.whistle = false → s.dev.pstate ≠ .off →
      completes .whistleAssert s (raiseEv (setB { s.dev with
        whistle := true, sap := s.dev.sap.map (fun x => { x with whSeen := true }) } F.GUARD_STAT.WHISTLE true) 0x199)) ∧
    (s.dev.pstate = .off → completes .whistleAssert s { s.dev with whistle := true }) ∧
    completes .whistleRelease s (setB { s.dev with whistle := false } F.GUARD_STAT.WHISTLE false) ∧
    (getB s.dev F.WDOG_CTL.EN = true → getF s.dev F.WDOG_CTL.LIMIT ≤ wdCount s.dev →
      completes .watchdogExpiry s (guardExpire
        { setB (setB s.dev F.WDOG_STAT.EXPIRED true) F.WDOG_STAT.KICKED false with wdCycles := 0 }))

/-- The rows of the PLLs, the time reference and its pins complete (R298 to R300, R311 to R321). -/
def Obligations.ClockRowsComplete : Prop :=
  ∀ (s : State) (j : Fin 6) (ts : Nat) (pin : Fin 2),
    held s.dev = false →
    (pllRuns s.dev j.val = true → getB s.dev (F.CLK_PLLSTAT.NOBAND j.val) = false →
      getB s.dev (F.CLK_PLLSTAT.LOCK j.val) = false →
      completes (.pllLock j) s (bootProgress
        (let d := timeSrcState (setB (setB s.dev (F.CLK_PLLSTAT.LOCK j.val) true) (F.CLK_PLLSTAT.MUTED j.val) false)
         match d.timeWait with
         | some a1 => if timeSrcLocked d = true then restartDomains (timeRestart d a1) (fun _ => true) else d
         | none =>
           if getB s.dev (F.CLK_PLLSTAT.MUTED j.val) = true ∧ 2 ≤ j.val
             then restartDomains d (fun k => decide (ratePll d k = j.val - 2)) else d))) ∧
    (pllRuns s.dev j.val = true → getB s.dev (F.CLK_PLLSTAT.LOCK j.val) = false →
      completes (.pllLockTimeout j) s (raiseEv (setB s.dev (F.CLK_PLLSTAT.FAIL j.val) true) (0x180 + j.val))) ∧
    (getB s.dev (F.CLK_PLLSTAT.LOCK j.val) = true →
      completes (.pllLossOfLock j) s
        (let d := raiseEv (incF (setB s.dev (F.CLK_PLLSTAT.LOCK j.val) false) (F.CLK_PLLSTAT.UNLOCKCNT j.val)) (0x178 + j.val)
         if j.val < 2 then d else coachCheck (timeSrcCheck (setB d (F.CLK_PLLSTAT.MUTED j.val) true)))) ∧
    (getF s.dev F.TIME_CTL.REFSEL = 3 → (nearest ts (10 ^ 9)).2 = false →
      completes (.ppsInEdge ts) s (servoEvent s.dev ((nearest ts (10 ^ 9)).1 * 10 ^ 9 - ts))) ∧
    (getF s.dev F.TIME_CTL.REFSEL = 1 + pin.val → (pin.val = 0 ∨ hasPcie s.dev = true) →
      (let k := dom (getF s.dev F.TIME_CTL.WDOM)
       let a := s.dev.anchors[k]
       let m := nearest (((ts : Int) * a.den - a.num) * rateFs s.dev k) (10 ^ 9 * a.den)
       m.2 = false →
       completes (.wclkInEdge pin ts) s (servoEvent s.dev
         (((ideal s.dev k (a.n + m.1)).1 - ts * (ideal s.dev k (a.n + m.1)).2) / (ideal s.dev k (a.n + m.1)).2)))) ∧
    (getF s.dev F.TIME_STAT.STATE = 2 → 3 * refInterval s.dev ≤ 2 * s.dev.refNs →
      completes .holdoverTimeout s (setTimeState (setEps s.dev (servoMean s.dev)) 3)) ∧
    (s.dev.winBad = false →
      (let d := winBegin (setF s.dev F.TIME_AON.COUNT ((getF s.dev F.TIME_AON.COUNT + 65536) % 2 ^ 48))
       timeSrcLocked d = true → awake d = true →
       completes .aonCalibrationWindow s
        (setF (setF { d with aonWins := ((tod s.dev - s.dev.winStart) :: d.aonWins).take 16 }
            F.TIME_AONCAL.PERIOD (tod s.dev - s.dev.winStart))
          F.TIME_AONQ.SPREAD (Nat.min 0xFFFF (spreadPpb (((tod s.dev - s.dev.winStart) :: d.aonWins).take 16)))))) ∧
    (s.dev.ppsDue = true → getB s.dev F.CLK_PPSOUT.EN = true → getB s.dev F.TIME_STAT.LOCKED = true → s.dev.gated = false →
      completes .ppsOutPulse s { s.dev with
        ppsOut := true, ppsDue := false, ppsLeft := getF s.dev F.CLK_PPSOUT.WIDTH * 1000 * 2 ^ 32 }) ∧
    (s.dev.ppsLeft = 0 → completes .ppsOutFall s { s.dev with ppsOut := false })

/-! ### Records, loads, boot -/

/-- A structure record that comes whole and passes every check completes (R60, R61, R64, R72, R74, R80, R87, R88): a WRITE or
FILL of a region that need not be quiesced is applied, a COMMIT is accepted, an END whose CRC matches the batch releases what
it held, and a TABLE or PROGRAM whose header passes is written as it arrives and then applied. The ends of a quiesce, of a
commanded load and of a gap on queue 0 complete (R75, R81, R83, R87, R92): the region stops, a load whose last batch passed
reports so, and a record that stays short is aborted with STREAM. -/
def Obligations.RecordsAndLoadEndsComplete : Prop :=
  (∀ (s : State) (p : Fin 3) (ws : List Word), held s.dev = false →
    let h := headerAt s.dev p ws
    let g := gather (headerTaken s.dev p ws) p (h.len + 4)
    let e := g.1
    let ps := (payloadIn (path e p) h).map (·.toNat)
    let k := setPath (headerTaken s.dev p ws) p { path (headerTaken s.dev p ws) p with judged := some 0 }
    let f := gather k p (h.len + 4)
    let shadow := (headTarget f.1 h).any (·.shadow)
    let w := putTables f.1 h h.off (payloadIn (path f.1 p) h)
    let w := if shadow ∧ ¬ (path f.1 p).shadows.contains (h.r, markKey h) then
      setPath w p { path w p with shadows := (h.r, markKey h) :: (path f.1 p).shadows } else w
    (∀ t, t ∈ [1, 2] → recordBegins s.dev p ws t → recordWhole g p h → heldCode e p h ps = none →
      (rgn e h.r).st ≠ .quiescing → ¬ ((rgn e h.r).st = .running ∧ h.q = true) →
      completes (if t = 1 then .writeRecord p ws else .fillRecord p ws) s
        (atBoundary { closeRecord (applyWrite e p h ps) p with lastPath := some p } p)) ∧
    (recordBegins s.dev p ws 5 → recordWhole g p h → heldCode e p h ps = none →
      completes (.commitRecord p ws) s
        (atBoundary { closeRecord (acceptCommit (countApplied e h.r) (dom (ps.getD 0 0)) (commitOf e p ps)) p with
          lastPath := some p } p)) ∧
    (recordBegins s.dev p ws 6 → recordWhole g p h → heldCode e p h ps = none →
      ps.getD 0 0 = (~~~ (path e p).crc).toNat →
      completes (.endRecord p ws) s (atBoundary { batchPass (countApplied e h.r) p with lastPath := some p } p)) ∧
    (∀ t, t ∈ [3, 4] → recordBegins s.dev p ws t →
      firstFailed (headChecks (headerTaken s.dev p ws) h h.len) = none →
      (rgn (headerTaken s.dev p ws) h.r).st ≠ .quiescing →
      ¬ ((rgn (headerTaken s.dev p ws) h.r).st = .running ∧ h.q = true) →
      recordWhole f p h → payloadIn (path f.1 p) h ≠ [] → path w p = { path f.1 p with shadows := (path w p).shadows } →
      payloadOk w h h.len = true →
      completes (if t = 3 then .tableRecord p ws else .programRecord p ws) s
        (atBoundary { closeRecord (streamApplied w p h) p with lastPath := some p } p))) ∧
  (∀ (s : State) (r : BitVec 12), held s.dev = false →
    ((rgn s.dev r.toNat).st = .quiescing → stillFading s.dev r.toNat = false →
      completes (.regionQuiesced r) s (stopRegion s.dev r.toNat)) ∧
    (s.dev.cmdLeft = some 0 → (path s.dev 1).got = [] → s.dev.live = none → (path s.dev 1).batch = false →
      (path s.dev 1).passed = true → getF s.dev F.LDR_POS.WORDS ≠ 0 →
      completes .commandedLoadEnd s (raiseCtrl (setB { s.dev with cmdLeft := none } F.LDR_STAT.BUSY false) 0x18A)) ∧
    (s.dev.cmdLeft = some 0 → (path s.dev 1).got = [] → s.dev.live = none →
      (path s.dev 1).batch = true ∨ getF s.dev F.LDR_POS.WORDS = 0 →
      completes .commandedLoadEnd s
        (batchFail (recReject (setB { s.dev with cmdLeft := none } F.LDR_STAT.BUSY false) 1 Rej.imageCrc 0xFF 0) 1)) ∧
    ((path s.dev 2).got ≠ [] → (path s.dev 2).got.length < 3 → getF s.dev F.LDR_Q0TIMEOUT.US ≠ 0 →
      getF s.dev F.LDR_Q0TIMEOUT.US * 1000 < s.dev.q0Ns →
      getF s.dev F.BOOT_STAT.PHASE ≠ 1 → getF (abortRecord s.dev 2 Rej.stream).1 F.BOOT_STAT.PHASE ≠ 1 →
      completes .queue0GapTimeout s (abortRecord s.dev 2 Rej.stream).1))

/-- The rows of the boot complete (R451 to R466): the load begins once the reset sequence is complete, a header and a block are
read into place, the oldest block is applied by its kind, the loader gate opens on a verified image, and an image push that
waits too long ends in recovery. -/
def Obligations.BootRowsComplete : Prop :=
  ∀ (s : State) (slot : Fin 2) (ws b : List Word) (bs : List (List Word)) (x : SlotRd) (h : SlotHdr), held s.dev = false →
    (getF s.dev F.BOOT_STAT.PHASE = 0 → sequenceDone s.dev = true → s.dev.exiting = false → s.dev.variant.fuseErr = false →
      flashWaits s.dev = false → getF s.dev F.BOOT_STAT.SRC ≠ 3 →
      completes .loadBegin s (setF s.dev F.BOOT_STAT.PHASE 1)) ∧
    (s.dev.live = none → getF s.dev F.BOOT_STAT.PHASE = 1 → s.dev.boot = none → getF s.dev F.BOOT_STAT.SRC ≠ 2 →
      s.dev.hdrs[slot] = none → slotHeader ws = some h → (ws.getD 6 0).toNat % 2 ^ 16 = variantCounts s.dev →
      (∀ o : Fin 2, o ≠ slot → s.dev.hdrs[o] = none) →
      completes (.slotHeaderRead slot ws) s
        (let d := { s.dev with hdrs := s.dev.hdrs.set slot (some (some h)) }
         if slot = 0 then setF (setB d F.BOOT_STAT.AVALID true) F.BOOT_SEQA.SEQ h.seq
         else setF (setB d F.BOOT_STAT.BVALID true) F.BOOT_SEQB.SEQ h.seq)) ∧
    (s.dev.live = none → s.dev.boot = some x → x.next < x.nblk → x.bufs.length < 2 → getF s.dev F.BOOT_STAT.SRC ≠ 2 →
      readFails x ws false = false → blockBad x ws = false → (∀ o : Fin 2, s.dev.hdrs[o] = none) →
      completes (.blockReadDone ws false) s (setBoot s.dev { x with
        next := x.next + 1, words := x.words + (blkLen ws + 5), retried := false, got := []
        bufs := x.bufs ++ [ws.take (blkLen ws + 5)] })) ∧
    (s.dev.live = none → s.dev.boot = some x → x.bufs = b :: bs →
      (∀ last, blkKind b = 1 → (applyRecords s.dev 0 x b).2 = .done last →
        completes .recordsBlock s (bootApplied (applyRecords s.dev 0 x b).1 x b last)) ∧
      (blkKind b = 2 → completes .memoryBlock s (bootApplied (copyMemory s.dev b) x b false)) ∧
      (blkKind b = 3 → Nat.land (startMask b) x.cores = 0 →
        completes .startBlock s (bootApplied (setB (startCores s.dev b) F.SYS_READY.CORES true)
          { x with cores := Nat.lor x.cores (startMask b) } b false))) ∧
    (s.dev.gated = true → getF s.dev F.BOOT_STAT.PHASE = 1 → getB s.dev F.SYS_READY.VERIFIED = true →
      getB s.dev F.SYS_READY.GUARD = true →
      completes .loaderGateOpen s
        (let d := if voteOn s.dev = true ∧ getB s.dev F.PWR_MODE.VOTE = false
           then { s.dev with domNs := Vector.replicate 13 0 } else s.dev
         let d := setF (setB (fadeInAll { d with gated := false }) F.SYS_READY.OUTPUTS true) F.BOOT_STAT.PHASE 2
         raiseCtrl (setF d F.BOOT_T.OPEN (Nat.min (d.bootNs / 10000) 0xFFFF)) 0x1C8)) ∧
    (s.dev.pushWait = true → getF s.dev F.BOOT_STAT.PHASE = 1 → s.dev.pushNs + 1000 * 2 ^ 24 ≤ s.dev.bootNs →
      completes .hostPushTimeout s (recovery s.dev (getF s.dev F.BOOT_FAIL.CAUSE)))

/-- The resets and the supplies complete (R53, R427, R449, R514): a reset leaves the device as R53 and the reset columns say,
held while RESET_N is low, and the boot starts when it rises, at power-on, and at a wake from OFF. -/
def Obligations.ResetRowsComplete : Prop :=
  ∀ (s : State) (sel : Fin 4) (a1 : Nat),
    (s.dev.powered = true →
      completes .resetNAssert s { inReset s.dev .resetN with rstLow := true } ∧
      completes (.resetNRise sel) s
        { bootStart s.dev .resetN sel.val 0 with tampered := s.dev.rstLow && s.dev.tampered }) ∧
    (s.dev.powered = false →
      completes .resetNAssert s { s.dev with rstLow := true } ∧
      completes (.resetNRise sel) s { s.dev with rstLow := false }) ∧
    completes .vddAonRemoval s { inReset s.dev .powerOn with powered := false, rstLow := s.dev.rstLow } ∧
    (s.dev.rstLow = false → ∀ tamper : Bool, completes (.vddAonPowerOn sel tamper) s
      { bootStart (if tamper then Machine.tamper { inReset s.dev .powerOn with powered := true, rstLow := false }
        else { inReset s.dev .powerOn with powered := true, rstLow := false }) .powerOn sel.val 0 with tampered := tamper }) ∧
    (s.dev.rstLow = true →
      completes (.vddAonPowerOn sel false) s { inReset s.dev .powerOn with powered := true, rstLow := true }) ∧
    (held s.dev = false → s.dev.exiting = true → s.dev.pstate = .off →
      completes (.offWakeBoot sel a1) s (bootStart s.dev .offWake sel.val a1))

/-! ### Links and the fabric -/

/-- The rows of a link complete (R322 to R334, R341, R345): its states follow one another as R324 gives, a training set that
agrees counts, a training that fails starts again, and a frame received as the scrambled blocks of R329 to R334 is taken, or
counted as an error where its CRC, DBLK or FVER is not what R345 asks for. -/
def Obligations.LinkRowsComplete : Prop :=
  ∀ (s : State) (n : Fin 8) (d1 d2 d3 : BitVec 8) (f : LyFrame) (rxtod : Nat), held s.dev = false →
    (linkState s.dev n = 1 → completes (.linkSignalDetect n) s (setLinkState s.dev n 2)) ∧
    (linkState s.dev n = 2 → completes (.cdrLock n) s (setLinkState s.dev n 3)) ∧
    (linkState s.dev n = 3 → completes (.blockLock n) s (setLinkState s.dev n 4)) ∧
    (linkState s.dev n = 5 →
      completes (.rateChangeDone n) s (setLinkState (setB s.dev (F.LINK_STAT.RATE n.val) (lk s.dev n).slow) n 2)) ∧
    ((linkState s.dev n = 1 ∨ linkState s.dev n = 2 ∨ linkState s.dev n = 3) →
      getB s.dev (F.LINK_STAT.RATE n.val) = false → linkField s.dev n.val 0x40 2 1 = 1 → (lk s.dev n).reached = false →
      completes (.rateFallback n) s
        (setLk (setLinkState s.dev n 5) n { lk (setLinkState s.dev n 5) n with slow := true })) ∧
    (linkState s.dev n ≠ 0 → linkState s.dev n ≠ 7 →
      completes (.linkTrainTimeout n) s
        (linkStart (raiseEv (incF s.dev (F.LINK_STAT.TRAINFAIL n.val)) (0x130 + n.val)) n)) ∧
    (linkState s.dev n = 6 →
      completes (.ts2Sent n) s (linkConfirm (setLk s.dev n { lk s.dev n with ts2tx := (lk s.dev n).ts2tx + 1 }) n) ∧
      (d2.toNat ≤ 3 → completes (.trainingSetRx n 0xA2 d2 d3) s
        (linkConfirm (setLk s.dev n { lk s.dev n with ts2rx := (lk s.dev n).ts2rx + 1 }) n))) ∧
    (linkState s.dev n = 4 → d2.toNat ≤ 3 → (lk s.dev n).lastSet = some (0xA1, d2.toNat, d3.toNat) →
      (let d := setLk s.dev n { lk s.dev n with setRun := (lk s.dev n).setRun + 1 }
       completes (.trainingSetRx n 0xA1 d2 d3) s
         (if 7 ≤ (lk s.dev n).setRun then linkCompare d n d2.toNat d3.toNat else d))) ∧
    (linkState s.dev n ≠ 0 → ((d1 ≠ 0xA1 ∧ d1 ≠ 0xA2) ∨ 3 < d2.toNat) →
      completes (.trainingSetRx n d1 d2 d3) s (blockError s.dev n)) ∧
    (linkState s.dev n = 7 →
      completes (.linkHiber n false) s (setLinkState (setB s.dev (F.LINK_STAT.HIBER n.val) true) n 1) ∧
      ((lk s.dev n).rxOpen = none → ∀ bad : Bool,
        let nc := cellsAt (rateFs s.dev (dom (linkField s.dev n.val 0x40 4 2)))
        let h := frameHead f
        let ds := frameData nc f
        let t := if bad then termOf h ds ^^^ 1 else termOf h ds
        let g := frameOf nc h ds t rxtod
        let bs := (LyBlock.start h :: ds.map LyBlock.data ++ [LyBlock.term t]).map LyBlock.code
        ds.length < 2 ^ 16 → ∃ r : BitVec 58,
          let d := setLk s.dev n { lk s.dev n with rxScr := r, rxOpen := none, arrived := true }
          completes (.lyathFrameRx n (scrambleRun (lk s.dev n).rxScr bs) rxtod) s
            (if bad = false ∧ ds.length = localDblk s.dev n ∧ f.fver % 256 = 1 then framePassed d n g
             else raiseEv (incF d (F.LINK_ERR.CRC n.val)) (0x138 + n.val)))) ∧
    (3 ≤ linkState s.dev n → completes (.linkHiber n true) s (setLinkState s.dev n 1))

/-- The cells of the fabric complete (R347 to R366): the oldest cell received on a link is taken by the row of its type, is
acted on, sent on where it floods, and the node's own records are brought up to date. -/
def Obligations.FabricCellsComplete : Prop :=
  ∀ (s : State) (n : Fin 8) (c : LyCell) (cs : List LyCell), held s.dev = false →
    (lk s.dev n).rxCells = c :: cs →
    let d := setLk s.dev n { lk s.dev n with rxCells := cs }
    (c.ctype = 1 → completes (.hello n) s (fabRefresh (helloAct d n c))) ∧
    (cellTomb d c = none →
      (cellNew d c = true →
        (c.ctype = 2 → completes (.lsa n) s (fabRefresh (floodCell (lsaAct (noteSeen d c) c) (some n) c))) ∧
        (c.ctype = 3 → d.fab.choice = some (leGet c.pay 0 8) →
          completes (.captain n) s (fabRefresh (floodCell (captainAct (noteSeen d c) c) (some n) c))) ∧
        (c.ctype = 4 → completes (.grant n) s (fabRefresh (floodCell (grantAct (noteSeen d c) c) (some n) c)))) ∧
      (c.ctype = 5 → reqBefore s.dev n = false → completes (.runReq n) s (fabRefresh (runReqAct d n c))) ∧
      (c.ctype = 9 → completes (.user n) s (fabRefresh (userAct d n c)))) ∧
    (c.ctype = 6 → completes (.runAck n) s (fabRefresh (runAckAct (noteAlive d c) n c))) ∧
    (c.ctype = 7 → completes (.runNak n) s (fabRefresh (runNakAct (noteAlive d c) n c))) ∧
    (c.ctype = 8 → completes (.runTear n) s (fabRefresh (runTearAct (noteAlive d c) n c)))

/-- The timers of the fabric complete (R349, R350, R352, R354, R356, R358, R360, R364, R369). -/
def Obligations.FabricTimersComplete : Prop :=
  ∀ (s : State) (n : Fin 8) (uid : BitVec 64) (r : BitVec 8) (f : Nat) (x : DbNode) (t : Tomb), held s.dev = false →
    (anyFull s.dev = false → s.dev.fab.held = true → s.dev.fab.rejoined = false →
      s.dev.fab.aloneAt + deadInt s.dev ≤ s.dev.fab.frame →
      completes .isolatedRejoin s (join { s.dev with fab := { s.dev.fab with rejoined := true } })) ∧
    (adjFull s.dev n = true → (adj s.dev n).accAt + deadInt s.dev ≤ s.dev.fab.frame →
      completes (.adjacencyDead n) s (fabRefresh (adjDrop s.dev n))) ∧
    (adjFull s.dev n = true → (adj s.dev n).helloAt + getF s.dev (F.S_FAB.TIMERS.HELLOINT 0xFF) ≤ s.dev.fab.frame →
      completes (.helloKeepalive n) s (sendHello s.dev n)) ∧
    (anyFull s.dev = true → s.dev.fab.quiet = false → s.dev.fab.dbAt + 8 ≤ s.dev.fab.frame →
      (let b := (bestCapt s.dev).map (·.uid)
       let d := setB { s.dev with fab := { s.dev.fab with quiet := true, choice := b } } F.FAB_STAT.NOCAPT (decide (b = none))
       let d := if d.fab.capt.map (·.1) = b then d else setCapt d none
       completes .endOfQuiet s (fabRefresh (if b = some (ownUid d) then becomeCapt d else d)))) ∧
    (s.dev.fab.genAt = some f → f + 64 ≤ s.dev.fab.frame →
      (let d := { s.dev with fab := { s.dev.fab with genAt := none } }
       completes .grantDeadline s
         (if s.dev.fab.genMine = true then d else fabRefresh (setB (setAddr d 0x3FF) F.FAB_STAT.NOADDR true)))) ∧
    (s.dev.fab.db.find? (fun y => decide (y.uid = uid.toNat)) = some x → x.lost = some f →
      f + deadInt s.dev ≤ s.dev.fab.frame →
      (let addr := (x.p0.map (·.addr)).getD 0x3FF
       let d := tombEnd s.dev uid.toNat
       let d := { d with fab := { d.fab with
         tombs := d.fab.tombs ++ [⟨uid.toNat, x.epoch, d.fab.frame, addr⟩]
         db := d.fab.db.filter (fun y => decide (y.uid ≠ uid.toNat)) } }
       completes (.tombstoneCreate uid) s (fabRefresh (dbTouch (nodeGone d addr x.epoch))))) ∧
    (tombOf s.dev uid.toNat = some t → t.at_ + getF s.dev (F.S_FAB.TOMB.FRAMES 0xFF) ≤ s.dev.fab.frame →
      completes (.tombstoneExpiry uid) s (tombEnd s.dev uid.toNat)) ∧
    (s.dev.fab.refloodAt + 65536 ≤ s.dev.fab.frame →
      (let d := { s.dev with fab := { s.dev.fab with refloodAt := s.dev.fab.frame } }
       completes .lsaReflood s
         ((List.finRange 8).foldl (fun d m => originate d 2 0x3FF (partBytes d m))
           (originate d 2 0x3FF (part0Bytes d (ownPart0 d)))))) ∧
    ((ownRun s.dev r.toNat).st = 1 → (ownRun s.dev r.toNat).at_ + 1024 ≤ s.dev.fab.frame →
      completes (.runTimeout r) s (fabRefresh (runFail (sendTear s.dev r.toNat 4) r.toNat 4 0))) ∧
    (getB s.dev F.FAB_STAT.GATED = true → getB s.dev F.TIME_STAT.LOCKED = true →
      (isCapt s.dev = true ∨ s.dev.fab.tup.isSome = true) →
      completes .fabricGateOpen s (fadeInAll (setB s.dev F.FAB_STAT.GATED false)))

/-! ### Power, wakes, live service, host interfaces -/

/-- The rows of the Coach, of the operating points and of the domains complete (R405, R406, R410, R414, R416, R432 to R434,
R439, R442). -/
def Obligations.PowerRowsComplete : Prop :=
  ∀ (s : State) (n : Fin 13) (raw : List Int) (mv v a0 : Nat) (l : List DvfsStep) (why : VFail) (status : BitVec 16),
    held s.dev = false →
    (decisionDue s.dev = true → ∀ link sap,
      let d := { s.dev with decided := true }
      let h := hottest d
      let tcrit := getF d F.COACH_TCRIT.C
      let leak := powerLeak d h.1
      let p := powerDyn d link sap + leak + (coachCal d).pbase
      let old : CoachLevel := ⟨getF d F.COACH_STAT.LEVEL, getF d F.COACH_STAT.DWELL, getF d F.COACH_STAT.TL,
        getF d F.COACH_STAT.PL, getB d F.COACH_STAT.HOT⟩
      let new := coachLevel (getF d F.COACH_CTL.MODE) (getF d F.COACH_CTL.FLEV) (getF d (F.S_COACH.THERM.TBASE 0xA3))
        (getF d (F.S_COACH.THERM.TSTEP 0xA3)) (getF d (F.S_COACH.THERM.THYST 0xA3)) (getF d (F.S_COACH.THERM.DWELL 0xA3))
        tcrit (getF d F.COACH_BUDGET.PBUDGET) (getF d F.COACH_BUDGET.PHYST) h.1 p old
      (getF d F.COACH_CTL.MODE ≠ 1 ∨ 16 * (tcrit : Int) ≤ h.1 →
        completes (.coachDecision link sap) s (putTiers (putLevel
          (setF (setF (setF (setF d F.COACH_PWR.P (Nat.min 0xFFFF p)) F.COACH_PWR.PLEAK (Nat.min 0xFFFF leak))
            F.COACH_THOT.T (BitVec.ofInt 16 h.1).toNat) F.COACH_THOT.SENSOR h.2) old new) new.level)) ∧
      (getF d F.COACH_CTL.MODE = 1 → h.1 < 16 * (tcrit : Int) → completes (.coachDecision link sap) s d)) ∧
    completes (.thermalSensorConversion raw) s ((List.range 12).foldl (fun d m =>
      setF d (F.COACH_TS.T m) (if sensorOn d m
        then (BitVec.ofInt 16 (raw.getD m 0 + (coachCal s.dev).trim.getD m 0)).toNat else 0)) s.dev) ∧
    (s.dev.dvfs = .volt v :: l →
      (let d := setF s.dev F.PWR_PMBSTAT.VOUT mv
       mv ≤ getF d (F.PWR_VOPP.MV v) + getF d F.PWR_PMBCFG.TOL → getF d (F.PWR_VOPP.MV v) ≤ mv + getF d F.PWR_PMBCFG.TOL →
       completes (.voltageConfirm mv) s (dvfsRun l (setF d F.PWR_DVFSSTAT.VIDX v))) ∧
      (let d := setF s.dev F.PWR_PMBSTAT.STATUS status.toNat
       let d := match why with
         | .settle => d
         | .nack => setB d F.PWR_PMBSTAT.NACK true
         | .clockLow => setB d F.PWR_PMBSTAT.TIMEOUT true
       completes (.voltageStepFail why status) s
         (dvfsEnd (raiseEv (setB (setF d F.PWR_DVFSSTAT.VIDX (Nat.min (vidx d) v)) F.PWR_DVFSSTAT.FAIL true) 0x1C2)))) ∧
    (awake s.dev = true →
      (domState s.dev n.val = 0 → domHeld s.dev n.val = false → getF s.dev (F.PWR_DOMCFG.IDLEUS n.val) ≠ 0 →
        getF s.dev (F.PWR_DOMCFG.IDLEUS n.val) * 1000 ≤ domTimer s.dev n.val →
        completes (.domainIdleTimeout n) s (setDomain s.dev n.val 1)) ∧
      (domState s.dev n.val = 1 → domHeld s.dev n.val = false → getB s.dev (F.PWR_DOMCFG.DOWNEN n.val) = true →
        getF s.dev (F.PWR_DOMCFG.IDLEUS n.val) ≠ 0 →
        (getF s.dev (F.PWR_DOMCFG.IDLEUS n.val) + getF s.dev (F.PWR_DOMCFG.DOWNUS n.val)) * 1000 ≤ domTimer s.dev n.val →
        downAllowed s.dev n.val = true → completes (.domainDownTimeout n) s (setDomain s.dev n.val 2)) ∧
      (let t := getF s.dev F.PWR_CTL.TARGET
       t ≠ 0 → getF s.dev F.PWR_CTL.MS ≠ 0 → getF s.dev F.PWR_CTL.MS * 1000000 ≤ s.dev.devNs → s.dev.entry = none →
       s.dev.exiting = false → holdersOf s.dev (entryMask t) = [] →
       completes .deviceTimerExpiry s
         (setF { s.dev with entry := some t, halted := Vector.replicate 4 false, wakePend := none, devNs := 0 }
           F.PWR_STAT.STATE 2))) ∧
    (domHeld s.dev n.val = true → (domState s.dev n.val = 1 ∨ domState s.dev n.val = 2) →
      completes (.domainWakeDone n) s (setDomain s.dev n.val 0)) ∧
    (∀ t, s.dev.entry = some t → s.dev.hspiOps = [] → holdersOf s.dev (entryMask t) = [] → kickoffsEnded s.dev = true →
      let d := (List.finRange 256).foldl drainQueue s.dev
      let d := setF { d with entry := none, restT0 := tod d, restA0 := a0 % 2 ^ 48, winBad := true } F.TIME_AON.COUNT a0
      let d := if t = 2 then (List.finRange 128).foldl deepBank d else d
      let d := if t = 3 then d else padLatch d
      let d := setF { d with pstate := if t = 1 then .sleep else if t = 2 then .deep else .off } F.PWR_STAT.STATE (3 + t)
      d.wakePend = none → completes (.entryCommitPoint a0) s d)

/-- The wakes complete (R421 to R426, R435, R502): a source that PWR_WAKECFG enables starts the exit of a sleeping device, and
records itself; the exit brings the device to RUN. -/
def Obligations.WakesComplete : Prop :=
  ∀ (s : State) (k : Fin 4) (n : Fin 8) (mv : Nat) (status : BitVec 16) (a1 : Nat)
    (lost : List (Fin 128 × Fin 4 × Cell)), held s.dev = false →
    (s.dev.exiting = false → s.dev.entry = none → s.dev.pstate = .sleep →
      let on := fun (d : Device) (i : Nat) => getF d ⟨Adr.PWR_WAKECFG, i, 1⟩ ≠ 0
      (on s.dev 4 → completes .wakeNAssert s (exitBegin s.dev 4)) ∧
      (let d := setB { s.dev with senseRun := s.dev.senseRun.set k (s.dev.senseRun[k] + 1) } (F.PWR_SENSE.OUT k.val) true
       senseOut s.dev k mv = true → s.dev.senseRun[k] = getF s.dev (F.PWR_SENSE.DEB k.val) → on d k.val →
         completes (.senseCrossing k mv) s (exitBegin d k.val)) ∧
      (on s.dev 5 → n.val < linkCount s.dev → linkField s.dev n.val 0x40 3 1 = 1 →
        completes (.linkSquelchWake n) s (exitBegin s.dev 5)) ∧
      (on s.dev 6 → completes .hspiCsWake s (exitBegin s.dev 6) ∧
        (hasPcie s.dev = true → completes .pcieL1Exit s (exitBegin s.dev 6))) ∧
      (let d := raiseEv (setF s.dev F.PWR_ALARM.EN 0) 0x1C4
       getF s.dev F.PWR_ALARM.EN = 1 → on d 7 → completes .aonAlarm s (exitBegin d 7)) ∧
      (let d := { setF s.dev F.PWR_PMBSTAT.ALERT 1 with pmbDue := some status.toNat }
       on d 8 → completes (.pmbAlert (some status)) s (exitBegin d 8))) ∧
    (s.dev.pstate = .off → completes (.senseCrossing k mv) s s.dev ∧ completes (.pmbAlert (some status)) s s.dev) ∧
    (s.dev.pstate ≠ .off → completes (.pmbAlert none) s (setF s.dev F.PWR_PMBSTAT.ALERT 0)) ∧
    (s.dev.exiting = false → s.dev.entry = none → s.dev.pstate = .run → getF s.dev F.PWR_ALARM.EN = 1 →
      getF s.dev F.PWR_ALARM.AT < getF s.dev F.TIME_AON.COUNT + 65536 →
      completes .aonAlarm s (raiseEv (setF s.dev F.PWR_ALARM.EN 0) 0x1C4)) ∧
    (s.dev.pstate ≠ .off → senseOut s.dev k mv = false →
      completes (.senseCrossing k mv) s
        (setB { s.dev with senseRun := s.dev.senseRun.set k 0 } (F.PWR_SENSE.OUT k.val) false)) ∧
    (∃ d, completes .perstNRise s d ∧ d.perst = true) ∧
    (∃ d, completes .perstNFall s d ∧ d.perst = false ∧ d.pcieMsixEn = false ∧ d.pcieBar = 0 ∧ d.pcieCpl = []) ∧
    (s.dev.exiting = true → (s.dev.pstate = .sleep ∨ s.dev.pstate = .deep) →
      let d := settlePstate { s.dev with
        pstate := .run, exiting := false, halted := Vector.replicate 4 false
        sap := s.dev.sap.map (fun x => { x with frame := none, fresh := true, due := none }) }
      let d := setF d F.PWR_STAT.STATE 0
      let d := if s.dev.pstate = .deep then (List.finRange 128).foldl (deepLeave lost) d else d
      let d := guardWake (restartDomains (freeLocked (timeBegin (pllsLock d) a1)) (fun _ => true))
      let d := raiseEv (join ((List.finRange 8).foldl linkRetrain d)) 0x1C0
      d.pmbDue = none → completes (.exitComplete a1 lost) s (runStalled d))

/-- The rows of live service, of the flash command and of the partition complete (R473, R480, R484): a substitute holds the
original's storage once it is copied, a flash command ends with the bytes read, and a tamper wipes the partition. -/
def Obligations.ServiceRowsComplete : Prop :=
  ∀ (s : State) (x : Subst) (bytes : List (BitVec 8)),
    (held s.dev = false →
      (s.dev.sub = some x → x.copied = false →
        completes .subCopyDone s { setAg s.dev x.phys { ag s.dev x.phys with
            prog := (ag s.dev x.orig).prog, progShadow := (ag s.dev x.orig).progShadow, loc := (ag s.dev x.orig).loc
            shadow := (ag s.dev x.orig).shadow } with sub := some { x with copied := true } }) ∧
      (getB s.dev F.FSPI_XSTAT.BUSY = true →
        (getB s.dev F.FSPI_XCMD.DIR = false →
          completes (.fspiCommandDone bytes) s (setB s.dev F.FSPI_XSTAT.BUSY false)) ∧
        (getB s.dev F.FSPI_XCMD.DIR = true →
          completes (.fspiCommandDone bytes) s (setB ((List.range (getF s.dev F.FSPI_XCMD.NBYTES)).foldl (fun d i =>
            setF d ⟨Adr.FSPI_BUF (i / 4), 8 * (i % 4), 8⟩ (bytes.getD i 0).toNat) s.dev) F.FSPI_XSTAT.BUSY false)))) ∧
    (s.dev.powered = true →
      completes .tamperAssert s { s.dev with part := [], wiping := true, tampered := true }) ∧
    completes .partitionWipeDone s { s.dev with wiping := false }

/-- The rows of HSPI complete (R486 to R493): an accepted WRITE posts its words at ascending addresses, an accepted QREAD posts
its reads with a place for each in the read buffer, STATUS shifts out HSPI_STAT, FETCH removes the completed words it shifted
out whole, a READ on time shifts out the word, a frame of a reserved command is rejected with FRAME, and the oldest posted
write is carried out as a write of HSPI. -/
def Obligations.HspiRowsComplete : Prop :=
  ∀ (s : State) (bits : Nat) (addr : Word) (ws : List Word) (a : Nat) (v : Word) (l : Bool) (ops : List HspiOp),
    held s.dev = false →
    let d := hspiBegin s.dev
    let n := fun read : Bool => hspiWhole d read bits
    (hspiOn s.dev = true → bits ≠ 0 →
      (hspiShapeBad d false bits = false →
        (hspiPostCode d (hspiAddr addr) (n false) false = none →
          completes (.hspiWrite bits addr ws) s { d with hspiOps := d.hspiOps ++ (List.range (n false)).map (fun i =>
            .write (hspiAddr addr + 4 * i) (hspiCut d (ws.getD i 0)) (decide (i + 1 = n false))) }) ∧
        (hspiPostCode d (hspiAddr addr) (n false) true = none →
          completes (.hspiQread bits addr) s { d with
            hspiOps := d.hspiOps ++ (List.range (n false)).map (fun i => .read (hspiAddr addr + 4 * i))
            hspiBuf := d.hspiBuf ++ List.replicate (n false) none }) ∧
        completes (.hspiStatus bits addr) s { d with hspiOut := (List.range (hspiBegun d false bits)).map (fun i =>
          if i = 0 then hspiCut d (BitVec.ofNat 32 (hspiStatWord d)) else 0) } ∧
        ((∀ i, i < hspiBegun d false bits → ∃ w, d.hspiBuf[i]? = some (some w)) → n false = hspiBegun d false bits →
          completes (.hspiFetch bits addr) s { d with
            hspiOut := (List.range (n false)).map (fun i => hspiCut d ((d.hspiBuf.getD i none).getD 0))
            hspiBuf := d.hspiBuf.drop (n false) })) ∧
      (hspiShapeBad d true bits = false → hspiBegun d true bits = 1 → awake s.dev = true → s.dev.hspiOps = [] →
        (let r := busPeek d .hspi (hspiAddr addr % 2 ^ 32) (decide (0 < n true))
         hspiShapeBad r.1 true bits = false → r.1.hspiOut = [] →
         completes (.hspiRead bits addr [true]) s { r.1 with hspiOut := [hspiCut r.1 r.2] })) ∧
      completes (.hspiReservedFrame bits addr) s (hspiReject d Rej.frame bits addr false)) ∧
    (awake s.dev = true → s.dev.hspiOps = .write a v l :: ops →
      completes .hspiPostedAccess s (busWrite { s.dev with hspiOps := ops } .hspi a 4 v.toNat))

/-- The rows of CSPI, of the PCIe endpoint and of GPIO complete (R496, R498 to R502, R507). -/
def Obligations.PortRowsComplete : Prop :=
  ∀ (s : State) (c m : Nat) (keep : Bool) (rx : List Word) (addr v w : Word) (up : Bool) (speed width ps : BitVec 2)
    (k : Fin 32) (b e : Bool) (o : BitVec 12),
    (held s.dev = false →
      (awake s.dev = true → s.dev.cspiRun = some (c, m, keep) → 0 < m →
        completes (.cspiDone rx) s (raiseCtrl (setF (setB { s.dev with
            cspiRun := none, cspiTx := s.dev.cspiTx.drop m
            cspiRx := s.dev.cspiRx ++ (List.range m).map (fun i =>
              cspiWord s.dev c (rx.getD i 0)) } F.CSPI_STAT.KEPT keep) F.CSPI_STAT.KSEL c) 0x1CC)) ∧
      (pcieOn s.dev = true →
        (getB s.dev F.PCIE_STAT.D3 = false → awake s.dev = true → addr.toNat < 0x20000000 → addr.toNat % 4 = 0 →
          completes (.pcieMemoryWrite addr [(v, 15)]) s (busWrite s.dev .pcie addr.toNat 4 v.toNat) ∧
          (addr.toNat % 8 = 0 → coversWide s.dev addr.toNat = true →
            completes (.pcieMemoryWrite addr [(v, 15), (w, 15)]) s
              (busWrite s.dev .pcie addr.toNat 8 (v.toNat + w.toNat * 2 ^ 32))) ∧
          (let r := busGet (touch { s.dev with pcieCpl := [] } addr.toNat) .pcie addr.toNat 4
           r.1.pcieCpl = [] →
           completes (.pcieMemoryRead addr 4) s (entryCheck { r.1 with pcieCpl := [BitVec.ofNat 32 r.2.1] }))) ∧
        completes .pcieUnsupportedRequest s (raiseEv (incF s.dev F.PCIE_ERR.UR) 0x1CF) ∧
        completes .pciePoisonedWrite s (raiseEv (incF s.dev F.PCIE_ERR.POIS) 0x1CF) ∧
        (let d := setF (setF (setF (setB s.dev F.PCIE_STAT.LINKUP up) F.PCIE_STAT.SPEED speed.toNat)
            F.PCIE_STAT.WIDTH width.toNat) F.PCIE_STAT.PSTATE ps.toNat
         completes (.pcieLinkChange up speed width ps) s
           (entryCheck (if getB s.dev F.PCIE_STAT.LINKUP = up ∧ getF s.dev F.PCIE_STAT.SPEED = speed.toNat ∧
              getF s.dev F.PCIE_STAT.WIDTH = width.toNat then d else raiseEv d 0x1CE))) ∧
        completes (.pcieConfigurationRequest (.power true)) s (setDomain (setB s.dev F.PCIE_STAT.D3 true) 11 1) ∧
        completes (.pcieConfigurationRequest (.power false)) s (domainWake (setB s.dev F.PCIE_STAT.D3 false) 11) ∧
        completes (.pcieConfigurationRequest (.msix b e)) s
          (msixUnmaskAll { s.dev with pcieMsixEn := b, pcieFnMask := e }) ∧
        completes (.pcieConfigurationRequest (.bar0 v)) s { s.dev with pcieBar := v.toNat / 2 ^ 29 * 2 ^ 29 } ∧
        completes (.pcieConfigurationRequest (.payload b)) s { s.dev with pcieMps := if b then 1 else 0 } ∧
        (∃ d, completes (.pcieConfigurationRequest (.read o)) s d ∧ d.pcieCpl.length = 1 ∧
          (o.toNat / 4 = 4 → d.pcieCpl = [BitVec.ofNat 32 s.dev.pcieBar])))) ∧
    (∃ d, completes (.gpioInputChange k b) s d ∧ ∀ j : Fin 32,
      d.gpioPads.getLsbD j.val = (if j = k then b else s.dev.gpioPads.getLsbD j.val))

/-! ### Accesses of the requesters -/

/-- The accesses of registers complete (R5, R19, R29 to R32, R506): a write has its effect under the access codes, a read
returns the value and takes with it what its read clears; the low half of a W register read keeps the high half for its
requester, the low half written waits for the high half, which stores both; and a write that waited for its handshake takes
effect when the handshake completes. -/
def Obligations.RegisterAccessesComplete : Prop :=
  ∀ (s : State) (q : Req) (addr v : Word) (x : BitVec 64) (r : RegRow) (m : PendWr),
    (mayReach s.dev = true → areaOf addr.toNat = .regs →
      let a := addr.toNat
      let d := found s.dev a
      let t := touch s.dev a
      subAbsent s.dev a = false →
      (a % 4 = 0 → regRow a = some (r, false) →
        (r.wide = false →
          (mediaReg a = false → aonReg a = false →
            completes (.registerWrite q addr .w32 x) s (written (applyReg d q a r (BitVec.ofNat 32 x.toNat)) q a)) ∧
          completes (.readClear q addr .w32) s
            (answered (readTakes t a) q (((liveWord t q a).getD (reg t a).toNat) % 2 ^ 32) .int)) ∧
        (r.wide = true →
          completes (.wLowRead q addr) s
            (answered (readTakes (peekReg t q a).1 a) q (wideValue t a % 2 ^ 32) .int) ∧
          sparseGet wordZero (peekReg t q a).1.readHold (holdKey q a) = BitVec.ofNat 32 (wideValue t a / 2 ^ 32) ∧
          completes (.wLowWrite q addr v) s
            (written { d with writeHold := sparsePut wordZero d.writeHold (holdKey q a) v } q a))) ∧
      (a % 8 = 4 → regRow a = some (r, true) → r.wide = true → mediaReg (a - 4) = false → aonReg (a - 4) = false →
        completes (.wHighWrite q addr v) s (written (applyWide d q (a - 4) a r
          (v.toNat * 2 ^ 32 + (sparseGet wordZero d.writeHold (holdKey q (a - 4))).toNat)) q a))) ∧
    (held s.dev = false → sparseGet noPend s.dev.handshake addr.toNat = some m →
      let d := crossed s.dev addr.toNat
      (awake s.dev = true → mediaReg addr.toNat = true →
        completes (.mediaWriteComplete addr) s (mediaApply d addr.toNat m)) ∧
      (aonReg addr.toNat = true → completes (.aonWriteComplete addr) s (aonApply d addr.toNat m)))

/-- The accesses of the engine and group windows complete (R108, R109, R168, R177, R181, R182): a window write reaches a
stopped engine and the substitute that mirrors it, local data takes its word and gives it back, a program bank takes its word,
and a group window writes every present member, and
nothing where it has none. -/
def Obligations.WindowAccessesComplete : Prop :=
  ∀ (s : State) (q : Req) (n g : Fin 64) (o : BitVec 11) (o18 : BitVec 18) (o16 : BitVec 16) (o20 : BitVec 20) (v : Word)
    (x : BitVec 64) (b : Bool) (wd : Width),
    mayReach s.dev = true →
    (n.val < engCount s.dev →
      (let w := 0x60000 + o.toNat / 4 * 4
       let a := engWindow n + w
       let d := found s.dev a
       o.toNat < 0x600 → engRefusal d (engProc n) w = none →
         completes (.engineRegisterWrite q n o v) s (written (engWinPut d (engProc n) w 4 v .sample) q a)) ∧
      (let a := engWindow n + 0x60214
       let d := found s.dev a
       engRefusal d (engProc n) 0x60214 = none →
         completes (.engTagctlWrite q n v) s (written (engWinPut d (engProc n) 0x60214 4 v .sample) q a)) ∧
      (let a := engWindow n + o18.toNat
       let d := found s.dev a
       o18.toNat % 4 = 0 → o18.toNat < 0x30000 → copyTarget d (engProc n) = false →
         completes (.localDataHostAccess q n o18 .w32 (some x)) s
           (written (engWinPut d (engProc n) o18.toNat 4 (BitVec.ofNat 32 x.toNat) .sample) q a) ∧
         completes (.localDataHostAccess q n o18 .w32 none) s
           (answered (touch s.dev a) q (localCell (touch s.dev a) (engProc n) (o18.toNat / 4)).w.p.toNat
             (cellRead (localCell (touch s.dev a) (engProc n) (o18.toNat / 4))).t)) ∧
      (let w := (if b then 0x90000 else 0x80000) + o16.toNat
       let a := engWindow n + w
       let d := found s.dev a
       o16.toNat % 4 = 0 → engRefusal d (engProc n) w = none →
         completes (.programBankHostWrite q n b o16 .w32 x) s
           (written (engWinPut d (engProc n) w 4 (BitVec.ofNat 32 x.toNat) .sample) q a))) ∧
    (let a := 0x14000000 + 0x100000 * g.val + o20.toNat
     let d := found s.dev a
     o20.toNat % 4 = 0 → members d g.val ≠ [] → (∀ m ∈ members d g.val, engRefusal d m o20.toNat = none) →
       completes (.groupWindowWrite q g o20 .w32 x) s (written
         ((members d g.val).foldl (fun d m => engWinPut d m o20.toNat 4 (BitVec.ofNat 32 x.toNat) .sample) d) q a)) ∧
    (let a := 0x14000000 + 0x100000 * g.val + o20.toNat
     let d := found s.dev a
     wd ≠ .w64 → members d g.val = [] → completes (.groupWindowWrite q g o20 wd x) s (written (ignored d) q a))

/-- The accesses of delay memory and the rows of its banks complete (R187, R188, R196 to R201, R207 to R211): an access that no
other waits before takes a word tagged SAMPLE or gives the payload back in the bank cycle where it is placed, or waits at its
bank where neither that cycle nor a certainly idle one is free; an alias atomic keeps the old word for its requester and leaves the sum,
the new word, or the bits set or cleared, the tag view changes the tag alone, and a bank goes on to the state its transition
ends in. -/
def Obligations.DelayAccessesComplete : Prop :=
  ∀ (s : State) (q : Req) (addr : BitVec 28) (o26 : BitVec 26) (o24 : BitVec 24) (v : Word) (x : BitVec 64) (k : Fin 8)
    (b : Fin 128) (pl : Place) (lost : List (Fin 4 × Cell)),
    (mayReach s.dev = true → s.dev.waits = [] →
      (let a := addr.toNat
       let w := a / 4
       let d := found s.dev a
       a % 4 = 0 → a < 0x4000000 → bankPresent d w = true → bankReady d (bankOf w) = true →
         (placing (touch s.dev a) (some pl) a 4 true = .perform →
           completes (.delayHostAccess q addr .w32 (some x) pl) s
             (written (putDelay d w ⟨BitVec.ofNat 32 x.toNat, .sample⟩) q a)) ∧
         (placing (touch s.dev a) (some pl) a 4 false = .perform → (delayCell d w).bad = false →
           (let p := (delayCell (touch s.dev a) w).w.p
            let e := respond (touch s.dev a) q p.toNat .sample
            completes (.delayHostAccess q addr .w32 none pl) s (entryCheck (match q with
              | .pcie => { e with pcieCpl := [p] }
              | .hspi => { e with hspiOut := [p] }
              | _ => e)))) ∧
         (∀ y : Option (BitVec 64), placing (touch s.dev a) (some pl) a 4 y.isSome = .again →
           bankIdle (touch s.dev a) (bankOf w) = false →
           completes (.delayHostAccess q addr .w32 y pl) s
             (entryCheck { touch s.dev a with waits := [⟨q, a, 4, y, 0, true, 0, .uninit⟩] }))) ∧
      (let w := o26.toNat / 4
       ∀ base, base ∈ [0x4000000, 0x8000000] →
       let a := base + o26.toNat
       let d := found s.dev a
       let c := delayCell d w
       let e := { hostParity d q w with
         oldAtomic := sparsePut (fun _ => TWord.zero .uninit) (hostParity d q w).oldAtomic (reqIdx q) (cellRead c) }
       o26.toNat % 4 = 0 → bankPresent d w = true → bankReady d (bankOf w) = true →
         (getB d (F.S_DLY.CTL.ALIAS (groupRegion (bankOf w))) = false →
           (base = 0x4000000 → completes (.aliasAtomicAdd q o26 .w32 v) s (written (putDelay e w ⟨c.w.p + v, (cellRead c).t⟩) q a)) ∧
           (base = 0x8000000 → completes (.aliasAtomicSwap q o26 .w32 v) s (written (putDelay e w ⟨v, .sample⟩) q a))) ∧
         (getB d (F.S_DLY.CTL.ALIAS (groupRegion (bankOf w))) = true →
           (base = 0x4000000 → completes (.aliasBitSet q o26 .w32 v) s
             (written (putDelay e w ⟨c.w.p ||| v, (cellRead c).t⟩) q a)) ∧
           (base = 0x8000000 → completes (.aliasBitClear q o26 .w32 v) s
             (written (putDelay e w ⟨c.w.p &&& ~~~v, (cellRead c).t⟩) q a)))) ∧
      (let a := 0xC000000 + o24.toNat
       let w := o24.toNat
       let d := found s.dev a
       bankPresent d w = true → bankReady d (bankOf w) = true → (delayCell d w).bad = false →
         completes (.tagViewWrite q o24 .w8 v) s
           (written (putDelay d w ⟨(delayCell d w).w.p, tagOfCode (v.toNat % 256 % 16)⟩) q a)) ∧
      (let a := Adr.DLY_BANKPWR k.val
       completes (.dlyBankpwrWrite q k v) s (written ((List.range 16).foldl (fun d j =>
         bankCommand d ⟨(16 * k.val + j) % 128, by omega⟩ (bitsOf v.toNat (2 * j) 2)) (found s.dev a)) q a))) ∧
    (held s.dev = false →
      (s.dev.banks[b] = .waking →
        (let d := lost.foldl (putCanary b) s.dev
         (canariesOk d b = true → completes (.bankTransitionDone b lost) s (setBank d b .on)) ∧
         (canariesOk d b = false → completes (.bankTransitionDone b lost) s
           (raiseEv (startSweep (setF d ⟨Adr.PWR_RETLOST (b.val / 32), b.val % 32, 1⟩ 1) b) 0x191)))) ∧
      (canariesOk (retain s.dev b) b = true) ∧
      (s.dev.banks[b] = .starting → completes (.bankTransitionDone b lost) s (startSweep s.dev b)) ∧
      (s.dev.banks[b] = .sweeping → b.val < bankCount s.dev →
        (let f := getF s.dev (F.DLY_BANKPWR.PWR (b.val / 16) (b.val % 16))
         completes (.bankSweepDone b) s (bootProgress
           (if f = 1 then retain s.dev b else setBank s.dev b (if f = 2 then .off else .on))))) ∧
      completes .membusyNPulseEnd s { s.dev with memBusy := false })

/-- The register writes of the route, of the generators, of the mix units, of the ports and of the Guard complete (R238, R239,
R247, R249, R250, R253, R270, R287 to R291). -/
def Obligations.AudioRegistersComplete : Prop :=
  ∀ (s : State) (q : Req) (v : Word) (y : BitVec 64) (k : Fin 4) (g m : Fin 16) (n : Fin 32) (c : Fin 1024),
    mayReach s.dev = true →
    (let a := Adr.ROUTE_CHG
     let d := found s.dev a
     let x := v.toNat % 2 ^ 15
     let src := v.toNat / 2 ^ 16 % 2 ^ 15
     sinkDom d x = some k → sinkBypassed d x = false → routeLegal d k x src = true → changeFits d k x src = true →
       d.rtStage[k].length < 1024 →
       completes (.routeChgWrite q v) s (written { d with
         rtStage := d.rtStage.set k (d.rtStage[k] ++ [⟨x, src, getF d F.ROUTE_CTL.FADE, reqPath q⟩]) } q a)) ∧
    (let a := Adr.ROUTE_CTL
     let d := found s.dev a
     let e := routeCtlTaken d v.toNat
     let j := dom v.toNat
     (v.getLsbD 3 = true → domConfigured d j = true → e.rtStage[j] ≠ [] → e.rtArmed[j] = none →
       completes (.routeGo q v) s (written { e with
         rtArmed := e.rtArmed.set j (some ⟨targetOf e j (getB e F.ROUTE_CTL.NEXT) (getF e F.ROUTE_APPLYKO.KICKOFF), e.rtStage[j]⟩)
         rtStage := e.rtStage.set j [] } q a)) ∧
     (v.getLsbD 4 = true → v.getLsbD 3 = false → domConfigured d j = true →
       completes (.routeDiscard q v) s (written { setF (setF (setF d F.ROUTE_CTL.DOMAIN (v.toNat % 4)) F.ROUTE_CTL.NEXT
         (v.toNat / 4)) F.ROUTE_CTL.FADE (v.toNat / 2 ^ 8) with rtStage := d.rtStage.set j [] } q a))) ∧
    (let a := Adr.ROUTE_BYPSEL
     let d := found s.dev a
     let i := getF d F.ROUTE_BYPIDX.ENTRY
     let src := v.toNat % 2 ^ 16
     i / 64 < engCount d → (src = 0x8000 ∨ src = 0x8001 ∨ (src < 0x8000 ∧ routeLegal d (rgnDomain d (i / 64)) i src = true)) →
       completes (.routeBypselWrite q v) s
         (written (bypIndexNext { d with bypSel := sparsePut (fun _ => 0x8000) d.bypSel i src }) q a)) ∧
    (let a := Adr.GEN_SINE g.val
     let d := foundPair s.dev q a y.toNat
     completes (.genSineWrite q g y) s (written
       (setF (setF d (F.GEN_SINE.PHINC g.val) (y.toNat % 2 ^ 32)) (F.GEN_SINE.LEVEL g.val) (y.toNat / 2 ^ 32)) q (lastAt q a))) ∧
    (let a := Adr.GEN_NOISE g.val
     let d := foundPair s.dev q a y.toNat
     completes (.genNoiseWrite q g y) s (written (noiseWrite d g.val y.toNat) q (lastAt q a))) ∧
    (let a := Adr.MIX_XPCMD m.val
     let d := foundPair s.dev q a y.toNat
     let i := y.toNat % 2 ^ 8
     let o := y.toNat / 2 ^ 8 % 2 ^ 6
     let x := mixUnit d m
     i < mixNin d m → o < mixNout d m → x.staged.length < 1024 →
       completes (.mixXpcmdWrite q m y) s (written (setMix d m { x with
         staged := x.staged ++ [⟨i, o, (BitVec.ofNat 32 (y.toNat / 2 ^ 32)).toInt, y.toNat / 2 ^ 14 % 4⟩] }) q (lastAt q a))) ∧
    (let a := Adr.MIX_CTL m.val
     let d := found s.dev a
     let e := mixCtlTaken d m v.toNat
     let x := mixUnit e m
     (v.getLsbD 0 = true → domConfigured d (mixDom d m) = true → x.staged ≠ [] → x.armed = none →
       completes (.mixGo q m v) s (written (setMix e m { x with
         armed := some (targetOf e (mixDom e m) (getB e (F.MIX_CTL.NEXT m.val)) (getF e (F.MIX_APPLYKO.KICKOFF m.val)), x.staged)
         staged := [] }) q a)) ∧
     (v.getLsbD 2 = true → v.getLsbD 0 = false →
       (let e := setF d (F.MIX_CTL.NEXT m.val) (v.toNat / 2)
        completes (.mixDiscard q m v) s (written (setMix e m { mixUnit e m with staged := [] }) q a)))) ∧
    (let a := Adr.SAP_CTL n.val
     let d := found s.dev a
     n.val < sapCount d → getB d (F.SAP_STAT.MUTED n.val) = true →
       completes (.sapUnmute q n) s (written (setSap d n { sap d n with unmute := true }) q a)) ∧
    (let a := Adr.GUARD_CEIL c.val
     let d := found s.dev a
     c.val / 32 < sapCount d → v.toNat < 2 ^ 31 →
       (v.toNat ≤ getF d (F.GUARD_CEIL.CEIL c.val) →
         completes (.guardRtWrite q (BitVec.ofNat 32 a) v) s (written (setF d (F.GUARD_CEIL.CEIL c.val) v.toNat) q a)) ∧
       (getF d (F.GUARD_CEIL.CEIL c.val) < v.toNat →
         completes (.guardRtWrite q (BitVec.ofNat 32 a) v) s (written (raiseEv (setF (setF (incF (ignored d)
           F.GUARD_STAT.LOOSEN_CNT) F.GUARD_STAT.LPATH (reqPath q)) F.GUARD_LOOSEN_ADDR.ADDR a) 0x197) q a))) ∧
    (let a := Adr.GUARD_CTL
     let d := found s.dev a
     d.wdHold ≠ none → getB d F.WDOG_CTL.EN = true → d.wdRestarted = true →
       completes (.guardWdrel q) s (written (fadeInAll (setB { d with wdHold := none } F.GUARD_STAT.WDHOLD false)) q a))

/-- The register writes of the loader, of the PLLs, of the handovers, of the time reference, of the links and of the fabric
complete (R74, R90, R305, R306, R313, R315, R316, R327, R339, R341, R350, R361). -/
def Obligations.LoadClockAndLinkRegistersComplete : Prop :=
  ∀ (s : State) (q : Req) (v : Word) (y : BitVec 64) (m k : Fin 4) (n : Fin 8) (lim : Nat),
    mayReach s.dev = true →
    (let a := Adr.LDR_CTL
     let d := found s.dev a
     let e := setB (setB d F.LDR_CTL.SRC (v.getLsbD 2)) F.LDR_CTL.Q0EN (v.getLsbD 8)
     (v.getLsbD 0 = true → v.getLsbD 1 = false → getB e F.LDR_STAT.BUSY = false → getF e F.BOOT_STAT.PHASE ≠ 1 →
       e.live = none → loadLimit (getB e F.LDR_CTL.SRC) (getF e F.LDR_SRC.ADDR / 4 * 4) = some lim →
       getF e F.LDR_SRC.ADDR / 4 * 4 + 4 * getF e F.LDR_LEN.WORDS ≤ lim →
       completes (.ldrGo q v) s (written (setF (setB (setPath { e with
         cmdLeft := some (getF e F.LDR_LEN.WORDS), cmdAbort := false } 1 LdrPath.reset) F.LDR_STAT.BUSY true)
         F.LDR_POS.WORDS 0) q a)) ∧
     (v.getLsbD 1 = true → v.getLsbD 0 = false → e.cmdLeft.isSome = true → e.live = none →
       completes (.ldrAbort q v) s (written (atBoundary { e with cmdAbort := true } 1) q a))) ∧
    (let a := Adr.CLK_MTGT m.val
     let d := found s.dev a
     pllIdle d m.val = true → (v.toNat = 0 ∨ (2000000000 ≤ v.toNat ∧ v.toNat ≤ 4000000000)) →
       completes (.clkMtgtWrite q m v) s (written (if getB d (F.CLK_MCTL.EN m.val) = true
         then pllStart (setF d (F.CLK_MTGT.FHZ m.val) v.toNat) (2 + m.val) else setF d (F.CLK_MTGT.FHZ m.val) v.toNat) q a)) ∧
    (let a := Adr.CLK_MCTL m.val
     let d := found s.dev a
     let e := setB d (F.CLK_MCTL.EN m.val) (v.getLsbD 0)
     (v.getLsbD 0 = true ∨ pllIdle d m.val = true) →
       completes (.clkMctlWrite q m v) s (written
         (if v.getLsbD 0 = true then (if pllRuns d (2 + m.val) = true then e else pllStart e (2 + m.val))
          else pllMute e (2 + m.val)) q a)) ∧
    (let a := Adr.CLK_HO k.val
     let d := foundPair s.dev q a y.toNat
     let e := written (awaitWrite d q a (lastAt q a) y.toNat) q (lastAt q a)
     let e := crossed e a
     let h := hoAsk y.toNat
     y.getLsbD 63 = true → domConfigured e k = true → hoFields e k h = true → e.ho[k] = none → hoBears e k h = true →
       completes (.handoverArm q k y) s
         (hoArmed (setReg64 e (Adr.CLK_HO k.val) (Nat.land y.toNat 0x4007FFFFFFFFFF03)) k h)) ∧
    (let a := Adr.TIME_STEP
     let e := crossed (written (awaitWrite (foundPair s.dev q a y.toNat) q a (lastAt q a) y.toNat) q (lastAt q a)) a
     completes (.timeStepWrite q y) s (stepTime e y.toInt)) ∧
    (let a := Adr.TIME_CTL
     let e := crossed (written (awaitWrite (found s.dev a) q a a v.toNat) q a) a
     let f := setF (setF (setF e F.TIME_CTL.WDOM (v.toNat / 16 % 4)) F.TIME_CTL.KP (v.toNat / 2 ^ 8 % 32)) F.TIME_CTL.KI
       (v.toNat / 2 ^ 16 % 32)
     namesNoDomain (found s.dev a) a v.toNat = false → v.toNat % 8 < 5 → (v.toNat % 8 = 0 ∨ pullPpm f ≠ 0) → getB f (F.S_FAB.NODE.TFOLLOW 0xFF) = false →
       completes (.timeCtlWrite q v) s (setRefsel f (v.toNat % 8))) ∧
    (let a := Adr.TIME_FREQ
     let e := crossed (written (awaitWrite (found s.dev a) q a a v.toNat) q a) a
     getF e F.TIME_STAT.STATE = 0 →
       completes (.timeFreqWrite q v) s (setEps e (clampTo (pullU e) v.toInt))) ∧
    (let a := Adr.LINK_CTL n.val
     let d := found s.dev a
     v.getLsbD 0 = true → n.val < linkCount d → linkState d n ≠ 0 →
       completes (.linkRetrain q n v) s (written (linkStart d n) q a)) ∧
    (let a := Adr.LINK_MAPDATA n.val
     let d := found s.dev a
     n.val < linkCount d → getF d (F.LINK_MAPIDX.MAP n.val) ≠ 1 → v.toNat / 2 ^ 18 % 4 ≠ 3 →
       completes (.linkMapdataWrite q n v) s (written (mapAdvance
         (mapPut d n (mapKey d n) (v.toNat % 2 ^ 16 + v.toNat / 2 ^ 18 % 4 * 2 ^ 18)) n) q a)) ∧
    (let a := Adr.FAB_CTL
     v.getLsbD 0 = true → completes (.fabRejoin q v) s (written (join (found s.dev a)) q a)) ∧
    (let a := Adr.FAB_RUNCMD
     let d := foundPair s.dev q a y.toNat
     let r := bitsOf y.toNat 0 8
     let dst := bitsOf y.toNat 8 10
     let ochan := bitsOf y.toNat 18 14
     let dchan := bitsOf y.toNat 32 14
     let count := bitsOf y.toNat 46 9
     (bitsOf y.toNat 56 2 = 1 → 0 < count → count ≤ 256 → dst ≠ ownAddr d → dst < 0x3FE → ochan + count ≤ 16384 →
       dchan + count ≤ 16384 → runHolds (ownRun d r) = false → ownAddr d ≠ 0x3FF → chanBusy d r ochan count = false →
       completes (.runSetup q y) s (written (fabRefresh (runStart d r dst ochan dchan count)) q (lastAt q a))) ∧
     (bitsOf y.toNat 56 2 = 2 → runHolds (ownRun d r) = true →
       completes (.runTeardown q y) s (written (fabRefresh (putRun (releaseOwn (sendTear d r 0) (ownRun d r)) r
         { ownRun d r with st := 0, reason := 0, hops := 0 })) q (lastAt q a))))

/-- The rows of the watchdog, of the control cores, of the Scoreboard and of the queues complete (R18, R21, R376, R382, R384 to
R386, R393, R395, R402). -/
def Obligations.EventAndQueueRowsComplete : Prop :=
  ∀ (s : State) (q : Req) (v : Word) (c : Fin 4) (e : Fin 512) (k : Fin 256) (w : List TWord) (ws : List (List TWord)),
    (mayReach s.dev = true →
      (let d := found s.dev Adr.WDOG_KICK
       v = 0xA55A → completes (.wdogKickWrite q v) s
         (written { setB d F.WDOG_STAT.KICKED true with wdCycles := 0, wdRestarted := true } q Adr.WDOG_KICK)) ∧
      (let d := found s.dev Adr.WDOG_CTL
       let d := if v.getLsbD 0 = true then setB d F.WDOG_CTL.EN true else d
       let d := if v.toNat / 2 ^ 8 = 0 then d else setF d F.WDOG_CTL.LIMIT (v.toNat / 2 ^ 8)
       wdCount d < getF d F.WDOG_CTL.LIMIT → completes (.wdogCtlWrite q v) s (written d q Adr.WDOG_CTL)) ∧
      (let d := found s.dev (Adr.CC_CTL c.val)
       ((d.ccx[c]).run = false →
         completes (.ccRun q c) s (written { ccHold d c with
           ccx := d.ccx.set c { CoreX.reset with run := true }
           ag := d.ag.set (64 + c.val)
             { Engine.reset (64 + c.val) with npc := getF (ccHold d c) (F.CC_RESETVEC.ADDR c.val) / 8 } } q (Adr.CC_CTL c.val))) ∧
       completes (.ccReset q c) s (written { d with
         ccx := d.ccx.set c CoreX.reset, ag := d.ag.set (64 + c.val) (Engine.reset (64 + c.val)) } q (Adr.CC_CTL c.val))) ∧
      completes (.evtSwtrigWrite q v) s (written ((List.range 16).foldl (fun d k =>
        if v.toNat.testBit k then raiseCtrl d (0x1F0 + k) else d) (found s.dev Adr.EVT_SWTRIG)) q Adr.EVT_SWTRIG) ∧
      (let a := Adr.EVT_ROUTE e.val
       let d := found s.dev a
       evPresent d e.val = true → completes (.evtRouteWrite q e v) s
         (written (evtSettle (setReg d a (BitVec.ofNat 32 (v.toNat % 2 ^ 28)))) q a)) ∧
      completes (.evtMsixackWrite q v) s (written ((List.range 32).foldl (fun d x =>
        if v.toNat.testBit x && (msixLevel d).getLsbD x then sendMsix d x else d) (found s.dev Adr.EVT_MSIXACK)) q Adr.EVT_MSIXACK) ∧
      (let a := Adr.QUE_PORT k.val
       let d := touch s.dev a
       let h := queHead d k
       let r := { d with readHold := sparsePut wordZero d.readHold (holdKey q a) (BitVec.ofNat 32 h.t.code) }
       completes (.quePortRead q k) s (answered (if k = 0 then r else (quePop r k).1) q h.p.toNat .int)) ∧
      (let a := Adr.QUE_PORT k.val + 4
       let d := found s.dev a
       queCreated d k = true → queTakes d k = true →
         completes (.quePortWrite q k v) s (written (pushDiscard (quePush d k
           ⟨sparseGet wordZero d.writeHold (holdKey q (Adr.QUE_PORT k.val)), tagOfCode (v.toNat % 16)⟩) k) q a)) ∧
      (let a := Adr.QUE_PUSH k.val
       let d := found s.dev a
       queCreated d k = true → queTakes d k = true →
         completes (.quePushWrite q k v) s (written (pushDiscard (quePush d k ⟨v, .sample⟩) k) q a)) ∧
      (let a := Adr.QUE_CTL
       let d := setF (found s.dev a) F.QUE_CTL.QUEUE v.toNat
       v.getLsbD 8 = true → queNo v.toNat ≠ 0 → queCreated (found s.dev a) (queNo v.toNat) = true →
         completes (.queFlush q v) s (written (queFlush d (queNo v.toNat)) q a))) ∧
    (held s.dev = false →
      (sparseGet natZero s.dev.evPend e.val ≠ 0 →
        completes (.eventDelivery e) s (deliverEv { s.dev with evPend := sparsePut natZero s.dev.evPend e.val 0 } e.val
          (sparseGet natZero s.dev.evPend e.val))) ∧
      ((que s.dev k).crossing = w :: ws →
        completes (.queueCrossingEntry k) s (quePushItem (setQue s.dev k { que s.dev k with crossing := ws }) k w)))

/-- The register writes of the power controller, of live service, of the flash, of the partition and of CSPI complete (R408,
R409, R414, R429, R432, R472, R477, R479 to R483, R495 to R498). -/
def Obligations.PowerServiceAndPortRegistersComplete : Prop :=
  ∀ (s : State) (q : Req) (v : Word) (y : BitVec 64) (l : BitVec 2) (k : Fin 32) (o : BitVec 16) (x : Subst) (w : Word)
    (rx : List Word),
    mayReach s.dev = true →
    (∀ kind, kind < 3 →
      let a := Adr.PWR_DVFSREQ
      let d := setF (setF (found s.dev a) F.PWR_DVFSREQ.LEVEL (l.toNat + 16 * kind + 256)) F.PWR_DVFSREQ.KIND
        ((l.toNat + 16 * kind + 256) / 16)
      (Regions.eff d.regions 0xA3 ≠ .running ∨ getF d F.COACH_CTL.MODE = 1) → getF d F.PWR_DVFSREQ.KIND = kind →
      dvfsCode d kind l.toNat = none →
      completes (match kind with
        | 0 => .dvfsOppRequest q l
        | 1 => .dvfsVoltageRequest q l
        | _ => .dvfsFrequencyRequest q l) s (written (dvfsRun (dvfsSteps d kind l.toNat) d) q a)) ∧
    (let d := found s.dev Adr.PWR_MODE
     completes (.pwrModeWrite q v) s (written (setF
       (if getF d F.BOOT_STAT.PHASE = 2 then { d with domNs := Vector.replicate 13 0 } else d) F.PWR_MODE.VOTE v.toNat) q
       Adr.PWR_MODE)) ∧
    (let a := Adr.PWR_VOTE k.val
     let d := found s.dev a
     k.val < 6 → completes (.pwrVoteWrite q k v) s (written (setF d (F.PWR_VOTE.MASK k.val)
       (withBits (v.toNat % 2 ^ 16) 13 1 (getF d (F.PWR_VOTE.MASK k.val) / 2 ^ 13))) q a)) ∧
    (let a := Adr.PWR_CTL
     let d := setF (setF (found s.dev a) F.PWR_CTL.TARGET v.toNat) F.PWR_CTL.MS (v.toNat / 2 ^ 12)
     let t := getF d F.PWR_CTL.TARGET
     v.getLsbD 2 = true → t ≠ 0 → d.entry = none → d.exiting = false → awake d = true → holdersOf d (entryMask t) = [] →
       completes (.pwrEnter q v) s (written (entryBegin d t) q a)) ∧
    (let a := Adr.PWR_PADREL
     completes (.padRelease q y) s (written (padRelease (foundPair s.dev q a y.toNat) y.toNat) q (lastAt q a))) ∧
    (let a := Adr.SUB_CMD
     let d := foundPair s.dev q a y.toNat
     let n := y.toNat % 2 ^ 6
     let b := y.toNat / 2 ^ 8 % 2 ^ 6
     subCode d n b = none →
       ∃ e t, completes (.subArm q y) s (written e q (lastAt q a)) ∧
         e.sub = some ⟨n, b, holder d n, holder d b, t, y.getLsbD 15, y.toNat / 2 ^ 16 % 2 ^ 16, 0, false, false⟩ ∧
         t = targetOf d (rgnDomain d n) (y.getLsbD 14) (y.toNat / 2 ^ 32) ∧ e.ag = d.ag) ∧
    (let a := Adr.SUB_CTL
     let d := setF (setF (found s.dev a) F.SUB_CTL.PHYS (v.toNat / 2 ^ 8)) F.SUB_CTL.BROLE (v.toNat / 2 ^ 16)
     (v.getLsbD 0 = true → v.getLsbD 1 = false → d.sub = some x →
       completes (.subAbort q v) s (written (subCancel d x) q a)) ∧
     (let p : Fin 68 := ⟨v.toNat / 2 ^ 8 % 64, by omega⟩
      let b := v.toNat / 2 ^ 16 % 64
      v.getLsbD 1 = true → v.getLsbD 0 = false → (ag d p).fenced = true → getB d (F.ENG_HOLDER.VACANT b) = true →
        getB d (F.S_ENG.CTL.BENCH b) = true →
        completes (.subReadmit q v) s (written { d with readmits := d.readmits ++ [(p, b)] } q a))) ∧
    (let a := Adr.FSPI_XCMD
     let d := found s.dev a
     v.getLsbD 31 = true → fspiCode d v.toNat = none →
       completes (.fspiXcmdGo q v) s (written
         (setB (setReg d a (BitVec.ofNat 32 (v.toNat % 2 ^ 26))) F.FSPI_XSTAT.BUSY true) q a)) ∧
    (let a := Adr.BOOT_ACT
     let d := found s.dev a
     v.getLsbD 0 = true → getB d F.LDR_STAT.BUSY = false → 2 ≤ getF d F.BOOT_STAT.PHASE → d.live = none →
       completes (.bootActGo q v) s (written (setF (setF (setF { setF (setF d F.BOOT_ACT.CORES (v.toNat / 2)) F.BOOT_ACT.SLOT
         (v.toNat / 4) with live := some (SlotRd.start (v.toNat / 4 % 2) ⟨0, 0, 0, 0⟩) } F.BOOT_ACTSTAT.PASS 1)
         F.BOOT_ACTSTAT.RESULT 0) F.BOOT_ACTSTAT.BLOCK 0) q a)) ∧
    (let a := 0x1E000000 + o.toNat / 4 * 4
     let d := found s.dev a
     d.wiping = false → d.lc = 1 → partListed (o.toNat / 4 * 4) = true →
       completes (.partitionWrite q o v) s (written { d with part := sparsePut wordZero d.part (o.toNat / 4) v } q a)) ∧
    (let a := Adr.LC_ADVANCE
     let d := found s.dev a
     d.wiping = false → v.toNat / 2 ^ 16 = 0x4C43 → v.toNat % 2 ^ 16 = d.lc + 1 → v.toNat % 2 ^ 16 ≤ 3 →
       completes (.lcAdvanceWrite q v) s (written (if d.lc = 1 then { d with lc := 2 }
         else { d with lc := d.lc + 1, part := [], wiping := true }) q a)) ∧
    (let a := Adr.CSPI_CMD
     let d := found s.dev a
     let n := v.toNat / 2 ^ 8 % 128
     let c := v.toNat % 8
     let e := cspiFields d v.toNat
     v.getLsbD 4 = true → d.cspiRun = none → n ≤ 64 → n ≤ d.cspiTx.length → n + d.cspiRx.length ≤ 64 →
       completes (.cspiGo q v) s (written { (if getB e F.CSPI_STAT.KEPT = true ∧ getF e F.CSPI_STAT.KSEL ≠ c
         then setB e F.CSPI_STAT.KEPT false else e) with cspiRun := some (c, n, v.getLsbD 3) } q a)) ∧
    (let a := Adr.CSPI_TX
     let d := found s.dev a
     d.cspiTx.length < 64 →
       completes (.cspiTxWrite q v) s (written { d with cspiTx := d.cspiTx ++ [v] } q a)) ∧
    (let a := Adr.CSPI_RX
     let d := touch s.dev a
     d.cspiRx = w :: rx →
       completes (.cspiRxRead q) s (answered { d with cspiRx := rx } q w.toNat .int))

/-! ### Registers, events, queues -/

/-- A register without rules of its own (R5, R7): after a write each RW bit holds what was written, a W1C bit is cleared by a 1,
a W1S bit is set by a 1, and every other bit, RO, RC and reserved ones among them, is as it was; a register with no writable
bit marks the write as one without effect. -/
def Obligations.AccessCodesGovernWrites : Prop :=
  ∀ (d : Device) (a : Nat) (r : RegRow) (v : Word) (i : Nat),
    r.rw < 2 ^ 32 → r.w1c < 2 ^ 32 → r.w1s < 2 ^ 32 → Nat.land r.rw r.w1c = 0 → Nat.land r.rw r.w1s = 0 →
    Nat.land r.w1c r.w1s = 0 → i < 32 →
    (r.rw.testBit i = true → (reg (plainWrite d a r v) a).getLsbD i = v.getLsbD i) ∧
    (r.w1c.testBit i = true → (reg (plainWrite d a r v) a).getLsbD i = ((reg d a).getLsbD i && !v.getLsbD i)) ∧
    (r.w1s.testBit i = true → (reg (plainWrite d a r v) a).getLsbD i = ((reg d a).getLsbD i || v.getLsbD i)) ∧
    (r.rw.testBit i = false → r.w1c.testBit i = false → r.w1s.testBit i = false →
      (reg (plainWrite d a r v) a).getLsbD i = (reg d a).getLsbD i) ∧
    (∀ b, b ≠ a → reg (plainWrite d a r v) b = reg d b) ∧
    (r.rw = 0 → r.wo = 0 → r.w1c = 0 → r.w1s = 0 → plainWrite d a r v = { d with wrNone := true })

/-- An occurrence of an event (R18, R37, R383, R384): in the CTRL domain it sets its latch and advances its count, up to
0xFFFF; elsewhere it is held in its source domain until it is delivered, so that none is lost; an event of an absent unit is
none. Delivery leaves the other counts and, of the latches, the other events' as they were. -/
def Obligations.EventsLatchAndCount : Prop :=
  ∀ (d : Device) (v u k : Nat), v < 512 → u < 512 → u ≠ v →
    (evPresent d v = true →
      getB (deliverEv d v k) (latchF v) = true ∧
      getB (deliverEv d v k) (latchF u) = getB d (latchF u) ∧
      sparseGet natZero (deliverEv d v k).evCnt v = Nat.min (sparseGet natZero d.evCnt v + k) 0xFFFF ∧
      sparseGet natZero (deliverEv d v k).evCnt u = sparseGet natZero d.evCnt u ∧
      raiseCtrl d v = deliverEv d v 1 ∧
      sparseGet natZero (raiseEv d v).evPend v = sparseGet natZero d.evPend v + 1 ∧
      sparseGet natZero (raiseEv d v).evPend u = sparseGet natZero d.evPend u ∧
      (∀ n, getB (raiseEv d v) (latchF n) = getB d (latchF n))) ∧
    (evPresent d v = false → deliverEv d v k = d ∧ raiseEv d v = d)

/-- Queues (R84, R392, R393, R396, R397, R402): words leave in the order in which they entered; a push beyond twice SIZE and an
item that does not fit whole are dropped and counted; an empty pop returns payload 0 with tag INVALID, takes nothing and is
counted; a queue that takes no words is always empty and counts nothing. -/
def Obligations.QueuesAreFirstInFirstOut : Prop :=
  ∀ (d : Device) (q : Fin 256) (w : TWord) (ws : List TWord) (c : Cell) (cs : List Cell),
    (queTakes d q = true →
      ((que d q).pushSkip = 0 → (que d q).words.length < queCap d q →
        (que (quePush d q w) q).words = (que d q).words ++ [cellOf w]) ∧
      ((que d q).pushSkip = 0 → queCap d q ≤ (que d q).words.length →
        quePush d q w = queOverflow d q ∧ que (quePush d q w) q = que d q) ∧
      ((que d q).words.length + ws.length ≤ queCap d q →
        (que (quePushItem d q ws) q).words = (que d q).words ++ ws.map cellOf) ∧
      (queCap d q < (que d q).words.length + ws.length → quePushItem d q ws = queOverflow d q) ∧
      ((que d q).popSkip = 0 → (que d q).words = [] → quePop d q = (queUnder d q, ⟨0, .invalid⟩)) ∧
      ((que d q).popSkip = 0 → (que d q).words = c :: cs →
        (quePop d q).2 = cellRead c ∧ (que (quePop d q).1 q).words = cs) ∧
      (∀ p, p ≠ q → que (quePush d q w) p = que d p ∧ que (quePop d q).1 p = que d p)) ∧
    (queTakes d q = false → quePush d q w = d ∧ quePushItem d q ws = d ∧ quePop d q = (d, ⟨0, .invalid⟩))

/-- R399: a popped word whose parity fails is delivered with its payload and tag POISON, is counted in PAR, and is removed. -/
def Obligations.FailedParityIsDeliveredOnce : Prop :=
  ∀ (d : Device) (q : Fin 256) (w : TWord) (cs : List Cell), queTakes d q = true → (que d q).popSkip = 0 →
    (que d q).words = ⟨w, true⟩ :: cs →
      (quePop d q).2 = ⟨w.p, .poison⟩ ∧
      getF (quePop d q).1 (F.QUE_STAT.PAR q.val) = Nat.min (getF d (F.QUE_STAT.PAR q.val) + 1)
        (2 ^ (F.QUE_STAT.PAR q.val).len - 1) ∧
      (que (quePop d q).1 q).words = cs

end
end

