-- ==== Sys2Proof/Laws/Sparse.lean ====
section
/-! SUPPORT. Sparse storage: a read after a write, and the canonical form that every operation keeps. -/

namespace Sys2Proof.Machine

theorem sparseFind_erase {α : Type} (m : Sparse α) (a b : Nat) :
    sparseFind (sparseErase m a) b = if b = a then none else sparseFind m b := by
  induction m with
  | nil => simp [sparseErase, sparseFind]
  | cons e m ih =>
    obtain ⟨k, v⟩ := e
    by_cases hk : k = a <;> by_cases hb : k = b <;> simp_all [sparseErase, sparseFind]

theorem sparseFind_insert {α : Type} (m : Sparse α) (a b : Nat) (x : α) :
    sparseFind (sparseInsert m a x) b = if b = a then some x else sparseFind m b := by
  induction m with
  | nil => simp [sparseInsert, sparseFind, eq_comm]
  | cons e m ih =>
    obtain ⟨k, v⟩ := e
    unfold sparseInsert
    split
    · simp [sparseFind, eq_comm]
    · split
      · next hk => subst hk; by_cases hb : b = k <;> simp [sparseFind, hb, eq_comm]
      · next hk =>
        by_cases hb : k = b
        · subst hb; simp [sparseFind, hk]
        · simp [sparseFind, hb, ih]

/-- A read after a write: the written key gives the value, every other key what it gave. -/
@[simp] theorem sparseGet_put {α : Type} [DecidableEq α] (dflt : Nat → α) (m : Sparse α) (a b : Nat) (x : α) :
    sparseGet dflt (sparsePut dflt m a x) b = if b = a then x else sparseGet dflt m b := by
  unfold sparsePut sparseGet
  by_cases hx : x = dflt a
  · by_cases hb : b = a <;> simp [hx, sparseFind_erase, hb]
  · by_cases hb : b = a <;> simp [hx, sparseFind_insert, hb]

/-- Every key of the contents is above `n`. -/
def sparseAbove {α : Type} (n : Nat) (m : Sparse α) : Bool := m.all (fun e => decide (n < e.1))

theorem sparseSorted_cons {α : Type} (e : Nat × α) (m : Sparse α) :
    sparseSorted (e :: m) = (sparseAbove e.1 m && sparseSorted m) := by
  induction m generalizing e with
  | nil => rfl
  | cons f m ih =>
    obtain ⟨k, v⟩ := e
    obtain ⟨k', v'⟩ := f
    rw [Bool.eq_iff_iff]
    simp only [sparseSorted, ih, sparseAbove, List.all_cons, Bool.and_eq_true, decide_eq_true_eq, List.all_eq_true]
    constructor
    · rintro ⟨h, g, s⟩
      exact ⟨⟨h, fun x hx => Nat.lt_trans h (g x hx)⟩, g, s⟩
    · rintro ⟨⟨h, -⟩, g, s⟩
      exact ⟨h, g, s⟩

/-- The canonical form of a list with a first entry. -/
theorem sparseWf_cons {α : Type} [DecidableEq α] (dflt : Nat → α) (e : Nat × α) (m : Sparse α) :
    sparseWf dflt (e :: m) = (sparseAbove e.1 m && decide (e.2 ≠ dflt e.1) && sparseWf dflt m) := by
  unfold sparseWf
  rw [sparseSorted_cons, List.all_cons, Bool.eq_iff_iff]
  simp only [Bool.and_eq_true]
  tauto

theorem sparseAbove_erase {α : Type} (n a : Nat) (m : Sparse α) (h : sparseAbove n m = true) :
    sparseAbove n (sparseErase m a) = true := by
  induction m with
  | nil => exact h
  | cons e m ih =>
    obtain ⟨k, v⟩ := e
    simp only [sparseAbove, List.all_cons, Bool.and_eq_true] at h ih
    unfold sparseErase
    split
    · exact ih h.2
    · simp only [sparseAbove, List.all_cons, Bool.and_eq_true]
      exact ⟨h.1, ih h.2⟩

theorem sparseAbove_insert {α : Type} (n a : Nat) (x : α) (m : Sparse α) (ha : n < a) (h : sparseAbove n m = true) :
    sparseAbove n (sparseInsert m a x) = true := by
  induction m with
  | nil => simp [sparseInsert, sparseAbove, ha]
  | cons e m ih =>
    obtain ⟨k, v⟩ := e
    simp only [sparseAbove, List.all_cons, Bool.and_eq_true] at h ih
    unfold sparseInsert
    split
    · simp only [sparseAbove, List.all_cons, Bool.and_eq_true, decide_eq_true_eq] at h ⊢
      exact ⟨ha, h.1, h.2⟩
    · split
      · simp only [sparseAbove, List.all_cons, Bool.and_eq_true, decide_eq_true_eq] at h ⊢
        exact ⟨ha, h.2⟩
      · simp only [sparseAbove, List.all_cons, Bool.and_eq_true]
        exact ⟨h.1, ih h.2⟩

theorem sparseAbove_mono {α : Type} (n k : Nat) (m : Sparse α) (hk : n < k) (h : sparseAbove k m = true) :
    sparseAbove n m = true := by
  simp only [sparseAbove, List.all_eq_true, decide_eq_true_eq] at h ⊢
  exact fun e he => Nat.lt_trans hk (h e he)

theorem sparseWf_erase {α : Type} [DecidableEq α] (dflt : Nat → α) (m : Sparse α) (a : Nat) (h : sparseWf dflt m = true) :
    sparseWf dflt (sparseErase m a) = true := by
  induction m with
  | nil => exact h
  | cons e m ih =>
    obtain ⟨k, v⟩ := e
    rw [sparseWf_cons] at h
    simp only [Bool.and_eq_true] at h
    unfold sparseErase
    split
    · exact ih h.2
    · rw [sparseWf_cons]
      simp only [Bool.and_eq_true]
      exact ⟨⟨sparseAbove_erase _ _ _ h.1.1, h.1.2⟩, ih h.2⟩

theorem sparseWf_insert {α : Type} [DecidableEq α] (dflt : Nat → α) (m : Sparse α) (a : Nat) (x : α) (hx : x ≠ dflt a)
    (h : sparseWf dflt m = true) : sparseWf dflt (sparseInsert m a x) = true := by
  induction m with
  | nil => simp [sparseInsert, sparseWf, sparseSorted, hx]
  | cons e m ih =>
    obtain ⟨k, v⟩ := e
    have h' := h
    rw [sparseWf_cons] at h
    simp only [Bool.and_eq_true] at h
    unfold sparseInsert
    split
    · next hk =>
      rw [sparseWf_cons]
      simp only [Bool.and_eq_true, decide_eq_true_eq]
      refine ⟨⟨?_, hx⟩, h'⟩
      simp only [sparseAbove, List.all_cons, Bool.and_eq_true, decide_eq_true_eq]
      exact ⟨hk, sparseAbove_mono a k m hk h.1.1⟩
    · split
      · next hk =>
        rw [sparseWf_cons]
        simp only [Bool.and_eq_true, decide_eq_true_eq]
        exact ⟨⟨hk ▸ h.1.1, hx⟩, h.2⟩
      · next h1 h2 =>
        rw [sparseWf_cons]
        simp only [Bool.and_eq_true]
        exact ⟨⟨sparseAbove_insert k a x m (by omega) h.1.1, h.1.2⟩, ih h.2⟩

/-- A write keeps the canonical form. -/
theorem sparseWf_put {α : Type} [DecidableEq α] (dflt : Nat → α) (m : Sparse α) (a : Nat) (x : α)
    (h : sparseWf dflt m = true) : sparseWf dflt (sparsePut dflt m a x) = true := by
  unfold sparsePut
  split
  · exact sparseWf_erase dflt m a h
  · next hx => exact sparseWf_insert dflt m a x hx h

/-- Clearing a range of keys keeps the canonical form. -/
theorem sparseWf_clear {α : Type} [DecidableEq α] (dflt : Nat → α) (m : Sparse α) (lo hi : Nat)
    (h : sparseWf dflt m = true) : sparseWf dflt (sparseClear m lo hi) = true := by
  induction m with
  | nil => exact h
  | cons e m ih =>
    rw [sparseWf_cons] at h
    simp only [Bool.and_eq_true] at h
    unfold sparseClear at ih ⊢
    rw [List.filter_cons]
    split
    · rw [sparseWf_cons]
      simp only [Bool.and_eq_true]
      refine ⟨⟨?_, h.1.2⟩, ih h.2⟩
      have ha := h.1.1
      simp only [sparseAbove, List.all_eq_true, decide_eq_true_eq] at ha ⊢
      exact fun x hx => ha x (List.mem_of_mem_filter hx)
    · exact ih h.2

end Sys2Proof.Machine
end

