-- ==== Sys2Proof/Laws/State.lean ====
section
/-! SUPPORT. What each shared update leaves as it is, one lemma per part of the device, so that no proof unfolds a record
update; and what it writes. -/

namespace Sys2Proof.Machine

/-- What every step of a fold keeps, the fold keeps. -/
theorem foldl_keep {α β : Type} (p : Device → β) (g : Device → α → Device) (h : ∀ d x, p (g d x) = p d) (l : List α)
    (d : Device) : p (l.foldl g d) = p d := by
  induction l generalizing d with
  | nil => rfl
  | cons x l ih => rw [List.foldl_cons, ih, h]

section

variable {bus : DevBus} {proc : DevProc} {mem : DevMem} {clk : DevClk} {route : DevRoute} {port : DevPort} {fab : DevFab} {ldr : DevLdr} {coach : DevCoach} {sec : DevSec} {boot : DevBoot} {host : DevHost} {pwr : DevPwr}

theorem mk_bus : (Device.mk bus proc mem clk route port fab ldr coach sec boot host pwr).toDevBus = bus := rfl
theorem mk_proc : (Device.mk bus proc mem clk route port fab ldr coach sec boot host pwr).toDevProc = proc := rfl
theorem mk_mem : (Device.mk bus proc mem clk route port fab ldr coach sec boot host pwr).toDevMem = mem := rfl
theorem mk_clk : (Device.mk bus proc mem clk route port fab ldr coach sec boot host pwr).toDevClk = clk := rfl
theorem mk_route : (Device.mk bus proc mem clk route port fab ldr coach sec boot host pwr).toDevRoute = route := rfl
theorem mk_port : (Device.mk bus proc mem clk route port fab ldr coach sec boot host pwr).toDevPort = port := rfl
theorem mk_fab : (Device.mk bus proc mem clk route port fab ldr coach sec boot host pwr).toDevFab = fab := rfl
theorem mk_ldr : (Device.mk bus proc mem clk route port fab ldr coach sec boot host pwr).toDevLdr = ldr := rfl
theorem mk_coach : (Device.mk bus proc mem clk route port fab ldr coach sec boot host pwr).toDevCoach = coach := rfl
theorem mk_sec : (Device.mk bus proc mem clk route port fab ldr coach sec boot host pwr).toDevSec = sec := rfl
theorem mk_boot : (Device.mk bus proc mem clk route port fab ldr coach sec boot host pwr).toDevBoot = boot := rfl
theorem mk_host : (Device.mk bus proc mem clk route port fab ldr coach sec boot host pwr).toDevHost = host := rfl
theorem mk_pwr : (Device.mk bus proc mem clk route port fab ldr coach sec boot host pwr).toDevPwr = pwr := rfl

end

@[simp] theorem setReg_proc (d : Device) (a : Nat) (v : Word) : (setReg d a v).toDevProc = d.toDevProc := by
  unfold setReg
  exact mk_proc
@[simp] theorem setReg_mem (d : Device) (a : Nat) (v : Word) : (setReg d a v).toDevMem = d.toDevMem := by
  unfold setReg
  exact mk_mem
@[simp] theorem setReg_clk (d : Device) (a : Nat) (v : Word) : (setReg d a v).toDevClk = d.toDevClk := by
  unfold setReg
  exact mk_clk
@[simp] theorem setReg_route (d : Device) (a : Nat) (v : Word) : (setReg d a v).toDevRoute = d.toDevRoute := by
  unfold setReg
  exact mk_route
@[simp] theorem setReg_port (d : Device) (a : Nat) (v : Word) : (setReg d a v).toDevPort = d.toDevPort := by
  unfold setReg
  exact mk_port
@[simp] theorem setReg_fab (d : Device) (a : Nat) (v : Word) : (setReg d a v).toDevFab = d.toDevFab := by
  unfold setReg
  exact mk_fab
@[simp] theorem setReg_ldr (d : Device) (a : Nat) (v : Word) : (setReg d a v).toDevLdr = d.toDevLdr := by
  unfold setReg
  exact mk_ldr
@[simp] theorem setReg_coach (d : Device) (a : Nat) (v : Word) : (setReg d a v).toDevCoach = d.toDevCoach := by
  unfold setReg
  exact mk_coach
@[simp] theorem setReg_sec (d : Device) (a : Nat) (v : Word) : (setReg d a v).toDevSec = d.toDevSec := by
  unfold setReg
  exact mk_sec
@[simp] theorem setReg_boot (d : Device) (a : Nat) (v : Word) : (setReg d a v).toDevBoot = d.toDevBoot := by
  unfold setReg
  exact mk_boot
@[simp] theorem setReg_host (d : Device) (a : Nat) (v : Word) : (setReg d a v).toDevHost = d.toDevHost := by
  unfold setReg
  exact mk_host
@[simp] theorem setReg_pwr (d : Device) (a : Nat) (v : Word) : (setReg d a v).toDevPwr = d.toDevPwr := by
  unfold setReg
  exact mk_pwr

@[simp] theorem setReg64_proc (d : Device) (a v : Nat) : (setReg64 d a v).toDevProc = d.toDevProc := by
  unfold setReg64
  simp only [setReg_proc]
@[simp] theorem setReg64_mem (d : Device) (a v : Nat) : (setReg64 d a v).toDevMem = d.toDevMem := by
  unfold setReg64
  simp only [setReg_mem]
@[simp] theorem setReg64_clk (d : Device) (a v : Nat) : (setReg64 d a v).toDevClk = d.toDevClk := by
  unfold setReg64
  simp only [setReg_clk]
@[simp] theorem setReg64_route (d : Device) (a v : Nat) : (setReg64 d a v).toDevRoute = d.toDevRoute := by
  unfold setReg64
  simp only [setReg_route]
@[simp] theorem setReg64_port (d : Device) (a v : Nat) : (setReg64 d a v).toDevPort = d.toDevPort := by
  unfold setReg64
  simp only [setReg_port]
@[simp] theorem setReg64_fab (d : Device) (a v : Nat) : (setReg64 d a v).toDevFab = d.toDevFab := by
  unfold setReg64
  simp only [setReg_fab]
@[simp] theorem setReg64_ldr (d : Device) (a v : Nat) : (setReg64 d a v).toDevLdr = d.toDevLdr := by
  unfold setReg64
  simp only [setReg_ldr]
@[simp] theorem setReg64_coach (d : Device) (a v : Nat) : (setReg64 d a v).toDevCoach = d.toDevCoach := by
  unfold setReg64
  simp only [setReg_coach]
@[simp] theorem setReg64_sec (d : Device) (a v : Nat) : (setReg64 d a v).toDevSec = d.toDevSec := by
  unfold setReg64
  simp only [setReg_sec]
@[simp] theorem setReg64_boot (d : Device) (a v : Nat) : (setReg64 d a v).toDevBoot = d.toDevBoot := by
  unfold setReg64
  simp only [setReg_boot]
@[simp] theorem setReg64_host (d : Device) (a v : Nat) : (setReg64 d a v).toDevHost = d.toDevHost := by
  unfold setReg64
  simp only [setReg_host]
@[simp] theorem setReg64_pwr (d : Device) (a v : Nat) : (setReg64 d a v).toDevPwr = d.toDevPwr := by
  unfold setReg64
  simp only [setReg_pwr]

@[simp] theorem setF_proc (d : Device) (f : Fld) (v : Nat) : (setF d f v).toDevProc = d.toDevProc := by
  unfold setF
  split <;> simp only [setReg_proc, setReg64_proc]
@[simp] theorem setF_mem (d : Device) (f : Fld) (v : Nat) : (setF d f v).toDevMem = d.toDevMem := by
  unfold setF
  split <;> simp only [setReg_mem, setReg64_mem]
@[simp] theorem setF_clk (d : Device) (f : Fld) (v : Nat) : (setF d f v).toDevClk = d.toDevClk := by
  unfold setF
  split <;> simp only [setReg_clk, setReg64_clk]
@[simp] theorem setF_route (d : Device) (f : Fld) (v : Nat) : (setF d f v).toDevRoute = d.toDevRoute := by
  unfold setF
  split <;> simp only [setReg_route, setReg64_route]
@[simp] theorem setF_port (d : Device) (f : Fld) (v : Nat) : (setF d f v).toDevPort = d.toDevPort := by
  unfold setF
  split <;> simp only [setReg_port, setReg64_port]
@[simp] theorem setF_fab (d : Device) (f : Fld) (v : Nat) : (setF d f v).toDevFab = d.toDevFab := by
  unfold setF
  split <;> simp only [setReg_fab, setReg64_fab]
@[simp] theorem setF_ldr (d : Device) (f : Fld) (v : Nat) : (setF d f v).toDevLdr = d.toDevLdr := by
  unfold setF
  split <;> simp only [setReg_ldr, setReg64_ldr]
@[simp] theorem setF_coach (d : Device) (f : Fld) (v : Nat) : (setF d f v).toDevCoach = d.toDevCoach := by
  unfold setF
  split <;> simp only [setReg_coach, setReg64_coach]
@[simp] theorem setF_sec (d : Device) (f : Fld) (v : Nat) : (setF d f v).toDevSec = d.toDevSec := by
  unfold setF
  split <;> simp only [setReg_sec, setReg64_sec]
@[simp] theorem setF_boot (d : Device) (f : Fld) (v : Nat) : (setF d f v).toDevBoot = d.toDevBoot := by
  unfold setF
  split <;> simp only [setReg_boot, setReg64_boot]
@[simp] theorem setF_host (d : Device) (f : Fld) (v : Nat) : (setF d f v).toDevHost = d.toDevHost := by
  unfold setF
  split <;> simp only [setReg_host, setReg64_host]
@[simp] theorem setF_pwr (d : Device) (f : Fld) (v : Nat) : (setF d f v).toDevPwr = d.toDevPwr := by
  unfold setF
  split <;> simp only [setReg_pwr, setReg64_pwr]

@[simp] theorem setB_proc (d : Device) (f : Fld) (b : Bool) : (setB d f b).toDevProc = d.toDevProc := setF_proc d f _
@[simp] theorem setB_mem (d : Device) (f : Fld) (b : Bool) : (setB d f b).toDevMem = d.toDevMem := setF_mem d f _
@[simp] theorem setB_clk (d : Device) (f : Fld) (b : Bool) : (setB d f b).toDevClk = d.toDevClk := setF_clk d f _
@[simp] theorem setB_route (d : Device) (f : Fld) (b : Bool) : (setB d f b).toDevRoute = d.toDevRoute := setF_route d f _
@[simp] theorem setB_port (d : Device) (f : Fld) (b : Bool) : (setB d f b).toDevPort = d.toDevPort := setF_port d f _
@[simp] theorem setB_fab (d : Device) (f : Fld) (b : Bool) : (setB d f b).toDevFab = d.toDevFab := setF_fab d f _
@[simp] theorem setB_ldr (d : Device) (f : Fld) (b : Bool) : (setB d f b).toDevLdr = d.toDevLdr := setF_ldr d f _
@[simp] theorem setB_coach (d : Device) (f : Fld) (b : Bool) : (setB d f b).toDevCoach = d.toDevCoach := setF_coach d f _
@[simp] theorem setB_sec (d : Device) (f : Fld) (b : Bool) : (setB d f b).toDevSec = d.toDevSec := setF_sec d f _
@[simp] theorem setB_boot (d : Device) (f : Fld) (b : Bool) : (setB d f b).toDevBoot = d.toDevBoot := setF_boot d f _
@[simp] theorem setB_host (d : Device) (f : Fld) (b : Bool) : (setB d f b).toDevHost = d.toDevHost := setF_host d f _
@[simp] theorem setB_pwr (d : Device) (f : Fld) (b : Bool) : (setB d f b).toDevPwr = d.toDevPwr := setF_pwr d f _

@[simp] theorem incF_proc (d : Device) (f : Fld) (k : Nat) : (incF d f k).toDevProc = d.toDevProc := setF_proc d f _
@[simp] theorem incF_mem (d : Device) (f : Fld) (k : Nat) : (incF d f k).toDevMem = d.toDevMem := setF_mem d f _
@[simp] theorem incF_clk (d : Device) (f : Fld) (k : Nat) : (incF d f k).toDevClk = d.toDevClk := setF_clk d f _
@[simp] theorem incF_route (d : Device) (f : Fld) (k : Nat) : (incF d f k).toDevRoute = d.toDevRoute := setF_route d f _
@[simp] theorem incF_port (d : Device) (f : Fld) (k : Nat) : (incF d f k).toDevPort = d.toDevPort := setF_port d f _
@[simp] theorem incF_fab (d : Device) (f : Fld) (k : Nat) : (incF d f k).toDevFab = d.toDevFab := setF_fab d f _
@[simp] theorem incF_ldr (d : Device) (f : Fld) (k : Nat) : (incF d f k).toDevLdr = d.toDevLdr := setF_ldr d f _
@[simp] theorem incF_coach (d : Device) (f : Fld) (k : Nat) : (incF d f k).toDevCoach = d.toDevCoach := setF_coach d f _
@[simp] theorem incF_sec (d : Device) (f : Fld) (k : Nat) : (incF d f k).toDevSec = d.toDevSec := setF_sec d f _
@[simp] theorem incF_boot (d : Device) (f : Fld) (k : Nat) : (incF d f k).toDevBoot = d.toDevBoot := setF_boot d f _
@[simp] theorem incF_host (d : Device) (f : Fld) (k : Nat) : (incF d f k).toDevHost = d.toDevHost := setF_host d f _
@[simp] theorem incF_pwr (d : Device) (f : Fld) (k : Nat) : (incF d f k).toDevPwr = d.toDevPwr := setF_pwr d f _

@[simp] theorem raiseEv_proc (d : Device) (v : Nat) : (raiseEv d v).toDevProc = d.toDevProc := by
  unfold raiseEv
  split
  · exact mk_proc
  · rfl
@[simp] theorem raiseEv_mem (d : Device) (v : Nat) : (raiseEv d v).toDevMem = d.toDevMem := by
  unfold raiseEv
  split
  · exact mk_mem
  · rfl
@[simp] theorem raiseEv_clk (d : Device) (v : Nat) : (raiseEv d v).toDevClk = d.toDevClk := by
  unfold raiseEv
  split
  · exact mk_clk
  · rfl
@[simp] theorem raiseEv_route (d : Device) (v : Nat) : (raiseEv d v).toDevRoute = d.toDevRoute := by
  unfold raiseEv
  split
  · exact mk_route
  · rfl
@[simp] theorem raiseEv_port (d : Device) (v : Nat) : (raiseEv d v).toDevPort = d.toDevPort := by
  unfold raiseEv
  split
  · exact mk_port
  · rfl
@[simp] theorem raiseEv_fab (d : Device) (v : Nat) : (raiseEv d v).toDevFab = d.toDevFab := by
  unfold raiseEv
  split
  · exact mk_fab
  · rfl
@[simp] theorem raiseEv_ldr (d : Device) (v : Nat) : (raiseEv d v).toDevLdr = d.toDevLdr := by
  unfold raiseEv
  split
  · exact mk_ldr
  · rfl
@[simp] theorem raiseEv_coach (d : Device) (v : Nat) : (raiseEv d v).toDevCoach = d.toDevCoach := by
  unfold raiseEv
  split
  · exact mk_coach
  · rfl
@[simp] theorem raiseEv_sec (d : Device) (v : Nat) : (raiseEv d v).toDevSec = d.toDevSec := by
  unfold raiseEv
  split
  · exact mk_sec
  · rfl
@[simp] theorem raiseEv_boot (d : Device) (v : Nat) : (raiseEv d v).toDevBoot = d.toDevBoot := by
  unfold raiseEv
  split
  · exact mk_boot
  · rfl
@[simp] theorem raiseEv_host (d : Device) (v : Nat) : (raiseEv d v).toDevHost = d.toDevHost := by
  unfold raiseEv
  split
  · exact mk_host
  · rfl
@[simp] theorem raiseEv_pwr (d : Device) (v : Nat) : (raiseEv d v).toDevPwr = d.toDevPwr := by
  unfold raiseEv
  split
  · exact mk_pwr
  · rfl

@[simp] theorem sendMsix_proc (d : Device) (x : Nat) : (sendMsix d x).toDevProc = d.toDevProc := by
  unfold sendMsix
  split
  · exact setB_proc d _ _
  · exact mk_proc
@[simp] theorem sendMsix_mem (d : Device) (x : Nat) : (sendMsix d x).toDevMem = d.toDevMem := by
  unfold sendMsix
  split
  · exact setB_mem d _ _
  · exact mk_mem
@[simp] theorem sendMsix_clk (d : Device) (x : Nat) : (sendMsix d x).toDevClk = d.toDevClk := by
  unfold sendMsix
  split
  · exact setB_clk d _ _
  · exact mk_clk
@[simp] theorem sendMsix_route (d : Device) (x : Nat) : (sendMsix d x).toDevRoute = d.toDevRoute := by
  unfold sendMsix
  split
  · exact setB_route d _ _
  · exact mk_route
@[simp] theorem sendMsix_port (d : Device) (x : Nat) : (sendMsix d x).toDevPort = d.toDevPort := by
  unfold sendMsix
  split
  · exact setB_port d _ _
  · exact mk_port
@[simp] theorem sendMsix_fab (d : Device) (x : Nat) : (sendMsix d x).toDevFab = d.toDevFab := by
  unfold sendMsix
  split
  · exact setB_fab d _ _
  · exact mk_fab
@[simp] theorem sendMsix_ldr (d : Device) (x : Nat) : (sendMsix d x).toDevLdr = d.toDevLdr := by
  unfold sendMsix
  split
  · exact setB_ldr d _ _
  · exact mk_ldr
@[simp] theorem sendMsix_coach (d : Device) (x : Nat) : (sendMsix d x).toDevCoach = d.toDevCoach := by
  unfold sendMsix
  split
  · exact setB_coach d _ _
  · exact mk_coach
@[simp] theorem sendMsix_sec (d : Device) (x : Nat) : (sendMsix d x).toDevSec = d.toDevSec := by
  unfold sendMsix
  split
  · exact setB_sec d _ _
  · exact mk_sec
@[simp] theorem sendMsix_boot (d : Device) (x : Nat) : (sendMsix d x).toDevBoot = d.toDevBoot := by
  unfold sendMsix
  split
  · exact setB_boot d _ _
  · exact mk_boot
@[simp] theorem sendMsix_host (d : Device) (x : Nat) : (sendMsix d x).toDevHost = d.toDevHost := by
  unfold sendMsix
  split
  · exact setB_host d _ _
  · exact mk_host
@[simp] theorem sendMsix_pwr (d : Device) (x : Nat) : (sendMsix d x).toDevPwr = d.toDevPwr := by
  unfold sendMsix
  split
  · exact setB_pwr d _ _
  · exact mk_pwr

@[simp] theorem evtSettle_proc (d : Device) : (evtSettle d).toDevProc = d.toDevProc := by
  unfold evtSettle
  refine (foldl_keep Device.toDevProc _ (fun e x => ?_) _ _).trans mk_proc
  split
  · exact sendMsix_proc e x
  · rfl
@[simp] theorem evtSettle_mem (d : Device) : (evtSettle d).toDevMem = d.toDevMem := by
  unfold evtSettle
  refine (foldl_keep Device.toDevMem _ (fun e x => ?_) _ _).trans mk_mem
  split
  · exact sendMsix_mem e x
  · rfl
@[simp] theorem evtSettle_clk (d : Device) : (evtSettle d).toDevClk = d.toDevClk := by
  unfold evtSettle
  refine (foldl_keep Device.toDevClk _ (fun e x => ?_) _ _).trans mk_clk
  split
  · exact sendMsix_clk e x
  · rfl
@[simp] theorem evtSettle_route (d : Device) : (evtSettle d).toDevRoute = d.toDevRoute := by
  unfold evtSettle
  refine (foldl_keep Device.toDevRoute _ (fun e x => ?_) _ _).trans mk_route
  split
  · exact sendMsix_route e x
  · rfl
@[simp] theorem evtSettle_port (d : Device) : (evtSettle d).toDevPort = d.toDevPort := by
  unfold evtSettle
  refine (foldl_keep Device.toDevPort _ (fun e x => ?_) _ _).trans mk_port
  split
  · exact sendMsix_port e x
  · rfl
@[simp] theorem evtSettle_fab (d : Device) : (evtSettle d).toDevFab = d.toDevFab := by
  unfold evtSettle
  refine (foldl_keep Device.toDevFab _ (fun e x => ?_) _ _).trans mk_fab
  split
  · exact sendMsix_fab e x
  · rfl
@[simp] theorem evtSettle_ldr (d : Device) : (evtSettle d).toDevLdr = d.toDevLdr := by
  unfold evtSettle
  refine (foldl_keep Device.toDevLdr _ (fun e x => ?_) _ _).trans mk_ldr
  split
  · exact sendMsix_ldr e x
  · rfl
@[simp] theorem evtSettle_coach (d : Device) : (evtSettle d).toDevCoach = d.toDevCoach := by
  unfold evtSettle
  refine (foldl_keep Device.toDevCoach _ (fun e x => ?_) _ _).trans mk_coach
  split
  · exact sendMsix_coach e x
  · rfl
@[simp] theorem evtSettle_sec (d : Device) : (evtSettle d).toDevSec = d.toDevSec := by
  unfold evtSettle
  refine (foldl_keep Device.toDevSec _ (fun e x => ?_) _ _).trans mk_sec
  split
  · exact sendMsix_sec e x
  · rfl
@[simp] theorem evtSettle_boot (d : Device) : (evtSettle d).toDevBoot = d.toDevBoot := by
  unfold evtSettle
  refine (foldl_keep Device.toDevBoot _ (fun e x => ?_) _ _).trans mk_boot
  split
  · exact sendMsix_boot e x
  · rfl
@[simp] theorem evtSettle_host (d : Device) : (evtSettle d).toDevHost = d.toDevHost := by
  unfold evtSettle
  refine (foldl_keep Device.toDevHost _ (fun e x => ?_) _ _).trans mk_host
  split
  · exact sendMsix_host e x
  · rfl
@[simp] theorem evtSettle_pwr (d : Device) : (evtSettle d).toDevPwr = d.toDevPwr := by
  unfold evtSettle
  refine (foldl_keep Device.toDevPwr _ (fun e x => ?_) _ _).trans mk_pwr
  split
  · exact sendMsix_pwr e x
  · rfl

@[simp] theorem deliverEv_proc (d : Device) (v k : Nat) : (deliverEv d v k).toDevProc = d.toDevProc := by
  unfold deliverEv
  split
  · rw [evtSettle_proc, setB_proc]
  · rfl
@[simp] theorem deliverEv_mem (d : Device) (v k : Nat) : (deliverEv d v k).toDevMem = d.toDevMem := by
  unfold deliverEv
  split
  · rw [evtSettle_mem, setB_mem]
  · rfl
@[simp] theorem deliverEv_clk (d : Device) (v k : Nat) : (deliverEv d v k).toDevClk = d.toDevClk := by
  unfold deliverEv
  split
  · rw [evtSettle_clk, setB_clk]
  · rfl
@[simp] theorem deliverEv_route (d : Device) (v k : Nat) : (deliverEv d v k).toDevRoute = d.toDevRoute := by
  unfold deliverEv
  split
  · rw [evtSettle_route, setB_route]
  · rfl
@[simp] theorem deliverEv_port (d : Device) (v k : Nat) : (deliverEv d v k).toDevPort = d.toDevPort := by
  unfold deliverEv
  split
  · rw [evtSettle_port, setB_port]
  · rfl
@[simp] theorem deliverEv_fab (d : Device) (v k : Nat) : (deliverEv d v k).toDevFab = d.toDevFab := by
  unfold deliverEv
  split
  · rw [evtSettle_fab, setB_fab]
  · rfl
@[simp] theorem deliverEv_ldr (d : Device) (v k : Nat) : (deliverEv d v k).toDevLdr = d.toDevLdr := by
  unfold deliverEv
  split
  · rw [evtSettle_ldr, setB_ldr]
  · rfl
@[simp] theorem deliverEv_coach (d : Device) (v k : Nat) : (deliverEv d v k).toDevCoach = d.toDevCoach := by
  unfold deliverEv
  split
  · rw [evtSettle_coach, setB_coach]
  · rfl
@[simp] theorem deliverEv_sec (d : Device) (v k : Nat) : (deliverEv d v k).toDevSec = d.toDevSec := by
  unfold deliverEv
  split
  · rw [evtSettle_sec, setB_sec]
  · rfl
@[simp] theorem deliverEv_boot (d : Device) (v k : Nat) : (deliverEv d v k).toDevBoot = d.toDevBoot := by
  unfold deliverEv
  split
  · rw [evtSettle_boot, setB_boot]
  · rfl
@[simp] theorem deliverEv_host (d : Device) (v k : Nat) : (deliverEv d v k).toDevHost = d.toDevHost := by
  unfold deliverEv
  split
  · rw [evtSettle_host, setB_host]
  · rfl
@[simp] theorem deliverEv_pwr (d : Device) (v k : Nat) : (deliverEv d v k).toDevPwr = d.toDevPwr := by
  unfold deliverEv
  split
  · rw [evtSettle_pwr, setB_pwr]
  · rfl

@[simp] theorem raiseCtrl_proc (d : Device) (v : Nat) : (raiseCtrl d v).toDevProc = d.toDevProc := deliverEv_proc d v 1
@[simp] theorem raiseCtrl_mem (d : Device) (v : Nat) : (raiseCtrl d v).toDevMem = d.toDevMem := deliverEv_mem d v 1
@[simp] theorem raiseCtrl_clk (d : Device) (v : Nat) : (raiseCtrl d v).toDevClk = d.toDevClk := deliverEv_clk d v 1
@[simp] theorem raiseCtrl_route (d : Device) (v : Nat) : (raiseCtrl d v).toDevRoute = d.toDevRoute := deliverEv_route d v 1
@[simp] theorem raiseCtrl_port (d : Device) (v : Nat) : (raiseCtrl d v).toDevPort = d.toDevPort := deliverEv_port d v 1
@[simp] theorem raiseCtrl_fab (d : Device) (v : Nat) : (raiseCtrl d v).toDevFab = d.toDevFab := deliverEv_fab d v 1
@[simp] theorem raiseCtrl_ldr (d : Device) (v : Nat) : (raiseCtrl d v).toDevLdr = d.toDevLdr := deliverEv_ldr d v 1
@[simp] theorem raiseCtrl_coach (d : Device) (v : Nat) : (raiseCtrl d v).toDevCoach = d.toDevCoach := deliverEv_coach d v 1
@[simp] theorem raiseCtrl_sec (d : Device) (v : Nat) : (raiseCtrl d v).toDevSec = d.toDevSec := deliverEv_sec d v 1
@[simp] theorem raiseCtrl_boot (d : Device) (v : Nat) : (raiseCtrl d v).toDevBoot = d.toDevBoot := deliverEv_boot d v 1
@[simp] theorem raiseCtrl_host (d : Device) (v : Nat) : (raiseCtrl d v).toDevHost = d.toDevHost := deliverEv_host d v 1
@[simp] theorem raiseCtrl_pwr (d : Device) (v : Nat) : (raiseCtrl d v).toDevPwr = d.toDevPwr := deliverEv_pwr d v 1

@[simp] theorem ignored_proc (d : Device) : (ignored d).toDevProc = d.toDevProc := by
  unfold ignored
  exact mk_proc
@[simp] theorem ignored_mem (d : Device) : (ignored d).toDevMem = d.toDevMem := by
  unfold ignored
  exact mk_mem
@[simp] theorem ignored_clk (d : Device) : (ignored d).toDevClk = d.toDevClk := by
  unfold ignored
  exact mk_clk
@[simp] theorem ignored_route (d : Device) : (ignored d).toDevRoute = d.toDevRoute := by
  unfold ignored
  exact mk_route
@[simp] theorem ignored_port (d : Device) : (ignored d).toDevPort = d.toDevPort := by
  unfold ignored
  exact mk_port
@[simp] theorem ignored_fab (d : Device) : (ignored d).toDevFab = d.toDevFab := by
  unfold ignored
  exact mk_fab
@[simp] theorem ignored_ldr (d : Device) : (ignored d).toDevLdr = d.toDevLdr := by
  unfold ignored
  exact mk_ldr
@[simp] theorem ignored_coach (d : Device) : (ignored d).toDevCoach = d.toDevCoach := by
  unfold ignored
  exact mk_coach
@[simp] theorem ignored_sec (d : Device) : (ignored d).toDevSec = d.toDevSec := by
  unfold ignored
  exact mk_sec
@[simp] theorem ignored_boot (d : Device) : (ignored d).toDevBoot = d.toDevBoot := by
  unfold ignored
  exact mk_boot
@[simp] theorem ignored_host (d : Device) : (ignored d).toDevHost = d.toDevHost := by
  unfold ignored
  exact mk_host
@[simp] theorem ignored_pwr (d : Device) : (ignored d).toDevPwr = d.toDevPwr := by
  unfold ignored
  exact mk_pwr

@[simp] theorem reject_proc (d : Device) (code path addr : Nat) : (reject d code path addr).toDevProc = d.toDevProc := by
  unfold reject
  split <;> simp only [raiseCtrl_proc, raiseEv_proc, setF_proc, incF_proc, ignored_proc]
@[simp] theorem reject_mem (d : Device) (code path addr : Nat) : (reject d code path addr).toDevMem = d.toDevMem := by
  unfold reject
  split <;> simp only [raiseCtrl_mem, raiseEv_mem, setF_mem, incF_mem, ignored_mem]
@[simp] theorem reject_clk (d : Device) (code path addr : Nat) : (reject d code path addr).toDevClk = d.toDevClk := by
  unfold reject
  split <;> simp only [raiseCtrl_clk, raiseEv_clk, setF_clk, incF_clk, ignored_clk]
@[simp] theorem reject_route (d : Device) (code path addr : Nat) : (reject d code path addr).toDevRoute = d.toDevRoute := by
  unfold reject
  split <;> simp only [raiseCtrl_route, raiseEv_route, setF_route, incF_route, ignored_route]
@[simp] theorem reject_port (d : Device) (code path addr : Nat) : (reject d code path addr).toDevPort = d.toDevPort := by
  unfold reject
  split <;> simp only [raiseCtrl_port, raiseEv_port, setF_port, incF_port, ignored_port]
@[simp] theorem reject_fab (d : Device) (code path addr : Nat) : (reject d code path addr).toDevFab = d.toDevFab := by
  unfold reject
  split <;> simp only [raiseCtrl_fab, raiseEv_fab, setF_fab, incF_fab, ignored_fab]
@[simp] theorem reject_ldr (d : Device) (code path addr : Nat) : (reject d code path addr).toDevLdr = d.toDevLdr := by
  unfold reject
  split <;> simp only [raiseCtrl_ldr, raiseEv_ldr, setF_ldr, incF_ldr, ignored_ldr]
@[simp] theorem reject_coach (d : Device) (code path addr : Nat) : (reject d code path addr).toDevCoach = d.toDevCoach := by
  unfold reject
  split <;> simp only [raiseCtrl_coach, raiseEv_coach, setF_coach, incF_coach, ignored_coach]
@[simp] theorem reject_sec (d : Device) (code path addr : Nat) : (reject d code path addr).toDevSec = d.toDevSec := by
  unfold reject
  split <;> simp only [raiseCtrl_sec, raiseEv_sec, setF_sec, incF_sec, ignored_sec]
@[simp] theorem reject_boot (d : Device) (code path addr : Nat) : (reject d code path addr).toDevBoot = d.toDevBoot := by
  unfold reject
  split <;> simp only [raiseCtrl_boot, raiseEv_boot, setF_boot, incF_boot, ignored_boot]
@[simp] theorem reject_host (d : Device) (code path addr : Nat) : (reject d code path addr).toDevHost = d.toDevHost := by
  unfold reject
  split <;> simp only [raiseCtrl_host, raiseEv_host, setF_host, incF_host, ignored_host]
@[simp] theorem reject_pwr (d : Device) (code path addr : Nat) : (reject d code path addr).toDevPwr = d.toDevPwr := by
  unfold reject
  split <;> simp only [raiseCtrl_pwr, raiseEv_pwr, setF_pwr, incF_pwr, ignored_pwr]

@[simp] theorem rejectReq_proc (d : Device) (code : Nat) (q : Req) (addr : Nat) : (rejectReq d code q addr).toDevProc = d.toDevProc := reject_proc d _ _ _
@[simp] theorem rejectReq_mem (d : Device) (code : Nat) (q : Req) (addr : Nat) : (rejectReq d code q addr).toDevMem = d.toDevMem := reject_mem d _ _ _
@[simp] theorem rejectReq_clk (d : Device) (code : Nat) (q : Req) (addr : Nat) : (rejectReq d code q addr).toDevClk = d.toDevClk := reject_clk d _ _ _
@[simp] theorem rejectReq_route (d : Device) (code : Nat) (q : Req) (addr : Nat) : (rejectReq d code q addr).toDevRoute = d.toDevRoute := reject_route d _ _ _
@[simp] theorem rejectReq_port (d : Device) (code : Nat) (q : Req) (addr : Nat) : (rejectReq d code q addr).toDevPort = d.toDevPort := reject_port d _ _ _
@[simp] theorem rejectReq_fab (d : Device) (code : Nat) (q : Req) (addr : Nat) : (rejectReq d code q addr).toDevFab = d.toDevFab := reject_fab d _ _ _
@[simp] theorem rejectReq_ldr (d : Device) (code : Nat) (q : Req) (addr : Nat) : (rejectReq d code q addr).toDevLdr = d.toDevLdr := reject_ldr d _ _ _
@[simp] theorem rejectReq_coach (d : Device) (code : Nat) (q : Req) (addr : Nat) : (rejectReq d code q addr).toDevCoach = d.toDevCoach := reject_coach d _ _ _
@[simp] theorem rejectReq_sec (d : Device) (code : Nat) (q : Req) (addr : Nat) : (rejectReq d code q addr).toDevSec = d.toDevSec := reject_sec d _ _ _
@[simp] theorem rejectReq_boot (d : Device) (code : Nat) (q : Req) (addr : Nat) : (rejectReq d code q addr).toDevBoot = d.toDevBoot := reject_boot d _ _ _
@[simp] theorem rejectReq_host (d : Device) (code : Nat) (q : Req) (addr : Nat) : (rejectReq d code q addr).toDevHost = d.toDevHost := reject_host d _ _ _
@[simp] theorem rejectReq_pwr (d : Device) (code : Nat) (q : Req) (addr : Nat) : (rejectReq d code q addr).toDevPwr = d.toDevPwr := reject_pwr d _ _ _

@[simp] theorem absentAccess_proc (d : Device) (path eng addr : Nat) : (absentAccess d path eng addr).toDevProc = d.toDevProc := by
  unfold absentAccess
  split <;> simp only [raiseCtrl_proc, raiseEv_proc, setF_proc, incF_proc, ignored_proc]
@[simp] theorem absentAccess_mem (d : Device) (path eng addr : Nat) : (absentAccess d path eng addr).toDevMem = d.toDevMem := by
  unfold absentAccess
  split <;> simp only [raiseCtrl_mem, raiseEv_mem, setF_mem, incF_mem, ignored_mem]
@[simp] theorem absentAccess_clk (d : Device) (path eng addr : Nat) : (absentAccess d path eng addr).toDevClk = d.toDevClk := by
  unfold absentAccess
  split <;> simp only [raiseCtrl_clk, raiseEv_clk, setF_clk, incF_clk, ignored_clk]
@[simp] theorem absentAccess_route (d : Device) (path eng addr : Nat) : (absentAccess d path eng addr).toDevRoute = d.toDevRoute := by
  unfold absentAccess
  split <;> simp only [raiseCtrl_route, raiseEv_route, setF_route, incF_route, ignored_route]
@[simp] theorem absentAccess_port (d : Device) (path eng addr : Nat) : (absentAccess d path eng addr).toDevPort = d.toDevPort := by
  unfold absentAccess
  split <;> simp only [raiseCtrl_port, raiseEv_port, setF_port, incF_port, ignored_port]
@[simp] theorem absentAccess_fab (d : Device) (path eng addr : Nat) : (absentAccess d path eng addr).toDevFab = d.toDevFab := by
  unfold absentAccess
  split <;> simp only [raiseCtrl_fab, raiseEv_fab, setF_fab, incF_fab, ignored_fab]
@[simp] theorem absentAccess_ldr (d : Device) (path eng addr : Nat) : (absentAccess d path eng addr).toDevLdr = d.toDevLdr := by
  unfold absentAccess
  split <;> simp only [raiseCtrl_ldr, raiseEv_ldr, setF_ldr, incF_ldr, ignored_ldr]
@[simp] theorem absentAccess_coach (d : Device) (path eng addr : Nat) : (absentAccess d path eng addr).toDevCoach = d.toDevCoach := by
  unfold absentAccess
  split <;> simp only [raiseCtrl_coach, raiseEv_coach, setF_coach, incF_coach, ignored_coach]
@[simp] theorem absentAccess_sec (d : Device) (path eng addr : Nat) : (absentAccess d path eng addr).toDevSec = d.toDevSec := by
  unfold absentAccess
  split <;> simp only [raiseCtrl_sec, raiseEv_sec, setF_sec, incF_sec, ignored_sec]
@[simp] theorem absentAccess_boot (d : Device) (path eng addr : Nat) : (absentAccess d path eng addr).toDevBoot = d.toDevBoot := by
  unfold absentAccess
  split <;> simp only [raiseCtrl_boot, raiseEv_boot, setF_boot, incF_boot, ignored_boot]
@[simp] theorem absentAccess_host (d : Device) (path eng addr : Nat) : (absentAccess d path eng addr).toDevHost = d.toDevHost := by
  unfold absentAccess
  split <;> simp only [raiseCtrl_host, raiseEv_host, setF_host, incF_host, ignored_host]
@[simp] theorem absentAccess_pwr (d : Device) (path eng addr : Nat) : (absentAccess d path eng addr).toDevPwr = d.toDevPwr := by
  unfold absentAccess
  split <;> simp only [raiseCtrl_pwr, raiseEv_pwr, setF_pwr, incF_pwr, ignored_pwr]

@[simp] theorem journalPut_proc (d : Device) (q : Req) (a : Nat) (b : Bool) (n : Nat) : (journalPut d q a b n).toDevProc = d.toDevProc := by
  unfold journalPut
  simp only [setReg_proc, setReg64_proc]
@[simp] theorem journalPut_mem (d : Device) (q : Req) (a : Nat) (b : Bool) (n : Nat) : (journalPut d q a b n).toDevMem = d.toDevMem := by
  unfold journalPut
  simp only [setReg_mem, setReg64_mem]
@[simp] theorem journalPut_clk (d : Device) (q : Req) (a : Nat) (b : Bool) (n : Nat) : (journalPut d q a b n).toDevClk = d.toDevClk := by
  unfold journalPut
  simp only [setReg_clk, setReg64_clk]
@[simp] theorem journalPut_route (d : Device) (q : Req) (a : Nat) (b : Bool) (n : Nat) : (journalPut d q a b n).toDevRoute = d.toDevRoute := by
  unfold journalPut
  simp only [setReg_route, setReg64_route]
@[simp] theorem journalPut_port (d : Device) (q : Req) (a : Nat) (b : Bool) (n : Nat) : (journalPut d q a b n).toDevPort = d.toDevPort := by
  unfold journalPut
  simp only [setReg_port, setReg64_port]
@[simp] theorem journalPut_fab (d : Device) (q : Req) (a : Nat) (b : Bool) (n : Nat) : (journalPut d q a b n).toDevFab = d.toDevFab := by
  unfold journalPut
  simp only [setReg_fab, setReg64_fab]
@[simp] theorem journalPut_ldr (d : Device) (q : Req) (a : Nat) (b : Bool) (n : Nat) : (journalPut d q a b n).toDevLdr = d.toDevLdr := by
  unfold journalPut
  simp only [setReg_ldr, setReg64_ldr]
@[simp] theorem journalPut_coach (d : Device) (q : Req) (a : Nat) (b : Bool) (n : Nat) : (journalPut d q a b n).toDevCoach = d.toDevCoach := by
  unfold journalPut
  simp only [setReg_coach, setReg64_coach]
@[simp] theorem journalPut_sec (d : Device) (q : Req) (a : Nat) (b : Bool) (n : Nat) : (journalPut d q a b n).toDevSec = d.toDevSec := by
  unfold journalPut
  simp only [setReg_sec, setReg64_sec]
@[simp] theorem journalPut_boot (d : Device) (q : Req) (a : Nat) (b : Bool) (n : Nat) : (journalPut d q a b n).toDevBoot = d.toDevBoot := by
  unfold journalPut
  simp only [setReg_boot, setReg64_boot]
@[simp] theorem journalPut_host (d : Device) (q : Req) (a : Nat) (b : Bool) (n : Nat) : (journalPut d q a b n).toDevHost = d.toDevHost := by
  unfold journalPut
  simp only [setReg_host, setReg64_host]
@[simp] theorem journalPut_pwr (d : Device) (q : Req) (a : Nat) (b : Bool) (n : Nat) : (journalPut d q a b n).toDevPwr = d.toDevPwr := by
  unfold journalPut
  simp only [setReg_pwr, setReg64_pwr]

@[simp] theorem journal_proc (d : Device) (q : Req) (a : Nat) (n : Bool) : (journal d q a n).toDevProc = d.toDevProc := by
  unfold journal
  split
  · exact journalPut_proc _ _ _ _ _
  · rfl
@[simp] theorem journal_mem (d : Device) (q : Req) (a : Nat) (n : Bool) : (journal d q a n).toDevMem = d.toDevMem := by
  unfold journal
  split
  · exact journalPut_mem _ _ _ _ _
  · rfl
@[simp] theorem journal_clk (d : Device) (q : Req) (a : Nat) (n : Bool) : (journal d q a n).toDevClk = d.toDevClk := by
  unfold journal
  split
  · exact journalPut_clk _ _ _ _ _
  · rfl
@[simp] theorem journal_route (d : Device) (q : Req) (a : Nat) (n : Bool) : (journal d q a n).toDevRoute = d.toDevRoute := by
  unfold journal
  split
  · exact journalPut_route _ _ _ _ _
  · rfl
@[simp] theorem journal_port (d : Device) (q : Req) (a : Nat) (n : Bool) : (journal d q a n).toDevPort = d.toDevPort := by
  unfold journal
  split
  · exact journalPut_port _ _ _ _ _
  · rfl
@[simp] theorem journal_fab (d : Device) (q : Req) (a : Nat) (n : Bool) : (journal d q a n).toDevFab = d.toDevFab := by
  unfold journal
  split
  · exact journalPut_fab _ _ _ _ _
  · rfl
@[simp] theorem journal_ldr (d : Device) (q : Req) (a : Nat) (n : Bool) : (journal d q a n).toDevLdr = d.toDevLdr := by
  unfold journal
  split
  · exact journalPut_ldr _ _ _ _ _
  · rfl
@[simp] theorem journal_coach (d : Device) (q : Req) (a : Nat) (n : Bool) : (journal d q a n).toDevCoach = d.toDevCoach := by
  unfold journal
  split
  · exact journalPut_coach _ _ _ _ _
  · rfl
@[simp] theorem journal_sec (d : Device) (q : Req) (a : Nat) (n : Bool) : (journal d q a n).toDevSec = d.toDevSec := by
  unfold journal
  split
  · exact journalPut_sec _ _ _ _ _
  · rfl
@[simp] theorem journal_boot (d : Device) (q : Req) (a : Nat) (n : Bool) : (journal d q a n).toDevBoot = d.toDevBoot := by
  unfold journal
  split
  · exact journalPut_boot _ _ _ _ _
  · rfl
@[simp] theorem journal_host (d : Device) (q : Req) (a : Nat) (n : Bool) : (journal d q a n).toDevHost = d.toDevHost := by
  unfold journal
  split
  · exact journalPut_host _ _ _ _ _
  · rfl
@[simp] theorem journal_pwr (d : Device) (q : Req) (a : Nat) (n : Bool) : (journal d q a n).toDevPwr = d.toDevPwr := by
  unfold journal
  split
  · exact journalPut_pwr _ _ _ _ _
  · rfl

@[simp] theorem respond_proc (d : Device) (q : Req) (v : Nat) (t : Tag) : (respond d q v t).toDevProc = d.toDevProc := by
  unfold respond
  exact mk_proc
@[simp] theorem respond_mem (d : Device) (q : Req) (v : Nat) (t : Tag) : (respond d q v t).toDevMem = d.toDevMem := by
  unfold respond
  exact mk_mem
@[simp] theorem respond_clk (d : Device) (q : Req) (v : Nat) (t : Tag) : (respond d q v t).toDevClk = d.toDevClk := by
  unfold respond
  exact mk_clk
@[simp] theorem respond_route (d : Device) (q : Req) (v : Nat) (t : Tag) : (respond d q v t).toDevRoute = d.toDevRoute := by
  unfold respond
  exact mk_route
@[simp] theorem respond_port (d : Device) (q : Req) (v : Nat) (t : Tag) : (respond d q v t).toDevPort = d.toDevPort := by
  unfold respond
  exact mk_port
@[simp] theorem respond_fab (d : Device) (q : Req) (v : Nat) (t : Tag) : (respond d q v t).toDevFab = d.toDevFab := by
  unfold respond
  exact mk_fab
@[simp] theorem respond_ldr (d : Device) (q : Req) (v : Nat) (t : Tag) : (respond d q v t).toDevLdr = d.toDevLdr := by
  unfold respond
  exact mk_ldr
@[simp] theorem respond_coach (d : Device) (q : Req) (v : Nat) (t : Tag) : (respond d q v t).toDevCoach = d.toDevCoach := by
  unfold respond
  exact mk_coach
@[simp] theorem respond_sec (d : Device) (q : Req) (v : Nat) (t : Tag) : (respond d q v t).toDevSec = d.toDevSec := by
  unfold respond
  exact mk_sec
@[simp] theorem respond_boot (d : Device) (q : Req) (v : Nat) (t : Tag) : (respond d q v t).toDevBoot = d.toDevBoot := by
  unfold respond
  exact mk_boot
@[simp] theorem respond_host (d : Device) (q : Req) (v : Nat) (t : Tag) : (respond d q v t).toDevHost = d.toDevHost := by
  unfold respond
  exact mk_host
@[simp] theorem respond_pwr (d : Device) (q : Req) (v : Nat) (t : Tag) : (respond d q v t).toDevPwr = d.toDevPwr := by
  unfold respond
  exact mk_pwr

@[simp] theorem setAg_bus (d : Device) (n : Fin 68) (e : Engine) : (setAg d n e).toDevBus = d.toDevBus := by
  unfold setAg
  exact mk_bus
@[simp] theorem setAg_mem (d : Device) (n : Fin 68) (e : Engine) : (setAg d n e).toDevMem = d.toDevMem := by
  unfold setAg
  exact mk_mem
@[simp] theorem setAg_clk (d : Device) (n : Fin 68) (e : Engine) : (setAg d n e).toDevClk = d.toDevClk := by
  unfold setAg
  exact mk_clk
@[simp] theorem setAg_route (d : Device) (n : Fin 68) (e : Engine) : (setAg d n e).toDevRoute = d.toDevRoute := by
  unfold setAg
  exact mk_route
@[simp] theorem setAg_port (d : Device) (n : Fin 68) (e : Engine) : (setAg d n e).toDevPort = d.toDevPort := by
  unfold setAg
  exact mk_port
@[simp] theorem setAg_fab (d : Device) (n : Fin 68) (e : Engine) : (setAg d n e).toDevFab = d.toDevFab := by
  unfold setAg
  exact mk_fab
@[simp] theorem setAg_ldr (d : Device) (n : Fin 68) (e : Engine) : (setAg d n e).toDevLdr = d.toDevLdr := by
  unfold setAg
  exact mk_ldr
@[simp] theorem setAg_coach (d : Device) (n : Fin 68) (e : Engine) : (setAg d n e).toDevCoach = d.toDevCoach := by
  unfold setAg
  exact mk_coach
@[simp] theorem setAg_sec (d : Device) (n : Fin 68) (e : Engine) : (setAg d n e).toDevSec = d.toDevSec := by
  unfold setAg
  exact mk_sec
@[simp] theorem setAg_boot (d : Device) (n : Fin 68) (e : Engine) : (setAg d n e).toDevBoot = d.toDevBoot := by
  unfold setAg
  exact mk_boot
@[simp] theorem setAg_host (d : Device) (n : Fin 68) (e : Engine) : (setAg d n e).toDevHost = d.toDevHost := by
  unfold setAg
  exact mk_host
@[simp] theorem setAg_pwr (d : Device) (n : Fin 68) (e : Engine) : (setAg d n e).toDevPwr = d.toDevPwr := by
  unfold setAg
  exact mk_pwr

@[simp] theorem mapAg_bus (d : Device) (f : Engine → Engine) : (mapAg d f).toDevBus = d.toDevBus := by
  unfold mapAg
  exact mk_bus
@[simp] theorem mapAg_mem (d : Device) (f : Engine → Engine) : (mapAg d f).toDevMem = d.toDevMem := by
  unfold mapAg
  exact mk_mem
@[simp] theorem mapAg_clk (d : Device) (f : Engine → Engine) : (mapAg d f).toDevClk = d.toDevClk := by
  unfold mapAg
  exact mk_clk
@[simp] theorem mapAg_route (d : Device) (f : Engine → Engine) : (mapAg d f).toDevRoute = d.toDevRoute := by
  unfold mapAg
  exact mk_route
@[simp] theorem mapAg_port (d : Device) (f : Engine → Engine) : (mapAg d f).toDevPort = d.toDevPort := by
  unfold mapAg
  exact mk_port
@[simp] theorem mapAg_fab (d : Device) (f : Engine → Engine) : (mapAg d f).toDevFab = d.toDevFab := by
  unfold mapAg
  exact mk_fab
@[simp] theorem mapAg_ldr (d : Device) (f : Engine → Engine) : (mapAg d f).toDevLdr = d.toDevLdr := by
  unfold mapAg
  exact mk_ldr
@[simp] theorem mapAg_coach (d : Device) (f : Engine → Engine) : (mapAg d f).toDevCoach = d.toDevCoach := by
  unfold mapAg
  exact mk_coach
@[simp] theorem mapAg_sec (d : Device) (f : Engine → Engine) : (mapAg d f).toDevSec = d.toDevSec := by
  unfold mapAg
  exact mk_sec
@[simp] theorem mapAg_boot (d : Device) (f : Engine → Engine) : (mapAg d f).toDevBoot = d.toDevBoot := by
  unfold mapAg
  exact mk_boot
@[simp] theorem mapAg_host (d : Device) (f : Engine → Engine) : (mapAg d f).toDevHost = d.toDevHost := by
  unfold mapAg
  exact mk_host
@[simp] theorem mapAg_pwr (d : Device) (f : Engine → Engine) : (mapAg d f).toDevPwr = d.toDevPwr := by
  unfold mapAg
  exact mk_pwr

@[simp] theorem clearResv_bus (d : Device) (l : Loc) : (clearResv d l).toDevBus = d.toDevBus := by
  unfold clearResv
  exact mk_bus
@[simp] theorem clearResv_mem (d : Device) (l : Loc) : (clearResv d l).toDevMem = d.toDevMem := by
  unfold clearResv
  exact mk_mem
@[simp] theorem clearResv_clk (d : Device) (l : Loc) : (clearResv d l).toDevClk = d.toDevClk := by
  unfold clearResv
  exact mk_clk
@[simp] theorem clearResv_route (d : Device) (l : Loc) : (clearResv d l).toDevRoute = d.toDevRoute := by
  unfold clearResv
  exact mk_route
@[simp] theorem clearResv_port (d : Device) (l : Loc) : (clearResv d l).toDevPort = d.toDevPort := by
  unfold clearResv
  exact mk_port
@[simp] theorem clearResv_fab (d : Device) (l : Loc) : (clearResv d l).toDevFab = d.toDevFab := by
  unfold clearResv
  exact mk_fab
@[simp] theorem clearResv_ldr (d : Device) (l : Loc) : (clearResv d l).toDevLdr = d.toDevLdr := by
  unfold clearResv
  exact mk_ldr
@[simp] theorem clearResv_coach (d : Device) (l : Loc) : (clearResv d l).toDevCoach = d.toDevCoach := by
  unfold clearResv
  exact mk_coach
@[simp] theorem clearResv_sec (d : Device) (l : Loc) : (clearResv d l).toDevSec = d.toDevSec := by
  unfold clearResv
  exact mk_sec
@[simp] theorem clearResv_boot (d : Device) (l : Loc) : (clearResv d l).toDevBoot = d.toDevBoot := by
  unfold clearResv
  exact mk_boot
@[simp] theorem clearResv_host (d : Device) (l : Loc) : (clearResv d l).toDevHost = d.toDevHost := by
  unfold clearResv
  exact mk_host
@[simp] theorem clearResv_pwr (d : Device) (l : Loc) : (clearResv d l).toDevPwr = d.toDevPwr := by
  unfold clearResv
  exact mk_pwr

@[simp] theorem putCc_bus (d : Device) (w : Nat) (v : TWord) : (putCc d w v).toDevBus = d.toDevBus := by
  unfold putCc
  exact mk_bus
@[simp] theorem putCc_mem (d : Device) (w : Nat) (v : TWord) : (putCc d w v).toDevMem = d.toDevMem := by
  unfold putCc
  exact mk_mem
@[simp] theorem putCc_clk (d : Device) (w : Nat) (v : TWord) : (putCc d w v).toDevClk = d.toDevClk := by
  unfold putCc
  exact mk_clk
@[simp] theorem putCc_route (d : Device) (w : Nat) (v : TWord) : (putCc d w v).toDevRoute = d.toDevRoute := by
  unfold putCc
  exact mk_route
@[simp] theorem putCc_port (d : Device) (w : Nat) (v : TWord) : (putCc d w v).toDevPort = d.toDevPort := by
  unfold putCc
  exact mk_port
@[simp] theorem putCc_fab (d : Device) (w : Nat) (v : TWord) : (putCc d w v).toDevFab = d.toDevFab := by
  unfold putCc
  exact mk_fab
@[simp] theorem putCc_ldr (d : Device) (w : Nat) (v : TWord) : (putCc d w v).toDevLdr = d.toDevLdr := by
  unfold putCc
  exact mk_ldr
@[simp] theorem putCc_coach (d : Device) (w : Nat) (v : TWord) : (putCc d w v).toDevCoach = d.toDevCoach := by
  unfold putCc
  exact mk_coach
@[simp] theorem putCc_sec (d : Device) (w : Nat) (v : TWord) : (putCc d w v).toDevSec = d.toDevSec := by
  unfold putCc
  exact mk_sec
@[simp] theorem putCc_boot (d : Device) (w : Nat) (v : TWord) : (putCc d w v).toDevBoot = d.toDevBoot := by
  unfold putCc
  exact mk_boot
@[simp] theorem putCc_host (d : Device) (w : Nat) (v : TWord) : (putCc d w v).toDevHost = d.toDevHost := by
  unfold putCc
  exact mk_host
@[simp] theorem putCc_pwr (d : Device) (w : Nat) (v : TWord) : (putCc d w v).toDevPwr = d.toDevPwr := by
  unfold putCc
  exact mk_pwr

@[simp] theorem putDelay_bus (d : Device) (w : Nat) (v : TWord) : (putDelay d w v).toDevBus = d.toDevBus := by
  unfold putDelay
  exact mk_bus
@[simp] theorem putDelay_clk (d : Device) (w : Nat) (v : TWord) : (putDelay d w v).toDevClk = d.toDevClk := by
  unfold putDelay
  exact mk_clk
@[simp] theorem putDelay_route (d : Device) (w : Nat) (v : TWord) : (putDelay d w v).toDevRoute = d.toDevRoute := by
  unfold putDelay
  exact mk_route
@[simp] theorem putDelay_port (d : Device) (w : Nat) (v : TWord) : (putDelay d w v).toDevPort = d.toDevPort := by
  unfold putDelay
  exact mk_port
@[simp] theorem putDelay_fab (d : Device) (w : Nat) (v : TWord) : (putDelay d w v).toDevFab = d.toDevFab := by
  unfold putDelay
  exact mk_fab
@[simp] theorem putDelay_ldr (d : Device) (w : Nat) (v : TWord) : (putDelay d w v).toDevLdr = d.toDevLdr := by
  unfold putDelay
  exact mk_ldr
@[simp] theorem putDelay_coach (d : Device) (w : Nat) (v : TWord) : (putDelay d w v).toDevCoach = d.toDevCoach := by
  unfold putDelay
  exact mk_coach
@[simp] theorem putDelay_sec (d : Device) (w : Nat) (v : TWord) : (putDelay d w v).toDevSec = d.toDevSec := by
  unfold putDelay
  exact mk_sec
@[simp] theorem putDelay_boot (d : Device) (w : Nat) (v : TWord) : (putDelay d w v).toDevBoot = d.toDevBoot := by
  unfold putDelay
  exact mk_boot
@[simp] theorem putDelay_host (d : Device) (w : Nat) (v : TWord) : (putDelay d w v).toDevHost = d.toDevHost := by
  unfold putDelay
  exact mk_host
@[simp] theorem putDelay_pwr (d : Device) (w : Nat) (v : TWord) : (putDelay d w v).toDevPwr = d.toDevPwr := by
  unfold putDelay
  exact mk_pwr

@[simp] theorem tally_bus (d : Device) (k n : Nat) : (tally d k n).toDevBus = d.toDevBus := by
  unfold tally
  exact mk_bus
@[simp] theorem tally_proc (d : Device) (k n : Nat) : (tally d k n).toDevProc = d.toDevProc := by
  unfold tally
  exact mk_proc
@[simp] theorem tally_mem (d : Device) (k n : Nat) : (tally d k n).toDevMem = d.toDevMem := by
  unfold tally
  exact mk_mem
@[simp] theorem tally_clk (d : Device) (k n : Nat) : (tally d k n).toDevClk = d.toDevClk := by
  unfold tally
  exact mk_clk
@[simp] theorem tally_route (d : Device) (k n : Nat) : (tally d k n).toDevRoute = d.toDevRoute := by
  unfold tally
  exact mk_route
@[simp] theorem tally_port (d : Device) (k n : Nat) : (tally d k n).toDevPort = d.toDevPort := by
  unfold tally
  exact mk_port
@[simp] theorem tally_fab (d : Device) (k n : Nat) : (tally d k n).toDevFab = d.toDevFab := by
  unfold tally
  exact mk_fab
@[simp] theorem tally_ldr (d : Device) (k n : Nat) : (tally d k n).toDevLdr = d.toDevLdr := by
  unfold tally
  exact mk_ldr
@[simp] theorem tally_sec (d : Device) (k n : Nat) : (tally d k n).toDevSec = d.toDevSec := by
  unfold tally
  exact mk_sec
@[simp] theorem tally_boot (d : Device) (k n : Nat) : (tally d k n).toDevBoot = d.toDevBoot := by
  unfold tally
  exact mk_boot
@[simp] theorem tally_host (d : Device) (k n : Nat) : (tally d k n).toDevHost = d.toDevHost := by
  unfold tally
  exact mk_host
@[simp] theorem tally_pwr (d : Device) (k n : Nat) : (tally d k n).toDevPwr = d.toDevPwr := by
  unfold tally
  exact mk_pwr

/-! ### Processors -/

@[simp] theorem ag_setAg_same (d : Device) (n : Fin 68) (e : Engine) : ag (setAg d n e) n = e := by
  simp [ag, setAg]

theorem ag_setAg_other (d : Device) {n m : Fin 68} (e : Engine) (h : n ≠ m) : ag (setAg d n e) m = ag d m := by
  simp [ag, setAg, Fin.val_ne_of_ne h]

@[simp] theorem ag_mapAg (d : Device) (f : Engine → Engine) (n : Fin 68) : ag (mapAg d f) n = f (ag d n) := by
  simp [ag, mapAg]


/-- A processor is part of what an update that leaves the processors alone keeps. -/
theorem ag_congr {d e : Device} (h : d.toDevProc = e.toDevProc) (n : Fin 68) : ag d n = ag e n := by
  simp only [ag, h]

/-- The register file is part of what an update that leaves the registers alone keeps. -/
theorem reg_congr {d e : Device} (h : d.toDevBus = e.toDevBus) (a : Nat) : reg d a = reg e a := by
  simp only [reg, h]

theorem getF_congr {d e : Device} (h : d.toDevBus = e.toDevBus) (f : Fld) : getF d f = getF e f := by
  simp only [getF, reg64, reg_congr h]

end Sys2Proof.Machine
end

