-- ==== Sys2Proof/Laws/Reg.lean ====
section
/-! SUPPORT. The register file: a register and a field read as they were last written, and every other one as before. -/

namespace Sys2Proof.Machine

theorem setReg_regs (d : Device) (a : Nat) (v : Word) : (setReg d a v).toDevBus = { d.toDevBus with regs := sparsePut regReset d.regs a v } := by
  unfold setReg
  exact mk_bus

theorem reg_setReg (d : Device) (a b : Nat) (v : Word) : reg (setReg d a v) b = if b = a then v else reg d b := by
  unfold reg
  rw [setReg_regs]
  simp

@[simp] theorem reg_setReg_same (d : Device) (a : Nat) (v : Word) : reg (setReg d a v) a = v := by simp [reg_setReg]

theorem reg_setReg_other (d : Device) {a b : Nat} (v : Word) (h : b ≠ a) : reg (setReg d a v) b = reg d b := by
  simp [reg_setReg, h]

theorem bitsOf_lt (x lo len : Nat) : bitsOf x lo len < 2 ^ len := Nat.mod_lt _ (by positivity)

/-- Bit `k` of a field is bit `lo + k` of the number. -/
theorem testBit_bitsOf (x lo len k : Nat) : (bitsOf x lo len).testBit k = (decide (k < len) && x.testBit (lo + k)) := by
  simp [bitsOf, Nat.testBit_mod_two_pow, Nat.testBit_div_two_pow, Nat.add_comm]

theorem withBits_eq (x lo len v : Nat) :
    withBits x lo len v = x % 2 ^ lo + 2 ^ lo * (v % 2 ^ len + 2 ^ len * (x / 2 ^ lo / 2 ^ len)) := by
  unfold withBits bitsOf
  have h1 := Nat.mod_add_div x (2 ^ lo)
  have h2 := Nat.mod_add_div (x / 2 ^ lo) (2 ^ len)
  have h3 : x / 2 ^ lo % 2 ^ len * 2 ^ lo ≤ x := by
    calc x / 2 ^ lo % 2 ^ len * 2 ^ lo ≤ x / 2 ^ lo * 2 ^ lo := Nat.mul_le_mul_right _ (Nat.mod_le _ _)
      _ ≤ x := Nat.div_mul_le_self x _
  generalize hA : x % 2 ^ lo = A at *
  generalize hB : x / 2 ^ lo = B at *
  generalize hC : B % 2 ^ len = C at *
  generalize hD : B / 2 ^ len = D at *
  have : x = A + 2 ^ lo * C + 2 ^ lo * (2 ^ len * D) := by rw [← h1, ← h2]; ring
  have e : C * 2 ^ lo = 2 ^ lo * C := Nat.mul_comm _ _
  have e2 : v % 2 ^ len * 2 ^ lo = 2 ^ lo * (v % 2 ^ len) := Nat.mul_comm _ _
  rw [Nat.mul_add, e, e2]
  omega

theorem bitsOf_withBits_same (x lo len v : Nat) : bitsOf (withBits x lo len v) lo len = v % 2 ^ len := by
  rw [withBits_eq]
  unfold bitsOf
  rw [Nat.add_mul_div_left _ _ (by positivity), Nat.div_eq_of_lt (Nat.mod_lt _ (by positivity)), Nat.zero_add,
    Nat.add_mul_mod_self_left, Nat.mod_mod]

theorem testBit_withBits (x lo len v k : Nat) :
    (withBits x lo len v).testBit k =
      if k < lo then x.testBit k else if k < lo + len then v.testBit (k - lo) else x.testBit k := by
  rw [withBits_eq, Nat.add_comm, Nat.testBit_two_pow_mul_add _ (Nat.mod_lt _ (by positivity))]
  split
  · simp [Nat.testBit_mod_two_pow, *]
  · rw [Nat.add_comm, Nat.testBit_two_pow_mul_add _ (Nat.mod_lt _ (by positivity))]
    by_cases h : k < lo + len
    · rw [if_pos (by omega), if_pos h, Nat.testBit_mod_two_pow]
      simp
      omega
    · rw [if_neg (by omega), if_neg h, Nat.testBit_div_two_pow, Nat.testBit_div_two_pow]
      congr 1
      omega

theorem bitsOf_withBits_apart (x lo len v lo' len' : Nat) (h : lo' + len' ≤ lo ∨ lo + len ≤ lo') :
    bitsOf (withBits x lo len v) lo' len' = bitsOf x lo' len' := by
  apply Nat.eq_of_testBit_eq
  intro k
  rw [testBit_bitsOf, testBit_bitsOf, testBit_withBits]
  by_cases hk : k < len'
  · simp only [hk]
    split
    · rfl
    · rw [if_neg (by omega)]
  · simp [hk]

theorem withBits_lt {x lo len n : Nat} (v : Nat) (hx : x < 2 ^ n) (h : lo + len ≤ n) : withBits x lo len v < 2 ^ n := by
  apply Nat.lt_pow_two_of_testBit
  intro k hk
  rw [testBit_withBits, if_neg (by omega), if_neg (by omega)]
  exact Nat.testBit_lt_two_pow (Nat.lt_of_lt_of_le hx (Nat.pow_le_pow_right (by omega) hk))

theorem bitsOf_mod (x lo len n : Nat) (h : lo + len ≤ n) : bitsOf (x % 2 ^ n) lo len = bitsOf x lo len := by
  apply Nat.eq_of_testBit_eq
  intro k
  rw [testBit_bitsOf, testBit_bitsOf, Nat.testBit_mod_two_pow]
  by_cases hk : k < len
  · simp [hk, show lo + k < n by omega]
  · simp [hk]

/-! ### 64-bit registers -/

theorem reg64_lt (d : Device) (a : Nat) : reg64 d a < 2 ^ 64 := by
  unfold reg64
  have h1 := (reg d a).isLt
  have h2 := (reg d (a + 4)).isLt
  omega

theorem reg_setReg64_low (d : Device) (a v : Nat) : reg (setReg64 d a v) a = BitVec.ofNat 32 v := by
  unfold setReg64
  rw [reg_setReg_other _ _ (by omega), reg_setReg_same]

theorem reg_setReg64_high (d : Device) (a v : Nat) : reg (setReg64 d a v) (a + 4) = BitVec.ofNat 32 (v / 2 ^ 32) := by
  unfold setReg64
  rw [reg_setReg_same]

theorem reg_setReg64_other (d : Device) {a b : Nat} (v : Nat) (h : b ≠ a) (h4 : b ≠ a + 4) :
    reg (setReg64 d a v) b = reg d b := by
  unfold setReg64
  rw [reg_setReg_other _ _ h4, reg_setReg_other _ _ h]

theorem reg64_setReg64_same (d : Device) (a v : Nat) : reg64 (setReg64 d a v) a = v % 2 ^ 64 := by
  unfold reg64
  rw [reg_setReg64_low, reg_setReg64_high]
  simp only [BitVec.toNat_ofNat]
  omega

/-! ### Fields -/

/-- The words a field lies in. -/
def fldWords (f : Fld) : List Nat := if f.lo + f.len ≤ 32 then [f.addr] else [f.addr, f.addr + 4]

/-- Two fields that share no bit: other registers, or other bits of one register. -/
def fldApart (f g : Fld) : Prop :=
  (∀ a ∈ fldWords f, a ∉ fldWords g) ∨ (f.addr = g.addr ∧ (g.lo + g.len ≤ f.lo ∨ f.lo + f.len ≤ g.lo))

theorem getF_setF_same (d : Device) (f : Fld) (v : Nat) (h : f.lo + f.len ≤ 64) : getF (setF d f v) f = v % 2 ^ f.len := by
  unfold getF setF
  by_cases hs : f.lo + f.len ≤ 32
  · simp only [hs, if_true]
    rw [reg_setReg_same, BitVec.toNat_ofNat, bitsOf_mod _ _ _ _ hs, bitsOf_withBits_same]
  · simp only [hs, if_false]
    rw [reg64_setReg64_same, bitsOf_mod _ _ _ _ h, bitsOf_withBits_same]

theorem getB_setB_same (d : Device) (f : Fld) (b : Bool) (h : f.lo + f.len ≤ 64) (h1 : f.len = 1) : getB (setB d f b) f = b := by
  unfold getB setB
  rw [getF_setF_same _ _ _ h, h1]
  cases b <;> simp

theorem reg_setF_other (d : Device) (f : Fld) (v a : Nat) (h : a ∉ fldWords f) : reg (setF d f v) a = reg d a := by
  unfold fldWords at h
  unfold setF
  split at h <;> rename_i hs
  · rw [if_pos hs, reg_setReg_other]
    simpa using h
  · rw [if_neg hs, reg_setReg64_other]
    · simp at h; exact h.1
    · simp at h; exact h.2

theorem getF_setF_apart (d : Device) (f g : Fld) (v : Nat) (hg : g.lo + g.len ≤ 64) (h : fldApart f g) :
    getF (setF d f v) g = getF d g := by
  rcases h with h | ⟨ha, hb⟩
  · have hw : ∀ a ∈ fldWords g, reg (setF d f v) a = reg d a := fun a m => reg_setF_other d f v a (fun m' => h a m' m)
    unfold fldWords at hw
    unfold getF
    by_cases hs : g.lo + g.len ≤ 32
    · simp only [hs, if_true] at hw ⊢
      rw [hw _ (by simp)]
    · simp only [hs, if_false] at hw ⊢
      unfold reg64
      rw [hw _ (by simp), hw _ (by simp)]
  · unfold getF setF
    by_cases hs : f.lo + f.len ≤ 32 <;> by_cases ht : g.lo + g.len ≤ 32 <;> simp only [hs, ht, if_true, if_false] <;> rw [← ha]
    · rw [reg_setReg_same, BitVec.toNat_ofNat, bitsOf_mod _ _ _ _ ht, bitsOf_withBits_apart _ _ _ _ _ _ hb]
    · unfold reg64
      rw [reg_setReg_same, reg_setReg_other _ _ (by omega), BitVec.toNat_ofNat,
        Nat.mod_eq_of_lt (withBits_lt v (reg d f.addr).isLt hs)]
      apply Nat.eq_of_testBit_eq
      intro k
      have hx := withBits_lt v (reg d f.addr).isLt hs
      rw [testBit_bitsOf, testBit_bitsOf, Nat.add_comm (withBits _ _ _ _), Nat.add_comm (reg d f.addr).toNat,
        Nat.mul_comm _ (2 ^ 32), Nat.testBit_two_pow_mul_add _ hx, Nat.testBit_two_pow_mul_add _ (reg d f.addr).isLt,
        testBit_withBits]
      by_cases hk : k < g.len
      · split
        · rw [show (if g.lo + k < f.lo then (reg d f.addr).toNat.testBit (g.lo + k)
            else if g.lo + k < f.lo + f.len then v.testBit (g.lo + k - f.lo)
            else (reg d f.addr).toNat.testBit (g.lo + k)) = (reg d f.addr).toNat.testBit (g.lo + k) by
            split
            · rfl
            · rw [if_neg (by omega)]]
        · rfl
      · simp [hk]
    · rw [reg_setReg64_low, BitVec.toNat_ofNat, bitsOf_mod _ _ _ _ ht, bitsOf_withBits_apart _ _ _ _ _ _ hb,
        ← bitsOf_mod (reg64 d f.addr) _ _ _ ht]
      congr 1
      unfold reg64
      have := (reg d f.addr).isLt
      omega
    · rw [reg64_setReg64_same, bitsOf_mod _ _ _ _ hg, bitsOf_withBits_apart _ _ _ _ _ _ hb]

end Sys2Proof.Machine
end

