-- ==== Sys2Proof/Laws/Words.lean ====
section
/-! SUPPORT. How a command comes to its outcome: what lifts a meaning to a state, and what the issue of a word does. -/

namespace Sys2Proof.Machine

theorem onDev_next {s : State} {f : Device → Device} (h : held s.dev = false) :
    onDev s f = .next { s with dev := f s.dev } := by
  simp [onDev, h]

theorem onDev_held {s : State} {f : Device → Device} (h : held s.dev = true) : onDev s f = .next s := by
  simp [onDev, h]

theorem onBus_next {s : State} {f : Device → Device} (h : held s.dev = false) (w : awake s.dev = true) :
    onBus s f = .next { s with dev := f s.dev } := by
  simp [onBus, onDev, h, w]

theorem onBus_asleep {s : State} {f : Device → Device} (w : awake s.dev = false) : onBus s f = .next s := by
  simp [onBus, onDev, w]

theorem comp_dev {s : State} {f : Device → Device} {d : Device} (h : held s.dev = false) (hf : f s.dev = d) :
    onDev s f = .next { s with dev := d } := by rw [onDev_next h, hf]

theorem comp_bus {s : State} {f : Device → Device} {d : Device} (h : mayReach s.dev = true) (hf : f s.dev = d) :
    onBus s f = .next { s with dev := d } := by
  simp [mayReach] at h
  rw [onBus_next h.1 h.2, hf]

theorem comp_pins {s : State} {f : Device → Device} {d : Device} (hf : f s.dev = d) :
    onPins s f = .next { s with dev := d } := by rw [onPins, hf]

theorem isD_eq (g : GReg) : g.isD = isD g := by cases g <;> rfl

theorem srcIsD_eq (b : Src) : b.isD = srcIsD b := by cases b <;> simp [Src.isD, srcIsD, isD_eq]

theorem long_eq (i : Issue) : i.long = decide (i.slot = .long) := rfl

theorem engine_eq (i : Issue) : i.engine = !isCc i.who := by
  simp only [Issue.engine, isCc]
  by_cases h : i.who.val < 64
  · simp [h]
  · simp [h]; omega

/-- An operation that may issue, in a form that is defined, issues its word and has its effect. -/
theorem withWord_issues {d : Device} {i : Issue} {ok rep : Bool} (h : mayIssue d i rep = true) (hok : ok = true)
    (f : Device → Device) : withWord i ok rep d f = wordEffect d i f := by
  subst hok
  unfold mayIssue at h
  unfold withWord wordEffect issued pairDone
  cases hs : i.slot <;> simp only [hs] at h ⊢ <;> simp [fetchable] at h ⊢ <;> grind

theorem mayIssue_held {d : Device} {i : Issue} {rep : Bool} (h : mayIssue d i rep = true) : held d = false := by
  simp [mayIssue] at h
  exact h.1

/-- An operation that may issue, in a form that is not defined, is an illegal word. -/
theorem withWord_illegal {d : Device} {i : Issue} {rep : Bool} (h : mayIssue d i false = true) (hs : i.slot = .long)
    (f : Device → Device) : withWord i false rep d f = illWord d i.who (ag d i.who).npc := by
  unfold mayIssue at h
  unfold withWord
  simp only [hs] at h ⊢
  simp [fetchable] at h ⊢
  grind

/-- The end of a rally changes, among the processors, only the one whose rally ends. -/
theorem endRally_proc (d : Device) (n : Fin 68) (c : Bool) (used : Nat) :
    (endRally d n c used).toDevProc = (setAg d n { ag d n with
      phase := .ended, cut := c, div := none, repLeft := 0, pair := none, warn := false }).toDevProc := by
  unfold endRally
  dsimp only
  have e : ∀ (b : Bool) (x : Device), (if b = true then raiseEv x (0x80 + n.val) else x).toDevProc = x.toDevProc := by
    intro b x
    split
    · exact raiseEv_proc _ _
    · rfl
  split
  · rw [setB_proc, e, setF_proc, setB_proc, setF_proc, tally_proc]
  · rw [e, setF_proc, setB_proc, setF_proc, tally_proc]

/-- A command whose meaning is an operation in a word completes with the operation's effect. -/
theorem word_completes {c : Instr} {s : State} {i : Issue} {ok : Device → Bool} {rep : Bool} {f g : Device → Device}
    (h : mayIssue s.dev i rep = true) (hok : ok s.dev = true)
    (hx : exec c s = onDev s (fun d => withWord i (ok d) rep d f)) (hfg : f (issued s.dev i) = g (issued s.dev i)) :
    completes c s (wordEffect s.dev i g) := by
  unfold completes
  rw [hx, onDev_next (mayIssue_held h), withWord_issues h hok]
  simp only [wordEffect, hfg]

end Sys2Proof.Machine
end

