-- ==== Sys2Proof/Laws/Bus.lean ====
section
/-! SUPPORT. What an access to the register blocks does, in terms of what the register's own rule does (R5, R32, R411). -/

namespace Sys2Proof.Machine

theorem busWrite_eq (d : Device) (q : Req) (a n v : Nat) (t : Tag) :
    busWrite d q a n v t = written (busPut (found d a) q a n v t) q a := rfl

theorem busRead_eq (d : Device) (q : Req) (a n : Nat) :
    busRead d q a n = answered (busGet (touch d a) q a n).1 q (busGet (touch d a) q a n).2.1 (busGet (touch d a) q a n).2.2 := rfl

/-- What of the bus part an access leaves as it was beside its own effect: everything but registers, pending events and the
mark of a write without effect. -/
structure BusKept {α : Type} (F : DevBus → α) : Prop where
  regs : ∀ b x, F { b with regs := x } = F b
  evPend : ∀ b x, F { b with evPend := x } = F b
  wrNone : ∀ b x, F { b with wrNone := x } = F b

theorem restartDomains_bus (d : Device) (p : Fin 4 → Bool) : (restartDomains d p).toDevBus = d.toDevBus := rfl

section
variable {α : Type} {F : DevBus → α} (h : BusKept F)
include h

theorem kept_setReg (d : Device) (a : Nat) (v : Word) : F (setReg d a v).toDevBus = F d.toDevBus := by
  rw [setReg_regs]; exact h.regs _ _

theorem kept_setReg64 (d : Device) (a v : Nat) : F (setReg64 d a v).toDevBus = F d.toDevBus := by
  unfold setReg64
  exact (kept_setReg h _ _ _).trans (kept_setReg h _ _ _)

theorem kept_setF (d : Device) (f : Fld) (v : Nat) : F (setF d f v).toDevBus = F d.toDevBus := by
  unfold setF; split
  · exact kept_setReg h _ _ _
  · exact kept_setReg64 h _ _ _

theorem kept_raiseEv (d : Device) (v : Nat) : F (raiseEv d v).toDevBus = F d.toDevBus := by
  unfold raiseEv; split
  · exact h.evPend _ _
  · rfl

theorem kept_setDomain (d : Device) (n v : Nat) : F (setDomain d n v).toDevBus = F d.toDevBus := by
  unfold setDomain settlePstate
  split
  · split
    · exact kept_setF h _ _ _
    · exact kept_setF h _ _ _
  · rfl

theorem kept_touch (d : Device) (a : Nat) : F (touch d a).toDevBus = F d.toDevBus := by
  unfold touch domainWake
  split
  · split
    · exact kept_setDomain h _ _ _
    · rfl
  · rfl

theorem kept_found (d : Device) (a : Nat) : F (found d a).toDevBus = F d.toDevBus :=
  (h.wrNone _ _).trans (kept_touch h d a)

theorem kept_journalPut (d : Device) (q : Req) (a n : Nat) (b : Bool) : F (journalPut d q a b n).toDevBus = F d.toDevBus := by
  unfold journalPut
  exact (kept_setReg h _ _ _).trans ((kept_setReg h _ _ _).trans (kept_setReg64 h _ _ _))

theorem kept_journal (d : Device) (q : Req) (a : Nat) (b : Bool) : F (journal d q a b).toDevBus = F d.toDevBus := by
  unfold journal; split
  · exact kept_journalPut h _ _ _ _ _
  · rfl

theorem kept_pwrRefuse (d : Device) (f : Fld) (c v t : Nat) : F (pwrRefuse d f c v t).toDevBus = F d.toDevBus := by
  unfold pwrRefuse incF
  exact (kept_raiseEv h _ _).trans
    ((kept_setF h _ _ _).trans ((kept_setF h _ _ _).trans ((kept_setF h _ _ _).trans (kept_setF h _ _ _))))

theorem kept_entryCheck (d : Device) : F (entryCheck d).toDevBus = F d.toDevBus := by
  unfold entryCheck
  split
  · rfl
  · split
    · rfl
    · refine (kept_pwrRefuse h _ _ _ _ _).trans ?_
      exact (congrArg F (restartDomains_bus _ _)).trans (kept_setF h _ _ _)

theorem kept_written (e : Device) (q : Req) (a : Nat) : F (written e q a).toDevBus = F e.toDevBus :=
  (kept_entryCheck h _).trans ((kept_journal h _ _ _ _).trans (h.wrNone _ _))
end

theorem kept_variant : BusKept (fun b => b.variant) := ⟨fun _ _ => rfl, fun _ _ => rfl, fun _ _ => rfl⟩

theorem kept_writeHold : BusKept (fun b => b.writeHold) := ⟨fun _ _ => rfl, fun _ _ => rfl, fun _ _ => rfl⟩

theorem kept_handshake : BusKept (fun b => b.handshake) := ⟨fun _ _ => rfl, fun _ _ => rfl, fun _ _ => rfl⟩

theorem found_variant (d : Device) (a : Nat) : (found d a).variant = d.variant := kept_found kept_variant d a

theorem found_writeHold (d : Device) (a : Nat) : (found d a).writeHold = d.writeHold := kept_found kept_writeHold d a

theorem written_writeHold (e : Device) (q : Req) (a : Nat) : (written e q a).writeHold = e.writeHold :=
  kept_written kept_writeHold e q a

theorem written_handshake (e : Device) (q : Req) (a : Nat) : (written e q a).handshake = e.handshake :=
  kept_written kept_handshake e q a

theorem subAbsent_variant {d e : Device} (h : e.variant = d.variant) (a : Nat) : subAbsent e a = subAbsent d a := by
  unfold subAbsent hasPcie sapCount linkCount spinCount engCount
  rw [h]

theorem addr_regs {a : Nat} (h : areaOf a = .regs) : 0x1C000000 ≤ a ∧ a < 0x1C130000 := by
  unfold areaOf at h
  by_cases h1 : a < 0x1C000000
  · exfalso
    by_cases h2 : a < 0x18200000
    · grind
    · grind
  · by_cases h2 : a < 0x1C130000
    · omega
    · grind

theorem regs_addr {a : Nat} (h : 0x1C000000 ≤ a) (h2 : a < 0x1C130000) : areaOf a = .regs := by
  unfold areaOf
  grind

/-- An access outside the views of delay memory finds none that waits at a bank. -/
theorem settle_other (d : Device) {a : Nat} (h : delayView a = false) : settle d a = d := by
  unfold settle
  rw [if_neg (by simp [h])]

theorem view_regs {a : Nat} (h : areaOf a = .regs) : delayView a = false := by
  have := addr_regs h
  unfold delayView
  simp
  omega

theorem group_regs (d : Device) {a : Nat} (h : areaOf a = .regs) : groupEmpty d a = false := by
  unfold groupEmpty
  rw [h]

/-- Only registers of the MEDIA domain name a rate domain in their writes (R24). -/
theorem namesNoDomain_other (d : Device) {a : Nat} (v : Nat) (h : mediaReg a = false) : namesNoDomain d a v = false := by
  unfold mediaReg at h
  unfold namesNoDomain
  simp [Adr.TIME_CTL] at h ⊢
  grind

theorem busPut_reg {d : Device} {q : Req} {a : Nat} {t : Tag} (ha : areaOf a = .regs) (hs : subAbsent d a = false) (v : Nat) :
    busPut d q a 4 v t = writeReg d q a (BitVec.ofNat 32 v) := by
  unfold busPut
  rw [settle_other d (view_regs ha)]
  dsimp only
  rw [if_neg (by decide)]
  unfold writeWord
  rw [group_regs d ha]
  unfold absentAt registerArea
  rw [ha]
  simp [hs]

theorem writeReg_plain {d : Device} {q : Req} {a : Nat} {v : Word} {r : RegRow} (hr : regRow a = some (r, false))
    (hw : r.wide = false) (hm : mediaReg a = false) (hn : aonReg a = false) : writeReg d q a v = applyReg d q a r v := by
  unfold writeReg
  rw [hr]
  simp [hw, hm, hn, namesNoDomain_other d v.toNat hm]

theorem busPut_wide {d : Device} {q : Req} {a v : Nat} {t : Tag} {r : RegRow} (ha : areaOf a = .regs) (hs : subAbsent d a = false)
    (hr : regRow a = some (r, false)) (hw : r.wide = true)  : busPut d q a 8 v t = writeWide d q a v := by
  unfold busPut
  rw [settle_other d (view_regs ha)]
  dsimp only
  rw [if_pos rfl]
  unfold deadAccess absentAt coversWide
  rw [view_regs ha, ha, hr]
  simp [hs, hw]

theorem writeWide_wide {d : Device} {q : Req} {a v : Nat} {r : RegRow} (hr : regRow a = some (r, false)) 
   (hm : mediaReg a = false) (hn : aonReg a = false) : writeWide d q a v = applyWide d q a a r v := by
  unfold writeWide
  rw [hr]
  simp [hm, hn]

/-- A register of 32 bits is written by one access (R5). -/
theorem busWrite_reg {d : Device} {q : Req} {a v : Nat} {r : RegRow} (ha : areaOf a = .regs) (hs : subAbsent d a = false)
    (hr : regRow a = some (r, false)) (hw : r.wide = false) (hm : mediaReg a = false) (hn : aonReg a = false) :
    busWrite d q a 4 v = written (applyReg (found d a) q a r (BitVec.ofNat 32 v)) q a := by
  rw [busWrite_eq, busPut_reg ha ((subAbsent_variant (found_variant d a) a).trans hs), writeReg_plain hr hw hm hn]

/-- Both halves of a W register written (R32, R487). -/
theorem pairWrite_reg {d : Device} {q : Req} {a v : Nat} {r : RegRow} (ha : areaOf a = .regs) (ha4 : areaOf (a + 4) = .regs)
    (hs : subAbsent d a = false) (hs4 : subAbsent d (a + 4) = false)
    (hr : regRow a = some (r, false)) (hr4 : regRow (a + 4) = some (r, true)) (hw : r.wide = true) (hm : mediaReg a = false)
    (hn : aonReg a = false) (hv : v < 2 ^ 64) :
    pairWrite d q a v = written (applyWide (foundPair d q a v) q a (lastAt q a) r v) q (lastAt q a) := by
  cases q
  case hspi =>
    unfold pairWrite foundPair lastAt
    dsimp only
    have hvar : (busWrite d Req.hspi a 4 v).variant = d.variant := by
      rw [busWrite_eq, busPut_reg ha ((subAbsent_variant (found_variant d a) a).trans hs)]
      unfold writeReg
      rw [hr]
      dsimp only
      rw [if_pos hw]
      exact (kept_written kept_variant _ _ _).trans (found_variant d a)
    rw [busWrite_eq _ _ (a + 4), busPut_reg ha4 ((subAbsent_variant ((found_variant _ _).trans hvar) _).trans hs4)]
    unfold writeReg
    rw [hr4]
    dsimp only
    rw [if_pos hw, if_pos rfl]
    rw [Nat.add_sub_cancel]
    rw [if_neg (by simp [hm, hn])]
    congr 2
    rw [found_writeHold, busWrite_eq, written_writeHold, busPut_reg ha ((subAbsent_variant (found_variant d a) a).trans hs)]
    unfold writeReg
    rw [hr]
    dsimp only
    simp only [hw, Bool.false_eq_true, if_false, if_true]
    rw [sparseGet_put, if_pos rfl]
    simp only [BitVec.toNat_ofNat]
    omega
  all_goals
    unfold pairWrite foundPair lastAt
    dsimp only
    rw [busWrite_eq, busPut_wide ha ((subAbsent_variant (found_variant d a) a).trans hs) hr hw, writeWide_wide hr hm hn]
theorem touch_variant (d : Device) (a : Nat) : (touch d a).variant = d.variant := kept_touch kept_variant d a

theorem engCount_variant {d e : Device} (h : e.variant = d.variant) : engCount e = engCount d := by unfold engCount; rw [h]

/-- A word of the register blocks read by one access (R5, R31). -/
theorem busGet_reg {d : Device} {q : Req} {a : Nat} (ha : areaOf a = .regs) (h4 : a % 4 = 0) (hs : subAbsent d a = false) :
    busGet d q a 4 = ((readReg d q a).1, (readReg d q a).2 % 2 ^ 32, .int) := by
  unfold busGet
  rw [settle_other d (view_regs ha)]
  dsimp only
  rw [if_neg (by decide)]
  unfold readWord absentAt
  rw [ha]
  simp [hs, h4, lanes, ha, intWord]

/-! ### The windows -/

theorem area_engine (n : Fin 64) (o : Nat) (h : o < 0x100000) : areaOf (engWindow n + o) = .engine n o := by
  unfold areaOf engWindow
  have := n.2
  simp only [show ∀ k, k ≤ 0x10000000 → ¬ 0x10000000 + 0x100000 * n.val + o < k from fun k _ => by omega, if_false, Nat.reduceLeDiff,
    show 0x10000000 + 0x100000 * n.val + o < 0x14000000 by omega, if_true]
  have h1 : (0x10000000 + 0x100000 * n.val + o - 0x10000000) / 0x100000 % 64 = n.val := by omega
  have h2 : (0x10000000 + 0x100000 * n.val + o) % 0x100000 = o := by omega
  rw [h2]
  congr 1
  exact Fin.ext h1

theorem area_group (g : Fin 64) (o : Nat) (h : o < 0x100000) :
    areaOf (0x14000000 + 0x100000 * g.val + o) = .group g.val o := by
  unfold areaOf
  have := g.2
  simp only [show ∀ k, k ≤ 0x14000000 → ¬ 0x14000000 + 0x100000 * g.val + o < k from fun k _ => by omega, if_false, Nat.reduceLeDiff,
    show 0x14000000 + 0x100000 * g.val + o < 0x18000000 by omega, if_true]
  have h1 : (0x14000000 + 0x100000 * g.val + o - 0x14000000) / 0x100000 = g.val := by omega
  have h2 : (0x14000000 + 0x100000 * g.val + o) % 0x100000 = o := by omega
  rw [h2, h1]

/-- A word written through the window of a present engine that does not refuse it (R109). -/
theorem busWrite_engine {d : Device} {q : Req} {n : Fin 64} {o v : Nat} (ho : o < 0x100000) (hn : n.val < engCount d)
    (hr : engRefusal (found d (engWindow n + o)) (engProc n) o = none) :
    busWrite d q (engWindow n + o) 4 v =
      written (engWinPut (found d (engWindow n + o)) (engProc n) o 4 (BitVec.ofNat 32 v) .sample) q (engWindow n + o) := by
  have hv : delayView (engWindow n + o) = false := by
    unfold delayView engWindow
    simp
    omega
  rw [busWrite_eq]
  unfold busPut
  rw [settle_other _ hv]
  dsimp only
  rw [if_neg (by decide)]
  unfold writeWord absentAt registerArea groupEmpty
  rw [area_engine n o ho]
  have := engCount_variant (found_variant d (engWindow n + o))
  dsimp only
  rw [if_neg (by simp [this]; omega), if_neg (by simp), if_neg (by simp), hr]

end Sys2Proof.Machine
end

