-- ==== Sys2Proof/Laws/MemOps.lean ====
section
/-! SUPPORT. What leaves delay memory and the control-core memories as they are: the register file, regions, clocks and queues. One lemma per operation. -/

namespace Sys2Proof.Machine

@[simp] theorem ite_delay {c : Prop} [Decidable c] (a b : Device) :
    (if c then a else b).delay = if c then a.delay else b.delay := by split <;> rfl

@[simp] theorem ite_ccMem {c : Prop} [Decidable c] (a b : Device) :
    (if c then a else b).ccMem = if c then a.ccMem else b.ccMem := by split <;> rfl

@[simp] theorem ite_pair_fst {α : Type} {c : Prop} [Decidable c] (a b : Device × α) :
    (if c then a else b).1 = if c then a.1 else b.1 := by split <;> rfl

@[simp] theorem foldl_delay {α : Type} (g : Device → α → Device) (h : ∀ d x, (g d x).delay = d.delay) (l : List α) (d : Device) :
    (l.foldl g d).delay = d.delay := by
  induction l generalizing d with
  | nil => rfl
  | cons x l ih => simp [ih, h]

@[simp] theorem foldl_ccMem {α : Type} (g : Device → α → Device) (h : ∀ d x, (g d x).ccMem = d.ccMem) (l : List α) (d : Device) :
    (l.foldl g d).ccMem = d.ccMem := by
  induction l generalizing d with
  | nil => rfl
  | cons x l ih => simp [ih, h]

theorem foldl_fst_delay {α β : Type} (g : Device × β → α → Device × β) (h : ∀ r x, (g r x).1.delay = r.1.delay) (l : List α)
    (r : Device × β) : (l.foldl g r).1.delay = r.1.delay := by
  induction l generalizing r with
  | nil => rfl
  | cons x l ih => simp [ih, h]

theorem foldl_fst_ccMem {α β : Type} (g : Device × β → α → Device × β) (h : ∀ r x, (g r x).1.ccMem = r.1.ccMem) (l : List α)
    (r : Device × β) : (l.foldl g r).1.ccMem = r.1.ccMem := by
  induction l generalizing r with
  | nil => rfl
  | cons x l ih => simp [ih, h]

theorem mem_ite {c : Prop} [Decidable c] {a b d : Device} (ha : a.delay = d.delay ∧ a.ccMem = d.ccMem)
    (hb : b.delay = d.delay ∧ b.ccMem = d.ccMem) :
    (if c then a else b).delay = d.delay ∧ (if c then a else b).ccMem = d.ccMem := by split <;> assumption

@[simp] theorem mem_setReg (d : Device) (a : Nat) (v : Word) :
    (setReg d a v).delay = d.delay ∧ (setReg d a v).ccMem = d.ccMem := by
  unfold setReg
  simp

@[simp] theorem mem_setReg64 (d : Device) (a : Nat) (v : Nat) :
    (setReg64 d a v).delay = d.delay ∧ (setReg64 d a v).ccMem = d.ccMem := by
  unfold setReg64
  simp

@[simp] theorem mem_setF (d : Device) (f : Fld) (v : Nat) :
    (setF d f v).delay = d.delay ∧ (setF d f v).ccMem = d.ccMem := by
  unfold setF
  simp

@[simp] theorem mem_setB (d : Device) (f : Fld) (b : Bool) :
    (setB d f b).delay = d.delay ∧ (setB d f b).ccMem = d.ccMem := by
  unfold setB
  simp

@[simp] theorem mem_incF (d : Device) (f : Fld) (k : optParam Nat 1) :
    (incF d f k).delay = d.delay ∧ (incF d f k).ccMem = d.ccMem := by
  unfold incF
  simp

@[simp] theorem mem_fresh (d : Device) : (fresh d).2.delay = d.delay ∧ (fresh d).2.ccMem = d.ccMem := by
  unfold fresh
  simp

@[simp] theorem mem_tally (d : Device) (k : Nat) (n : Nat) :
    (tally d k n).delay = d.delay ∧ (tally d k n).ccMem = d.ccMem := by
  unfold tally
  simp

@[simp] theorem mem_sendMsix (d : Device) (x : Nat) :
    (sendMsix d x).delay = d.delay ∧ (sendMsix d x).ccMem = d.ccMem := by
  unfold sendMsix
  simp

@[simp] theorem mem_evtSettle (d : Device) :
    (evtSettle d).delay = d.delay ∧ (evtSettle d).ccMem = d.ccMem := by
  unfold evtSettle
  simp

@[simp] theorem mem_deliverEv (d : Device) (v : Nat) (k : Nat) :
    (deliverEv d v k).delay = d.delay ∧ (deliverEv d v k).ccMem = d.ccMem := by
  unfold deliverEv
  simp

@[simp] theorem mem_raiseEv (d : Device) (v : Nat) :
    (raiseEv d v).delay = d.delay ∧ (raiseEv d v).ccMem = d.ccMem := by
  unfold raiseEv
  simp

@[simp] theorem mem_raiseCtrl (d : Device) (v : Nat) :
    (raiseCtrl d v).delay = d.delay ∧ (raiseCtrl d v).ccMem = d.ccMem := by
  unfold raiseCtrl
  simp

@[simp] theorem mem_ignored (d : Device) :
    (ignored d).delay = d.delay ∧ (ignored d).ccMem = d.ccMem := by
  unfold ignored
  simp

@[simp] theorem mem_reject (d : Device) (code : Nat) (path : Nat) (addr : Nat) :
    (reject d code path addr).delay = d.delay ∧ (reject d code path addr).ccMem = d.ccMem := by
  unfold reject
  simp

@[simp] theorem mem_absentAccess (d : Device) (path : Nat) (eng : Nat) (addr : Nat) :
    (absentAccess d path eng addr).delay = d.delay ∧ (absentAccess d path eng addr).ccMem = d.ccMem := by
  unfold absentAccess
  simp

@[simp] theorem mem_rejectReq (d : Device) (code : Nat) (q : Req) (addr : Nat) :
    (rejectReq d code q addr).delay = d.delay ∧ (rejectReq d code q addr).ccMem = d.ccMem := by
  unfold rejectReq
  simp

@[simp] theorem mem_journalPut (d : Device) (q : Req) (a : Nat) (noeffect : Bool) (n : Nat) :
    (journalPut d q a noeffect n).delay = d.delay ∧ (journalPut d q a noeffect n).ccMem = d.ccMem := by
  unfold journalPut
  simp

@[simp] theorem mem_journal (d : Device) (q : Req) (a : Nat) (noeffect : Bool) :
    (journal d q a noeffect).delay = d.delay ∧ (journal d q a noeffect).ccMem = d.ccMem := by
  unfold journal
  simp

@[simp] theorem mem_writeOp (d : Device) (q : Req) (a : Nat) (f : Device → Device)
    (h : ∀ d, (f d).delay = d.delay ∧ (f d).ccMem = d.ccMem) :
    (writeOp d q a f).delay = d.delay ∧ (writeOp d q a f).ccMem = d.ccMem := by
  unfold writeOp
  simp [h]

@[simp] theorem mem_respond (d : Device) (q : Req) (v : Nat) (t : optParam Tag Tag.int) :
    (respond d q v t).delay = d.delay ∧ (respond d q v t).ccMem = d.ccMem := by
  unfold respond
  simp

@[simp] theorem mem_setAg (d : Device) (n : Fin 68) (e : Engine) :
    (setAg d n e).delay = d.delay ∧ (setAg d n e).ccMem = d.ccMem := by
  unfold setAg
  simp

@[simp] theorem mem_mapAg (d : Device) (f : Engine → Engine) :
    (mapAg d f).delay = d.delay ∧ (mapAg d f).ccMem = d.ccMem := by
  unfold mapAg
  simp

@[simp] theorem mem_clearResv (d : Device) (l : Loc) :
    (clearResv d l).delay = d.delay ∧ (clearResv d l).ccMem = d.ccMem := by
  unfold clearResv
  simp

@[simp] theorem mem_clearDelayResv (d : Device) (lo : Nat) (hi : Nat) :
    (clearDelayResv d lo hi).delay = d.delay ∧ (clearDelayResv d lo hi).ccMem = d.ccMem := by
  unfold clearDelayResv
  simp

@[simp] theorem mem_putLocal (d : Device) (n : Fin 68) (w : Nat) (v : TWord) :
    (putLocal d n w v).delay = d.delay ∧ (putLocal d n w v).ccMem = d.ccMem := by
  unfold putLocal
  simp

@[simp] theorem mem_putGuard (d : Device) (c : Nat) (x : GuardCh) :
    (putGuard d c x).delay = d.delay ∧ (putGuard d c x).ccMem = d.ccMem := by
  unfold putGuard
  simp

@[simp] theorem mem_guardStatus (d : Device) (c : Nat) (old : GuardCh) (new : GuardCh) (lv : Int × Int × Int) (a : Int) :
    (guardStatus d c old new lv a).delay = d.delay ∧ (guardStatus d c old new lv a).ccMem = d.ccMem := by
  unfold guardStatus
  simp

@[simp] theorem mem_guardProcess (d : Device) (c : Nat) (x : Int) (zero : Bool) :
    (guardProcess d c x zero).1.delay = d.delay ∧ (guardProcess d c x zero).1.ccMem = d.ccMem := by
  unfold guardProcess
  simp

@[simp] theorem mem_guardResume (d : Device) (c : Nat) :
    (guardResume d c).delay = d.delay ∧ (guardResume d c).ccMem = d.ccMem := by
  unfold guardResume
  simp

@[simp] theorem mem_guardAll (f : GuardCh → GuardCh) (d : Device) :
    (guardAll f d).delay = d.delay ∧ (guardAll f d).ccMem = d.ccMem := by
  unfold guardAll
  exact ⟨rfl, rfl⟩

@[simp] theorem mem_guardWake (d : Device) :
    (guardWake d).delay = d.delay ∧ (guardWake d).ccMem = d.ccMem := by
  unfold guardWake
  simp

@[simp] theorem mem_rtField (v : Nat) (d : Device) (x : RtField) :
    (rtField v d x).delay = d.delay ∧ (rtField v d x).ccMem = d.ccMem := by
  unfold rtField
  simp

@[simp] theorem mem_guardRtWrite (d : Device) (q : Req) (a : Nat) (v : Nat) :
    (guardRtWrite d q a v).delay = d.delay ∧ (guardRtWrite d q a v).ccMem = d.ccMem := by
  unfold guardRtWrite
  simp

@[simp] theorem mem_guardExpire (d : Device) :
    (guardExpire d).delay = d.delay ∧ (guardExpire d).ccMem = d.ccMem := by
  unfold guardExpire
  dsimp only
  (repeat' split) <;> simp

@[simp] theorem mem_fadeInAll (d : Device) :
    (fadeInAll d).delay = d.delay ∧ (fadeInAll d).ccMem = d.ccMem := by
  unfold fadeInAll
  simp

@[simp] theorem mem_guardRelease (d : Device) (running : Bool) :
    (guardRelease d running).delay = d.delay ∧ (guardRelease d running).ccMem = d.ccMem := by
  unfold guardRelease
  simp

@[simp] theorem mem_whistleAssert (d : Device) :
    (whistleAssert d).delay = d.delay ∧ (whistleAssert d).ccMem = d.ccMem := by
  unfold whistleAssert
  simp

@[simp] theorem mem_whistleRelease (d : Device) :
    (whistleRelease d).delay = d.delay ∧ (whistleRelease d).ccMem = d.ccMem := by
  unfold whistleRelease
  simp

@[simp] theorem mem_setRgn (d : Device) (r : Nat) (x : Region) :
    (setRgn d r x).delay = d.delay ∧ (setRgn d r x).ccMem = d.ccMem := by
  unfold setRgn
  simp

@[simp] theorem mem_setClkWord (d : Device) (o : Nat) (v : Nat) :
    (setClkWord d o v).delay = d.delay ∧ (setClkWord d o v).ccMem = d.ccMem := by
  unfold setClkWord
  simp

@[simp] theorem mem_setEps (d : Device) (e : Int) :
    (setEps d e).delay = d.delay ∧ (setEps d e).ccMem = d.ccMem := by
  unfold setEps
  simp

@[simp] theorem mem_advance (d : Device) (k : Nat) :
    (advance d k).delay = d.delay ∧ (advance d k).ccMem = d.ccMem := by
  unfold advance
  simp

@[simp] theorem mem_timeEdge (d : Device) :
    (timeEdge d).delay = d.delay ∧ (timeEdge d).ccMem = d.ccMem := by
  unfold timeEdge
  simp

@[simp] theorem mem_setTimeState (d : Device) (st : Nat) :
    (setTimeState d st).delay = d.delay ∧ (setTimeState d st).ccMem = d.ccMem := by
  unfold setTimeState
  simp

@[simp] theorem mem_freeLocked (d : Device) :
    (freeLocked d).delay = d.delay ∧ (freeLocked d).ccMem = d.ccMem := by
  unfold freeLocked
  simp

@[simp] theorem mem_restartDomains (d : Device) (p : Fin 4 → Bool) :
    (restartDomains d p).delay = d.delay ∧ (restartDomains d p).ccMem = d.ccMem := by
  unfold restartDomains
  simp

@[simp] theorem mem_stepTime (d : Device) (x : Int) :
    (stepTime d x).delay = d.delay ∧ (stepTime d x).ccMem = d.ccMem := by
  unfold stepTime
  simp

@[simp] theorem mem_servoUpdate (d : Device) (e : Int) :
    (servoUpdate d e).delay = d.delay ∧ (servoUpdate d e).ccMem = d.ccMem := by
  unfold servoUpdate
  simp

@[simp] theorem mem_enterHoldover (d : Device) :
    (enterHoldover d).delay = d.delay ∧ (enterHoldover d).ccMem = d.ccMem := by
  unfold enterHoldover
  simp

@[simp] theorem mem_servoCount (d : Device) (e : Int) :
    (servoCount d e).delay = d.delay ∧ (servoCount d e).ccMem = d.ccMem := by
  unfold servoCount
  simp

@[simp] theorem mem_servoEvent (d : Device) (e0 : Int) :
    (servoEvent d e0).delay = d.delay ∧ (servoEvent d e0).ccMem = d.ccMem := by
  unfold servoEvent
  simp

@[simp] theorem mem_openChoice (d : Device) (a b : Int) :
    (openChoice d a b).1.delay = d.delay ∧ (openChoice d a b).1.ccMem = d.ccMem := mem_fresh d

@[simp] theorem mem_setRefsel (d : Device) (sel : Nat) :
    (setRefsel d sel).delay = d.delay ∧ (setRefsel d sel).ccMem = d.ccMem := by
  unfold setRefsel
  simp

@[simp] theorem mem_timeCtl (d : Device) (v : Nat) :
    (timeCtl d v).delay = d.delay ∧ (timeCtl d v).ccMem = d.ccMem := by
  unfold timeCtl
  simp

@[simp] theorem mem_timeFreq (d : Device) (v : Nat) :
    (timeFreq d v).delay = d.delay ∧ (timeFreq d v).ccMem = d.ccMem := by
  unfold timeFreq
  simp

@[simp] theorem mem_ppsEdge (d : Device) (ts : Nat) :
    (ppsEdge d ts).delay = d.delay ∧ (ppsEdge d ts).ccMem = d.ccMem := by
  unfold ppsEdge
  simp

@[simp] theorem mem_wclkEdge (d : Device) (pin : Nat) (ts : Nat) :
    (wclkEdge d pin ts).delay = d.delay ∧ (wclkEdge d pin ts).ccMem = d.ccMem := by
  unfold wclkEdge
  simp

@[simp] theorem mem_idleBits (d : Device) :
    (idleBits d).delay = d.delay ∧ (idleBits d).ccMem = d.ccMem := by
  unfold idleBits
  simp

@[simp] theorem mem_timeSrcState (d : Device) :
    (timeSrcState d).delay = d.delay ∧ (timeSrcState d).ccMem = d.ccMem := by
  unfold timeSrcState
  simp

@[simp] theorem mem_timeSrcCheck (d : Device) :
    (timeSrcCheck d).delay = d.delay ∧ (timeSrcCheck d).ccMem = d.ccMem := by
  unfold timeSrcCheck
  simp

@[simp] theorem mem_coachCheck (d : Device) :
    (coachCheck d).delay = d.delay ∧ (coachCheck d).ccMem = d.ccMem := by
  unfold coachCheck
  simp

@[simp] theorem mem_pllMute (d : Device) (j : Nat) :
    (pllMute d j).delay = d.delay ∧ (pllMute d j).ccMem = d.ccMem := by
  unfold pllMute
  simp

@[simp] theorem mem_pllStart (d : Device) (j : Nat) :
    (pllStart d j).delay = d.delay ∧ (pllStart d j).ccMem = d.ccMem := by
  unfold pllStart
  dsimp only
  (repeat' split) <;> simp

@[simp] theorem mem_timeRestart (d : Device) (a1 : Nat) :
    (timeRestart d a1).delay = d.delay ∧ (timeRestart d a1).ccMem = d.ccMem := by
  unfold timeRestart
  extract_lets
  constructor
  · rw [(mem_setTimeState _ _).1, (mem_setB _ _ _).1, (mem_setF _ _ _).1, (mem_setF _ _ _).1,
      (mem_setF _ _ _).1, (mem_setF _ _ _).1, (mem_setReg64 _ _ _).1]
  · rw [(mem_setTimeState _ _).2, (mem_setB _ _ _).2, (mem_setF _ _ _).2, (mem_setF _ _ _).2,
      (mem_setF _ _ _).2, (mem_setF _ _ _).2, (mem_setReg64 _ _ _).2]

@[simp] theorem mem_timeBegin (d : Device) (a1 : Nat) :
    (timeBegin d a1).delay = d.delay ∧ (timeBegin d a1).ccMem = d.ccMem := by
  unfold timeBegin
  simp

@[simp] theorem mem_pllLock (d : Device) (j : Nat) :
    (pllLock d j).delay = d.delay ∧ (pllLock d j).ccMem = d.ccMem := by
  unfold pllLock
  dsimp only
  (repeat' split) <;> simp

@[simp] theorem mem_pllTimeout (d : Device) (j : Nat) :
    (pllTimeout d j).delay = d.delay ∧ (pllTimeout d j).ccMem = d.ccMem := by
  unfold pllTimeout
  simp

@[simp] theorem mem_pllLose (d : Device) (j : Nat) :
    (pllLose d j).delay = d.delay ∧ (pllLose d j).ccMem = d.ccMem := by
  unfold pllLose
  simp

@[simp] theorem mem_mtgtWrite (d : Device) (q : Req) (m : Nat) (v : Nat) :
    (mtgtWrite d q m v).delay = d.delay ∧ (mtgtWrite d q m v).ccMem = d.ccMem := by
  unfold mtgtWrite
  simp

@[simp] theorem mem_mctlWrite (d : Device) (m : Nat) (v : Nat) :
    (mctlWrite d m v).delay = d.delay ∧ (mctlWrite d m v).ccMem = d.ccMem := by
  unfold mctlWrite
  simp

@[simp] theorem mem_wclkAt (d : Device) (k : Fin 4) (n : Nat) (w : Fin 4) :
    (wclkAt d k n w).delay = d.delay ∧ (wclkAt d k n w).ccMem = d.ccMem := by
  unfold wclkAt
  simp

@[simp] theorem mem_hoBit (d : Device) (f : Fld) (k : Fin 4) (b : Bool) :
    (hoBit d f k b).delay = d.delay ∧ (hoBit d f k b).ccMem = d.ccMem := by
  unfold hoBit
  simp

@[simp] theorem mem_hoDrop (d : Device) (k : Fin 4) :
    (hoDrop d k).delay = d.delay ∧ (hoDrop d k).ccMem = d.ccMem := by
  unfold hoDrop
  simp

@[simp] theorem mem_hoApply (d : Device) (k : Fin 4) (n : Nat) (h : Handover) :
    (hoApply d k n h).delay = d.delay ∧ (hoApply d k n h).ccMem = d.ccMem := by
  unfold hoApply
  simp

@[simp] theorem mem_hoTake (d : Device) (k : Fin 4) (n : Nat) (h : Handover) :
    (hoTake d k n h).delay = d.delay ∧ (hoTake d k n h).ccMem = d.ccMem := by
  unfold hoTake
  simp

@[simp] theorem mem_hoAt (d : Device) (k : Fin 4) (n : Nat) :
    (hoAt d k n).delay = d.delay ∧ (hoAt d k n).ccMem = d.ccMem := by
  unfold hoAt
  (repeat' split) <;> simp

@[simp] theorem mem_mastersDue (d : Device) (k : Fin 4) :
    (mastersDue d k).delay = d.delay ∧ (mastersDue d k).ccMem = d.ccMem := by
  unfold mastersDue
  exact ⟨rfl, rfl⟩

@[simp] theorem mem_noteKick (d : Device) :
    (noteKick d).delay = d.delay ∧ (noteKick d).ccMem = d.ccMem := by
  unfold noteKick
  simp

@[simp] theorem mem_markAt (d : Device) (k : Fin 4) (n : Nat) :
    (markAt d k n).delay = d.delay ∧ (markAt d k n).ccMem = d.ccMem := by
  unfold markAt
  simp

@[simp] theorem mem_kickoffMark (d : Device) (k : Fin 4) :
    (kickoffMark d k).delay = d.delay ∧ (kickoffMark d k).ccMem = d.ccMem := by
  unfold kickoffMark
  simp

@[simp] theorem mem_shadowMark (d : Device) (k : Fin 4) (within : Bool) :
    (shadowMark d k within).delay = d.delay ∧ (shadowMark d k within).ccMem = d.ccMem := by
  unfold shadowMark
  dsimp only
  (repeat' split) <;> simp

@[simp] theorem mem_winBegin (d : Device) :
    (winBegin d).delay = d.delay ∧ (winBegin d).ccMem = d.ccMem := by
  unfold winBegin
  simp

@[simp] theorem mem_calWindow (d : Device) :
    (calWindow d).delay = d.delay ∧ (calWindow d).ccMem = d.ccMem := by
  unfold calWindow
  simp only [mem_winBegin, mem_setF, ite_delay, ite_ccMem, ite_self, and_self]

@[simp] theorem mem_setQue (d : Device) (q : Fin 256) (x : Queue) :
    (setQue d q x).delay = d.delay ∧ (setQue d q x).ccMem = d.ccMem := by
  unfold setQue
  simp

@[simp] theorem mem_queEvent (d : Device) (q : Fin 256) (en : Fld) (b : Bool) :
    (queEvent d q en b).delay = d.delay ∧ (queEvent d q en b).ccMem = d.ccMem := by
  unfold queEvent
  simp

@[simp] theorem mem_queSettle (d : Device) (q : Fin 256) (before : Nat) :
    (queSettle d q before).delay = d.delay ∧ (queSettle d q before).ccMem = d.ccMem := by
  unfold queSettle
  simp

@[simp] theorem mem_queAppend (d : Device) (q : Fin 256) (ws : List TWord) :
    (queAppend d q ws).delay = d.delay ∧ (queAppend d q ws).ccMem = d.ccMem := by
  unfold queAppend
  simp

@[simp] theorem mem_queOverflow (d : Device) (q : Fin 256) :
    (queOverflow d q).delay = d.delay ∧ (queOverflow d q).ccMem = d.ccMem := by
  unfold queOverflow
  simp

@[simp] theorem mem_quePush (d : Device) (q : Fin 256) (w : TWord) :
    (quePush d q w).delay = d.delay ∧ (quePush d q w).ccMem = d.ccMem := by
  unfold quePush
  simp

@[simp] theorem mem_quePushItem (d : Device) (q : Fin 256) (ws : List TWord) :
    (quePushItem d q ws).delay = d.delay ∧ (quePushItem d q ws).ccMem = d.ccMem := by
  unfold quePushItem
  simp

@[simp] theorem mem_queUnder (d : Device) (q : Fin 256) :
    (queUnder d q).delay = d.delay ∧ (queUnder d q).ccMem = d.ccMem := by
  unfold queUnder
  simp

@[simp] theorem mem_queTake (d : Device) (q : Fin 256) :
    (queTake d q).1.delay = d.delay ∧ (queTake d q).1.ccMem = d.ccMem := by
  unfold queTake
  dsimp only
  (repeat' split) <;> simp

@[simp] theorem mem_quePop (d : Device) (q : Fin 256) :
    (quePop d q).1.delay = d.delay ∧ (quePop d q).1.ccMem = d.ccMem := by
  unfold quePop
  simp

@[simp] theorem mem_quePops (d : Device) (q : Fin 256) (n : Nat) :
    (quePops d q n).1.delay = d.delay ∧ (quePops d q n).1.ccMem = d.ccMem := by
  induction n generalizing d with
  | zero => simp [quePops]
  | succ n ih => simp [quePops, ih]

@[simp] theorem mem_queFlush (d : Device) (q : Fin 256) :
    (queFlush d q).delay = d.delay ∧ (queFlush d q).ccMem = d.ccMem := by
  unfold queFlush
  simp

@[simp] theorem mem_queArrive (d : Device) (q : Fin 256) :
    (queArrive d q).delay = d.delay ∧ (queArrive d q).ccMem = d.ccMem := by
  unfold queArrive
  dsimp only
  (repeat' split) <;> simp

@[simp] theorem mem_queCross (d : Device) (q : Fin 256) (ws : List TWord) :
    (queCross d q ws).delay = d.delay ∧ (queCross d q ws).ccMem = d.ccMem := by
  unfold queCross
  simp

end Sys2Proof.Machine
end

