-- ==== Sys2Proof/Laws/MemFabric.lean ====
section
/-! SUPPORT. What leaves delay memory and the control-core memories as they are: the route frame, mix units, the fabric node and links. One lemma per operation. -/

namespace Sys2Proof.Machine

@[simp] theorem mem_putSink (d : Device) (x : Nat) (v : Sink) :
    (putSink d x v).delay = d.delay ∧ (putSink d x v).ccMem = d.ccMem := by
  unfold putSink
  simp

@[simp] theorem mem_putEntry (d : Device) (s : Nat) (v : TWord) :
    (putEntry d s v).delay = d.delay ∧ (putEntry d s v).ccMem = d.ccMem := by
  unfold putEntry
  simp

@[simp] theorem mem_deliver (d : Device) (k : Fin 4) (x : Nat) :
    (deliver d k x).1.delay = d.delay ∧ (deliver d k x).1.ccMem = d.ccMem := by
  unfold deliver
  simp

@[simp] theorem mem_deliverRun (d : Device) (k : Fin 4) (x n : Nat) :
    (deliverRun d k x n).1.delay = d.delay ∧ (deliverRun d k x n).1.ccMem = d.ccMem := by
  induction n generalizing d x with
  | zero => simp [deliverRun]
  | succ n ih => simp [deliverRun, ih]

@[simp] theorem mem_selAbsent (d : Device) (s : Nat) :
    (selAbsent d s).delay = d.delay ∧ (selAbsent d s).ccMem = d.ccMem := by
  unfold selAbsent
  simp

@[simp] theorem mem_cutTo (d : Device) (x : Nat) (s : Nat) :
    (cutTo d x s).delay = d.delay ∧ (cutTo d x s).ccMem = d.ccMem := by
  unfold cutTo
  simp

@[simp] theorem mem_startFade (d : Device) (k : Fin 4) (x : Nat) (s : Nat) (prof : Nat) :
    (startFade d k x s prof).delay = d.delay ∧ (startFade d k x s prof).ccMem = d.ccMem := by
  unfold startFade
  simp

@[simp] theorem mem_applyChange (d : Device) (k : Fin 4) (c : RtChange) :
    (applyChange d k c).delay = d.delay ∧ (applyChange d k c).ccMem = d.ccMem := by
  unfold applyChange
  simp

@[simp] theorem mem_stepFade (d : Device) (k : Fin 4) (x : Nat) :
    (stepFade d k x).delay = d.delay ∧ (stepFade d k x).ccMem = d.ccMem := by
  unfold stepFade
  dsimp only
  (repeat' split) <;> simp

@[simp] theorem mem_stepFades (d : Device) (k : Fin 4) :
    (stepFades d k).delay = d.delay ∧ (stepFades d k).ccMem = d.ccMem := by
  unfold stepFades
  simp

@[simp] theorem mem_routeApply (d : Device) (k : Fin 4) (n : Nat) :
    (routeApply d k n).delay = d.delay ∧ (routeApply d k n).ccMem = d.ccMem := by
  unfold routeApply
  dsimp only
  (repeat' split) <;> simp

@[simp] theorem mem_routeChg (d : Device) (q : Req) (v : Nat) :
    (routeChg d q v).delay = d.delay ∧ (routeChg d q v).ccMem = d.ccMem := by
  unfold routeChg
  dsimp only
  (repeat' split) <;> simp

@[simp] theorem mem_routeArm (d : Device) (k : Fin 4) :
    (routeArm d k).delay = d.delay ∧ (routeArm d k).ccMem = d.ccMem := by
  unfold routeArm
  simp

@[simp] theorem mem_routeCtlTaken (d : Device) (v : Nat) :
    (routeCtlTaken d v).delay = d.delay ∧ (routeCtlTaken d v).ccMem = d.ccMem := by
  unfold routeCtlTaken
  simp

@[simp] theorem mem_routeCtl (d : Device) (q : Req) (v : Nat) :
    (routeCtl d q v).delay = d.delay ∧ (routeCtl d q v).ccMem = d.ccMem := by
  unfold routeCtl
  simp

@[simp] theorem mem_bypIndexNext (d : Device) :
    (bypIndexNext d).delay = d.delay ∧ (bypIndexNext d).ccMem = d.ccMem := by
  unfold bypIndexNext
  simp

@[simp] theorem mem_bypWrite (d : Device) (q : Req) (v : Nat) :
    (bypWrite d q v).delay = d.delay ∧ (bypWrite d q v).ccMem = d.ccMem := by
  unfold bypWrite
  simp

@[simp] theorem mem_putGen (d : Device) (k : Fin 4) (g : Nat) (v : TWord) :
    (putGen d k g v).delay = d.delay ∧ (putGen d k g v).ccMem = d.ccMem := by
  unfold putGen
  simp

@[simp] theorem mem_sineStep (d : Device) (k : Fin 4) (g : Nat) :
    (sineStep d k g).delay = d.delay ∧ (sineStep d k g).ccMem = d.ccMem := by
  unfold sineStep
  simp

@[simp] theorem mem_noiseStep (d : Device) (k : Fin 4) (g : Nat) :
    (noiseStep d k g).delay = d.delay ∧ (noiseStep d k g).ccMem = d.ccMem := by
  unfold noiseStep
  simp

@[simp] theorem mem_stepGenerators (d : Device) (k : Fin 4) :
    (stepGenerators d k).delay = d.delay ∧ (stepGenerators d k).ccMem = d.ccMem := by
  unfold stepGenerators
  simp

@[simp] theorem mem_sineWrite (d : Device) (g : Nat) (v : Nat) :
    (sineWrite d g v).delay = d.delay ∧ (sineWrite d g v).ccMem = d.ccMem := by
  unfold sineWrite
  simp

@[simp] theorem mem_noiseWrite (d : Device) (g : Nat) (v : Nat) :
    (noiseWrite d g v).delay = d.delay ∧ (noiseWrite d g v).ccMem = d.ccMem := by
  unfold noiseWrite
  simp

@[simp] theorem mem_meterTap (d : Device) (k : Fin 4) (p : Nat) (t : Nat) :
    (meterTap d k p t).delay = d.delay ∧ (meterTap d k p t).ccMem = d.ccMem := by
  unfold meterTap
  simp

@[simp] theorem mem_meterBlock (d : Device) (k : Fin 4) (p : Nat) (b : Nat) :
    (meterBlock d k p b).delay = d.delay ∧ (meterBlock d k p b).ccMem = d.ccMem := by
  unfold meterBlock
  simp

@[simp] theorem mem_setMix (d : Device) (m : Fin 16) (x : MixUnit) :
    (setMix d m x).delay = d.delay ∧ (setMix d m x).ccMem = d.ccMem := by
  unfold setMix
  simp

@[simp] theorem mem_xpCommand (d : Device) (q : Req) (addr : Nat) (m : Fin 16) (v : Nat) :
    (xpCommand d q addr m v).delay = d.delay ∧ (xpCommand d q addr m v).ccMem = d.ccMem := by
  unfold xpCommand
  simp

@[simp] theorem mem_mixArm (d : Device) (m : Fin 16) :
    (mixArm d m).delay = d.delay ∧ (mixArm d m).ccMem = d.ccMem := by
  unfold mixArm
  simp

@[simp] theorem mem_mixCtlTaken (d : Device) (m : Fin 16) (v : Nat) :
    (mixCtlTaken d m v).delay = d.delay ∧ (mixCtlTaken d m v).ccMem = d.ccMem := by
  unfold mixCtlTaken
  simp

@[simp] theorem mem_mixCtl (d : Device) (q : Req) (m : Fin 16) (v : Nat) :
    (mixCtl d q m v).delay = d.delay ∧ (mixCtl d q m v).ccMem = d.ccMem := by
  unfold mixCtl
  simp

@[simp] theorem mem_startRamp (d : Device) (m : Fin 16) (c : XpCmd) :
    (startRamp d m c).delay = d.delay ∧ (startRamp d m c).ccMem = d.ccMem := by
  unfold startRamp
  simp

@[simp] theorem mem_mixApply (d : Device) (m : Fin 16) (n : Nat) :
    (mixApply d m n).delay = d.delay ∧ (mixApply d m n).ccMem = d.ccMem := by
  unfold mixApply
  dsimp only
  (repeat' split) <;> simp

@[simp] theorem mem_mixOutput (d : Device) (m : Fin 16) (ins : List TWord) (o : Nat) :
    (mixOutput d m ins o).1.delay = d.delay ∧ (mixOutput d m ins o).1.ccMem = d.ccMem := by
  unfold mixOutput
  simp

@[simp] theorem mem_mixOutputs (d : Device) (m : Fin 16) (k : Fin 4) (ins : List TWord) (o n c : Nat) :
    (mixOutputs d m k ins o n c).1.delay = d.delay ∧ (mixOutputs d m k ins o n c).1.ccMem = d.ccMem := by
  induction n generalizing d o c with
  | zero => exact ⟨rfl, rfl⟩
  | succ n ih =>
    unfold mixOutputs
    rw [(ih _ _ _).1, (ih _ _ _).2, (mem_putEntry _ _ _).1, (mem_putEntry _ _ _).2]
    exact mem_mixOutput d m ins o

@[simp] theorem mem_mixStopped (d : Device) (m : Fin 16) (k : Fin 4) :
    (mixStopped d m k).delay = d.delay ∧ (mixStopped d m k).ccMem = d.ccMem := by
  unfold mixStopped
  simp

@[simp] theorem mem_mixUnused (d : Device) (m : Fin 16) :
    (mixUnused d m).delay = d.delay ∧ (mixUnused d m).ccMem = d.ccMem := by
  unfold mixUnused
  simp

@[simp] theorem mem_mixResolve (d : Device) (k : Fin 4) (m : Fin 16) :
    (mixResolve d k m).delay = d.delay ∧ (mixResolve d k m).ccMem = d.ccMem := by
  unfold mixResolve
  (repeat' split) <;> simp

@[simp] theorem mem_asrcPush (d : Device) (u : Nat) (c : Nat) (t : TWord) :
    (asrcPush d u c t).delay = d.delay ∧ (asrcPush d u c t).ccMem = d.ccMem := by
  unfold asrcPush
  simp

@[simp] theorem mem_asrcOut (d : Device) (u c : Nat) :
    (asrcOut d u c).1.delay = d.delay ∧ (asrcOut d u c).1.ccMem = d.ccMem := by
  unfold asrcOut
  split
  · simp
  · exact mem_fresh d

@[simp] theorem mem_asrcOutputs (d : Device) (k : Fin 4) (u : Nat) :
    (asrcOutputs d k u).delay = d.delay ∧ (asrcOutputs d k u).ccMem = d.ccMem := by
  unfold asrcOutputs
  simp

@[simp] theorem mem_asrcInputs (d : Device) (k : Fin 4) (u : Nat) :
    (asrcInputs d k u).delay = d.delay ∧ (asrcInputs d k u).ccMem = d.ccMem := by
  unfold asrcInputs
  (repeat' split) <;> simp

@[simp] theorem mem_asrcLock (d : Device) (u : Fin 8) (ratio : Word) :
    (asrcLock d u ratio).delay = d.delay ∧ (asrcLock d u ratio).ccMem = d.ccMem := by
  unfold asrcLock
  simp

@[simp] theorem mem_asrcUnlock (d : Device) (u : Fin 8) (why : Unlock) (ratio : Word) :
    (asrcUnlock d u why ratio).delay = d.delay ∧ (asrcUnlock d u why ratio).ccMem = d.ccMem := by
  unfold asrcUnlock
  simp

@[simp] theorem mem_setLk (d : Device) (n : Fin 8) (x : LinkX) :
    (setLk d n x).delay = d.delay ∧ (setLk d n x).ccMem = d.ccMem := by
  unfold setLk
  simp

@[simp] theorem mem_setAdj (d : Device) (n : Fin 8) (x : Adj) :
    (setAdj d n x).delay = d.delay ∧ (setAdj d n x).ccMem = d.ccMem := by
  unfold setAdj
  simp

@[simp] theorem mem_cellBad (d : Device) :
    (cellBad d).delay = d.delay ∧ (cellBad d).ccMem = d.ccMem := by
  unfold cellBad
  simp

@[simp] theorem mem_enqueue (d : Device) (n : Fin 8) (c : LyCell) :
    (enqueue d n c).delay = d.delay ∧ (enqueue d n c).ccMem = d.ccMem := by
  unfold enqueue
  simp

@[simp] theorem mem_sendCell (d : Device) (n : Fin 8) (c : LyCell) :
    (sendCell d n c).delay = d.delay ∧ (sendCell d n c).ccMem = d.ccMem := by
  unfold sendCell
  simp

@[simp] theorem mem_floodCell (d : Device) (from_ : Option (Fin 8)) (c : LyCell) :
    (floodCell d from_ c).delay = d.delay ∧ (floodCell d from_ c).ccMem = d.ccMem := by
  unfold floodCell
  simp

@[simp] theorem mem_noteSeen (d : Device) (c : LyCell) :
    (noteSeen d c).delay = d.delay ∧ (noteSeen d c).ccMem = d.ccMem := by
  unfold noteSeen
  simp

@[simp] theorem mem_originate (d : Device) (ctype : Nat) (dst : Nat) (pay : List Nat) :
    (originate d ctype dst pay).delay = d.delay ∧ (originate d ctype dst pay).ccMem = d.ccMem := by
  unfold originate
  simp

@[simp] theorem mem_routeCell (d : Device) (c : LyCell) :
    (routeCell d c).delay = d.delay ∧ (routeCell d c).ccMem = d.ccMem := by
  unfold routeCell
  (repeat' split) <;> simp

@[simp] theorem mem_dbTouch (d : Device) :
    (dbTouch d).delay = d.delay ∧ (dbTouch d).ccMem = d.ccMem := by
  unfold dbTouch
  simp

@[simp] theorem mem_mapPut (d : Device) (n : Fin 8) (k : Nat) (v : Nat) :
    (mapPut d n k v).delay = d.delay ∧ (mapPut d n k v).ccMem = d.ccMem := by
  unfold mapPut
  simp

@[simp] theorem mem_mapRun (d : Device) (n : Fin 8) (k : Nat) (count : Nat) (f : Nat → Nat) :
    (mapRun d n k count f).delay = d.delay ∧ (mapRun d n k count f).ccMem = d.ccMem := by
  unfold mapRun
  simp

@[simp] theorem mem_putRun (d : Device) (r : Nat) (x : OwnRun) :
    (putRun d r x).delay = d.delay ∧ (putRun d r x).ccMem = d.ccMem := by
  unfold putRun
  simp

@[simp] theorem mem_releaseOwn (d : Device) (x : OwnRun) :
    (releaseOwn d x).delay = d.delay ∧ (releaseOwn d x).ccMem = d.ccMem := by
  unfold releaseOwn
  simp

@[simp] theorem mem_runFail (d : Device) (r : Nat) (reason : Nat) (hop : Nat) :
    (runFail d r reason hop).delay = d.delay ∧ (runFail d r reason hop).ccMem = d.ccMem := by
  unfold runFail
  simp

@[simp] theorem mem_sendTear (d : Device) (r : Nat) (reason : Nat) :
    (sendTear d r reason).delay = d.delay ∧ (sendTear d r reason).ccMem = d.ccMem := by
  unfold sendTear
  simp

@[simp] theorem mem_releaseRec (d : Device) (r : RunRec) :
    (releaseRec d r).delay = d.delay ∧ (releaseRec d r).ccMem = d.ccMem := by
  unfold releaseRec
  dsimp only
  (repeat' split) <;> simp

@[simp] theorem mem_releaseRecs (d : Device) (p : RunRec → Bool) :
    (releaseRecs d p).delay = d.delay ∧ (releaseRecs d p).ccMem = d.ccMem := by
  unfold releaseRecs
  simp

@[simp] theorem mem_recNak (d : Device) (r : RunRec) (reason : Nat) :
    (recNak d r reason).delay = d.delay ∧ (recNak d r reason).ccMem = d.ccMem := by
  unfold recNak
  simp

@[simp] theorem mem_recTear (d : Device) (r : RunRec) (reason : Nat) :
    (recTear d r reason).delay = d.delay ∧ (recTear d r reason).ccMem = d.ccMem := by
  unfold recTear
  (repeat' split) <;> simp

@[simp] theorem mem_failRuns (d : Device) (p : OwnRun → Bool) (reason : Nat) (tear : Bool) :
    (failRuns d p reason tear).delay = d.delay ∧ (failRuns d p reason tear).ccMem = d.ccMem := by
  unfold failRuns
  simp

@[simp] theorem mem_runsOnDrop (d : Device) (n : Fin 8) :
    (runsOnDrop d n).delay = d.delay ∧ (runsOnDrop d n).ccMem = d.ccMem := by
  unfold runsOnDrop
  simp

@[simp] theorem mem_nodeGone (d : Device) (addr : Nat) (epoch : Nat) :
    (nodeGone d addr epoch).delay = d.delay ∧ (nodeGone d addr epoch).ccMem = d.ccMem := by
  unfold nodeGone
  simp

@[simp] theorem mem_setTup (d : Device) (t : Option Nat) :
    (setTup d t).delay = d.delay ∧ (setTup d t).ccMem = d.ccMem := by
  unfold setTup
  simp

@[simp] theorem mem_tupCheck (d : Device) :
    (tupCheck d).delay = d.delay ∧ (tupCheck d).ccMem = d.ccMem := by
  unfold tupCheck
  (repeat' split) <;> simp

@[simp] theorem mem_followRef (d : Device) :
    (followRef d).delay = d.delay ∧ (followRef d).ccMem = d.ccMem := by
  unfold followRef
  simp

@[simp] theorem mem_fabChannels (d : Device) :
    (fabChannels d).delay = d.delay ∧ (fabChannels d).ccMem = d.ccMem := by
  unfold fabChannels
  simp

@[simp] theorem mem_markLost (d : Device) :
    (markLost d).delay = d.delay ∧ (markLost d).ccMem = d.ccMem := by
  unfold markLost
  simp

@[simp] theorem mem_flood0 (d : Device) :
    (flood0 d).delay = d.delay ∧ (flood0 d).ccMem = d.ccMem := by
  unfold flood0
  simp

@[simp] theorem mem_fabStatus (d : Device) :
    (fabStatus d).delay = d.delay ∧ (fabStatus d).ccMem = d.ccMem := by
  unfold fabStatus
  simp

@[simp] theorem mem_fabRefresh (d : Device) :
    (fabRefresh d).delay = d.delay ∧ (fabRefresh d).ccMem = d.ccMem := by
  unfold fabRefresh
  simp

@[simp] theorem mem_noteAlone (d : Device) :
    (noteAlone d).delay = d.delay ∧ (noteAlone d).ccMem = d.ccMem := by
  unfold noteAlone
  simp

@[simp] theorem mem_adjDrop (d : Device) (n : Fin 8) :
    (adjDrop d n).delay = d.delay ∧ (adjDrop d n).ccMem = d.ccMem := by
  unfold adjDrop
  simp

@[simp] theorem mem_joinAt (d : Device) (epoch : Nat) :
    (joinAt d epoch).delay = d.delay ∧ (joinAt d epoch).ccMem = d.ccMem := by
  unfold joinAt
  simp

@[simp] theorem mem_join (d : Device) :
    (join d).delay = d.delay ∧ (join d).ccMem = d.ccMem := by
  unfold join
  simp

@[simp] theorem mem_sendHello (d : Device) (n : Fin 8) :
    (sendHello d n).delay = d.delay ∧ (sendHello d n).ccMem = d.ccMem := by
  unfold sendHello
  simp

@[simp] theorem mem_tombEnd (d : Device) (uid : Nat) :
    (tombEnd d uid).delay = d.delay ∧ (tombEnd d uid).ccMem = d.ccMem := by
  unfold tombEnd
  simp

@[simp] theorem mem_adjForm (d : Device) (n : Fin 8) (epoch : Nat) :
    (adjForm d n epoch).delay = d.delay ∧ (adjForm d n epoch).ccMem = d.ccMem := by
  unfold adjForm
  simp

@[simp] theorem mem_helloAct (d : Device) (n : Fin 8) (c : LyCell) :
    (helloAct d n c).delay = d.delay ∧ (helloAct d n c).ccMem = d.ccMem := by
  unfold helloAct
  dsimp only
  (repeat' split) <;> simp

@[simp] theorem mem_dbPut (d : Device) (x : DbNode) :
    (dbPut d x).delay = d.delay ∧ (dbPut d x).ccMem = d.ccMem := by
  unfold dbPut
  simp

@[simp] theorem mem_lsaAct (d : Device) (c : LyCell) :
    (lsaAct d c).delay = d.delay ∧ (lsaAct d c).ccMem = d.ccMem := by
  unfold lsaAct
  refine mem_ite ⟨rfl, rfl⟩ ?_
  split
  · exact mem_dbPut _ _
  · refine mem_ite (mem_dbPut _ _) (mem_ite ?_ ⟨rfl, rfl⟩)
    rw [(mem_dbPut _ _).1, (mem_dbPut _ _).2]
    exact mem_nodeGone _ _ _

@[simp] theorem mem_passTomb (d : Device) (c : LyCell) (f : Device → Device)
    (h : ∀ d, (f d).delay = d.delay ∧ (f d).ccMem = d.ccMem) :
    (passTomb d c f).delay = d.delay ∧ (passTomb d c f).ccMem = d.ccMem := by
  unfold passTomb
  dsimp only
  (repeat' split) <;> simp [h]

@[simp] theorem mem_setAddr (d : Device) (a : Nat) :
    (setAddr d a).delay = d.delay ∧ (setAddr d a).ccMem = d.ccMem := by
  unfold setAddr
  simp

@[simp] theorem mem_setCapt (d : Device) (c : Option (Nat × Nat)) :
    (setCapt d c).delay = d.delay ∧ (setCapt d c).ccMem = d.ccMem := by
  unfold setCapt
  simp

@[simp] theorem mem_sendGrants (gen : Nat) (l : List (Nat × Nat)) (d : Device) :
    (sendGrants gen l d).delay = d.delay ∧ (sendGrants gen l d).ccMem = d.ccMem := by
  fun_induction sendGrants gen l d <;> simp_all

@[simp] theorem mem_becomeCapt (d : Device) :
    (becomeCapt d).delay = d.delay ∧ (becomeCapt d).ccMem = d.ccMem := by
  unfold becomeCapt
  simp

@[simp] theorem mem_endOfQuiet (d : Device) :
    (endOfQuiet d).delay = d.delay ∧ (endOfQuiet d).ccMem = d.ccMem := by
  unfold endOfQuiet
  simp

@[simp] theorem mem_captainAct (d : Device) (c : LyCell) :
    (captainAct d c).delay = d.delay ∧ (captainAct d c).ccMem = d.ccMem := by
  unfold captainAct
  simp

@[simp] theorem mem_grantMine (d : Device) (gen : Nat) :
    (grantMine d gen).delay = d.delay ∧ (grantMine d gen).ccMem = d.ccMem := by
  unfold grantMine
  simp

@[simp] theorem mem_grantTake (d : Device) (gen : Nat) (a : Option Nat) :
    (grantTake d gen a).delay = d.delay ∧ (grantTake d gen a).ccMem = d.ccMem := by
  unfold grantTake
  split <;> simp

@[simp] theorem mem_grantAct (d : Device) (c : LyCell) :
    (grantAct d c).delay = d.delay ∧ (grantAct d c).ccMem = d.ccMem := by
  unfold grantAct
  simp only [ite_delay, ite_ccMem, mem_grantTake, mem_setF, ite_self, and_self]

@[simp] theorem mem_grantDeadline (d : Device) :
    (grantDeadline d).delay = d.delay ∧ (grantDeadline d).ccMem = d.ccMem := by
  unfold grantDeadline
  dsimp only
  (repeat' split) <;> simp

@[simp] theorem mem_nakReq (d : Device) (n : Fin 8) (c : LyCell) (reason : Nat) :
    (nakReq d n c reason).delay = d.delay ∧ (nakReq d n c reason).ccMem = d.ccMem := by
  unfold nakReq
  simp

@[simp] theorem mem_reqTransit (d : Device) (n : Fin 8) (c : LyCell) :
    (reqTransit d n c).delay = d.delay ∧ (reqTransit d n c).ccMem = d.ccMem := by
  unfold reqTransit
  dsimp only
  (repeat' split) <;> simp

@[simp] theorem mem_reqArrive (d : Device) (n : Fin 8) (c : LyCell) :
    (reqArrive d n c).delay = d.delay ∧ (reqArrive d n c).ccMem = d.ccMem := by
  unfold reqArrive
  simp

@[simp] theorem mem_runReqAct (d : Device) (n : Fin 8) (c : LyCell) :
    (runReqAct d n c).delay = d.delay ∧ (runReqAct d n c).ccMem = d.ccMem := by
  unfold runReqAct
  simp

@[simp] theorem mem_runAckAct (d : Device) (n : Fin 8) (c : LyCell) :
    (runAckAct d n c).delay = d.delay ∧ (runAckAct d n c).ccMem = d.ccMem := by
  unfold runAckAct
  dsimp only
  (repeat' split) <;> simp

@[simp] theorem mem_runNakAct (d : Device) (n : Fin 8) (c : LyCell) :
    (runNakAct d n c).delay = d.delay ∧ (runNakAct d n c).ccMem = d.ccMem := by
  unfold runNakAct
  dsimp only
  (repeat' split) <;> simp

@[simp] theorem mem_runTearAct (d : Device) (n : Fin 8) (c : LyCell) :
    (runTearAct d n c).delay = d.delay ∧ (runTearAct d n c).ccMem = d.ccMem := by
  unfold runTearAct
  dsimp only
  (repeat' split) <;> simp

@[simp] theorem mem_userPush (d : Device) (c : LyCell) :
    (userPush d c).delay = d.delay ∧ (userPush d c).ccMem = d.ccMem := by
  unfold userPush
  simp

@[simp] theorem mem_userAct (d : Device) (n : Fin 8) (c : LyCell) :
    (userAct d n c).delay = d.delay ∧ (userAct d n c).ccMem = d.ccMem := by
  unfold userAct
  simp

@[simp] theorem mem_userTake (d : Device) (q : Fin 256) :
    (userTake d q).delay = d.delay ∧ (userTake d q).ccMem = d.ccMem := by
  unfold userTake
  simp

@[simp] theorem mem_userSend (d : Device) (n : Nat) :
    (userSend d n).delay = d.delay ∧ (userSend d n).ccMem = d.ccMem := by
  induction n generalizing d with
  | zero => simp [userSend]
  | succ n ih =>
    unfold userSend
    dsimp only
    split <;> simp [ih]

@[simp] theorem mem_takeCell (d : Device) (n : Fin 8) (t : Nat) (f : Device → LyCell → Device)
    (h : ∀ d c, (f d c).delay = d.delay ∧ (f d c).ccMem = d.ccMem) :
    (takeCell d n t f).delay = d.delay ∧ (takeCell d n t f).ccMem = d.ccMem := by
  unfold takeCell
  dsimp only
  (repeat' split) <;> simp [h]

@[simp] theorem mem_helloCell (d : Device) (n : Fin 8) :
    (helloCell d n).delay = d.delay ∧ (helloCell d n).ccMem = d.ccMem := by
  unfold helloCell
  simp

@[simp] theorem mem_floodAct (d : Device) (n : Fin 8) (c : LyCell) (f : Device → Device)
    (h : ∀ d, (f d).delay = d.delay ∧ (f d).ccMem = d.ccMem) :
    (floodAct d n c f).delay = d.delay ∧ (floodAct d n c f).ccMem = d.ccMem := by
  unfold floodAct
  simp [h]

theorem mem_flooded (g : Device → LyCell → Device) (h : ∀ d c, (g d c).delay = d.delay ∧ (g d c).ccMem = d.ccMem)
    (d : Device) (n : Fin 8) (t : Nat) :
    (takeCell d n t (fun d c => floodAct d n c (fun d => g d c))).delay = d.delay ∧
      (takeCell d n t (fun d c => floodAct d n c (fun d => g d c))).ccMem = d.ccMem := by
  simp [h]

@[simp] theorem mem_lsaCell (d : Device) (n : Fin 8) :
    (lsaCell d n).delay = d.delay ∧ (lsaCell d n).ccMem = d.ccMem := mem_flooded lsaAct mem_lsaAct d n 2

@[simp] theorem mem_captainCell (d : Device) (n : Fin 8) :
    (captainCell d n).delay = d.delay ∧ (captainCell d n).ccMem = d.ccMem := by
  unfold captainCell
  simp

@[simp] theorem mem_grantCell (d : Device) (n : Fin 8) :
    (grantCell d n).delay = d.delay ∧ (grantCell d n).ccMem = d.ccMem := by
  unfold grantCell
  simp

@[simp] theorem mem_runReqCell (d : Device) (n : Fin 8) :
    (runReqCell d n).delay = d.delay ∧ (runReqCell d n).ccMem = d.ccMem := by
  unfold runReqCell
  simp

@[simp] theorem mem_noteAlive (d : Device) (c : LyCell) :
    (noteAlive d c).delay = d.delay ∧ (noteAlive d c).ccMem = d.ccMem := by
  unfold noteAlive
  (repeat' split) <;> simp

@[simp] theorem mem_runAckCell (d : Device) (n : Fin 8) :
    (runAckCell d n).delay = d.delay ∧ (runAckCell d n).ccMem = d.ccMem := by
  unfold runAckCell
  simp

@[simp] theorem mem_runNakCell (d : Device) (n : Fin 8) :
    (runNakCell d n).delay = d.delay ∧ (runNakCell d n).ccMem = d.ccMem := by
  unfold runNakCell
  simp

@[simp] theorem mem_runTearCell (d : Device) (n : Fin 8) :
    (runTearCell d n).delay = d.delay ∧ (runTearCell d n).ccMem = d.ccMem := by
  unfold runTearCell
  simp

@[simp] theorem mem_userCell (d : Device) (n : Fin 8) :
    (userCell d n).delay = d.delay ∧ (userCell d n).ccMem = d.ccMem := by
  unfold userCell
  simp

@[simp] theorem mem_fabTick (d : Device) :
    (fabTick d).delay = d.delay ∧ (fabTick d).ccMem = d.ccMem := by
  unfold fabTick
  simp

@[simp] theorem mem_fabRejoin (d : Device) :
    (fabRejoin d).delay = d.delay ∧ (fabRejoin d).ccMem = d.ccMem := by
  unfold fabRejoin
  simp

@[simp] theorem mem_isolatedRejoin (d : Device) :
    (isolatedRejoin d).delay = d.delay ∧ (isolatedRejoin d).ccMem = d.ccMem := by
  unfold isolatedRejoin
  simp

@[simp] theorem mem_adjacencyDead (d : Device) (n : Fin 8) :
    (adjacencyDead d n).delay = d.delay ∧ (adjacencyDead d n).ccMem = d.ccMem := by
  unfold adjacencyDead
  simp

@[simp] theorem mem_helloKeepalive (d : Device) (n : Fin 8) :
    (helloKeepalive d n).delay = d.delay ∧ (helloKeepalive d n).ccMem = d.ccMem := by
  unfold helloKeepalive
  simp

@[simp] theorem mem_tombCreate (d : Device) (uid : Nat) :
    (tombCreate d uid).delay = d.delay ∧ (tombCreate d uid).ccMem = d.ccMem := by
  unfold tombCreate
  dsimp only
  (repeat' split) <;> simp

@[simp] theorem mem_tombExpire (d : Device) (uid : Nat) :
    (tombExpire d uid).delay = d.delay ∧ (tombExpire d uid).ccMem = d.ccMem := by
  unfold tombExpire
  (repeat' split) <;> simp

@[simp] theorem mem_lsaReflood (d : Device) :
    (lsaReflood d).delay = d.delay ∧ (lsaReflood d).ccMem = d.ccMem := by
  unfold lsaReflood
  simp

@[simp] theorem mem_fabGateOpen (d : Device) :
    (fabGateOpen d).delay = d.delay ∧ (fabGateOpen d).ccMem = d.ccMem := by
  unfold fabGateOpen
  simp

@[simp] theorem mem_runStart (d : Device) (r : Nat) (dst : Nat) (ochan : Nat) (dchan : Nat) (count : Nat) :
    (runStart d r dst ochan dchan count).delay = d.delay ∧ (runStart d r dst ochan dchan count).ccMem = d.ccMem := by
  unfold runStart
  dsimp only
  (repeat' split) <;> simp

@[simp] theorem mem_runCommand (d : Device) (q : Req) (addr : Nat) (v : Nat) :
    (runCommand d q addr v).delay = d.delay ∧ (runCommand d q addr v).ccMem = d.ccMem := by
  unfold runCommand
  dsimp only
  (repeat' split) <;> simp

@[simp] theorem mem_runTimeout (d : Device) (r : Nat) :
    (runTimeout d r).delay = d.delay ∧ (runTimeout d r).ccMem = d.ccMem := by
  unfold runTimeout
  simp

@[simp] theorem mem_setLinkState (d : Device) (n : Fin 8) (st : Nat) :
    (setLinkState d n st).delay = d.delay ∧ (setLinkState d n st).ccMem = d.ccMem := by
  unfold setLinkState
  simp

@[simp] theorem mem_linkStart (d : Device) (n : Fin 8) :
    (linkStart d n).delay = d.delay ∧ (linkStart d n).ccMem = d.ccMem := by
  unfold linkStart
  simp

@[simp] theorem mem_linkSync (d : Device) (n : Fin 8) :
    (linkSync d n).delay = d.delay ∧ (linkSync d n).ccMem = d.ccMem := by
  unfold linkSync
  simp

@[simp] theorem mem_delayCheck (d : Device) (n : Fin 8) :
    (delayCheck d n).delay = d.delay ∧ (delayCheck d n).ccMem = d.ccMem := by
  unfold delayCheck
  simp

@[simp] theorem mem_linkResume (d : Device) (n : Fin 8) :
    (linkResume d n).delay = d.delay ∧ (linkResume d n).ccMem = d.ccMem := by
  unfold linkResume
  simp

@[simp] theorem mem_linkSignal (d : Device) (n : Fin 8) :
    (linkSignal d n).delay = d.delay ∧ (linkSignal d n).ccMem = d.ccMem := by
  unfold linkSignal
  simp

@[simp] theorem mem_linkCdr (d : Device) (n : Fin 8) :
    (linkCdr d n).delay = d.delay ∧ (linkCdr d n).ccMem = d.ccMem := by
  unfold linkCdr
  simp

@[simp] theorem mem_linkBlock (d : Device) (n : Fin 8) :
    (linkBlock d n).delay = d.delay ∧ (linkBlock d n).ccMem = d.ccMem := by
  unfold linkBlock
  simp

@[simp] theorem mem_linkCompare (d : Device) (n : Fin 8) (rates : Nat) (ngrp : Nat) :
    (linkCompare d n rates ngrp).delay = d.delay ∧ (linkCompare d n rates ngrp).ccMem = d.ccMem := by
  unfold linkCompare
  dsimp only
  (repeat' split) <;> simp

@[simp] theorem mem_linkConfirm (d : Device) (n : Fin 8) :
    (linkConfirm d n).delay = d.delay ∧ (linkConfirm d n).ccMem = d.ccMem := by
  unfold linkConfirm
  simp

@[simp] theorem mem_frameCut (d : Device) (n : Fin 8) :
    (frameCut d n).delay = d.delay ∧ (frameCut d n).ccMem = d.ccMem := by
  unfold frameCut
  (repeat' split) <;> simp

@[simp] theorem mem_blockError (d : Device) (n : Fin 8) :
    (blockError d n).delay = d.delay ∧ (blockError d n).ccMem = d.ccMem := by
  unfold blockError
  simp

@[simp] theorem mem_linkSet (d : Device) (n : Fin 8) (d1 : Nat) (d2 : Nat) (d3 : Nat) :
    (linkSet d n d1 d2 d3).delay = d.delay ∧ (linkSet d n d1 d2 d3).ccMem = d.ccMem := by
  unfold linkSet
  dsimp only
  (repeat' split) <;> simp

@[simp] theorem mem_linkTs2 (d : Device) (n : Fin 8) :
    (linkTs2 d n).delay = d.delay ∧ (linkTs2 d n).ccMem = d.ccMem := by
  unfold linkTs2
  simp

@[simp] theorem mem_linkRated (d : Device) (n : Fin 8) :
    (linkRated d n).delay = d.delay ∧ (linkRated d n).ccMem = d.ccMem := by
  unfold linkRated
  simp

@[simp] theorem mem_linkFallback (d : Device) (n : Fin 8) :
    (linkFallback d n).delay = d.delay ∧ (linkFallback d n).ccMem = d.ccMem := by
  unfold linkFallback
  simp

@[simp] theorem mem_linkTimeout (d : Device) (n : Fin 8) :
    (linkTimeout d n).delay = d.delay ∧ (linkTimeout d n).ccMem = d.ccMem := by
  unfold linkTimeout
  simp

@[simp] theorem mem_linkHiber (d : Device) (n : Fin 8) (lockLoss : Bool) :
    (linkHiber d n lockLoss).delay = d.delay ∧ (linkHiber d n lockLoss).ccMem = d.ccMem := by
  unfold linkHiber
  simp

@[simp] theorem mem_linkRetrain (d : Device) (n : Fin 8) :
    (linkRetrain d n).delay = d.delay ∧ (linkRetrain d n).ccMem = d.ccMem := by
  unfold linkRetrain
  simp

@[simp] theorem mem_mapAdvance (d : Device) (n : Fin 8) :
    (mapAdvance d n).delay = d.delay ∧ (mapAdvance d n).ccMem = d.ccMem := by
  unfold mapAdvance
  simp

@[simp] theorem mem_mapWrite (d : Device) (n : Fin 8) (v : Nat) :
    (mapWrite d n v).delay = d.delay ∧ (mapWrite d n v).ccMem = d.ccMem := by
  unfold mapWrite
  simp

@[simp] theorem mem_staleFrame (d : Device) :
    (staleFrame d).delay = d.delay ∧ (staleFrame d).ccMem = d.ccMem := by
  unfold staleFrame
  simp

@[simp] theorem mem_putDelayMean (d : Device) (n : Fin 8) (v : Int) :
    (putDelayMean d n v).delay = d.delay ∧ (putDelayMean d n v).ccMem = d.ccMem := by
  unfold putDelayMean
  dsimp only
  (repeat' split) <;> simp

@[simp] theorem mem_delayMeasure (d : Device) (n : Fin 8) (f : LyFrame) :
    (delayMeasure d n f).delay = d.delay ∧ (delayMeasure d n f).ccMem = d.ccMem := by
  unfold delayMeasure
  dsimp only
  (repeat' split) <;> simp

@[simp] theorem mem_linkTime (d : Device) (n : Fin 8) (f : LyFrame) :
    (linkTime d n f).delay = d.delay ∧ (linkTime d n f).ccMem = d.ccMem := by
  unfold linkTime
  simp

@[simp] theorem mem_frameCells (d : Device) (n : Fin 8) (a : Accept) (cs : List LyCell) :
    (frameCells d n a cs).delay = d.delay ∧ (frameCells d n a cs).ccMem = d.ccMem := by
  unfold frameCells
  simp

@[simp] theorem mem_frameAccepted (d : Device) (n : Fin 8) (f : LyFrame) :
    (frameAccepted d n f).delay = d.delay ∧ (frameAccepted d n f).ccMem = d.ccMem := by
  unfold frameAccepted
  simp

@[simp] theorem mem_framePassed (d : Device) (n : Fin 8) (f : LyFrame) :
    (framePassed d n f).delay = d.delay ∧ (framePassed d n f).ccMem = d.ccMem := by
  unfold framePassed
  dsimp only
  (repeat' split) <;> simp

@[simp] theorem mem_frameRx (d : Device) (n : Fin 8) (f : LyFrame) :
    (frameRx d n f).delay = d.delay ∧ (frameRx d n f).ccMem = d.ccMem := by
  unfold frameRx
  simp

@[simp] theorem mem_upBlock (d : Device) (n : Fin 8) (t : Nat) (b : LyBlock) :
    (upBlock d n t b).delay = d.delay ∧ (upBlock d n t b).ccMem = d.ccMem := by
  unfold upBlock
  (repeat' split) <;> simp

@[simp] theorem mem_lyathBlock (d : Device) (n : Fin 8) (t : Nat) (b : Option LyBlock) :
    (lyathBlock d n t b).delay = d.delay ∧ (lyathBlock d n t b).ccMem = d.ccMem := by
  unfold lyathBlock
  (repeat' split) <;> simp

@[simp] theorem mem_lyathRx (d : Device) (n : Fin 8) (bs : List Block66) (t : Nat) :
    (lyathRx d n bs t).delay = d.delay ∧ (lyathRx d n bs t).ccMem = d.ccMem := by
  unfold lyathRx
  constructor
  · exact foldl_delay _ (fun d b => by dsimp only; split <;> simp) bs d
  · exact foldl_ccMem _ (fun d b => by dsimp only; split <;> simp) bs d

@[simp] theorem mem_linkContent (d : Device) (n : Fin 8) (p : Nat) :
    (linkContent d n p).delay = d.delay ∧ (linkContent d n p).ccMem = d.ccMem := by
  unfold linkContent
  dsimp only
  (repeat' split) <;> simp

@[simp] theorem mem_linkMaps (d : Device) (n : Fin 8) :
    (linkMaps d n).delay = d.delay ∧ (linkMaps d n).ccMem = d.ccMem := by
  unfold linkMaps
  simp

@[simp] theorem mem_linkDeliver (r : Device × Sparse (Fin 8 × TWord)) (n : Fin 8) :
    (linkDeliver r n).1.delay = r.1.delay ∧ (linkDeliver r n).1.ccMem = r.1.ccMem := by
  unfold linkDeliver
  constructor
  · apply foldl_fst_delay
    intro r e
    dsimp only
    split <;> simp
  · apply foldl_fst_ccMem
    intro r e
    dsimp only
    split <;> simp

@[simp] theorem mem_fabUnfilled (d : Device) (l : List Nat) :
    (fabUnfilled d l).delay = d.delay ∧ (fabUnfilled d l).ccMem = d.ccMem := by
  unfold fabUnfilled
  simp

@[simp] theorem mem_linkKickoff (d : Device) (k : Fin 4) (p : Nat) :
    (linkKickoff d k p).delay = d.delay ∧ (linkKickoff d k p).ccMem = d.ccMem := by
  unfold linkKickoff
  have h := fun l r => foldl_fst_delay linkDeliver (fun r n => (mem_linkDeliver r n).1) l r
  have g := fun l r => foldl_fst_ccMem linkDeliver (fun r n => (mem_linkDeliver r n).2) l r
  simp [h, g]

@[simp] theorem mem_txSlot (d : Device) (k : Fin 4) (n : Fin 8) (s : Nat) :
    (txSlot d k n s).1.delay = d.delay ∧ (txSlot d k n s).1.ccMem = d.ccMem := by
  unfold txSlot
  dsimp only
  (repeat' split) <;> simp

@[simp] theorem mem_txSlots36 (d : Device) (k : Fin 4) (n : Fin 8) (s m : Nat) :
    (txSlots36 d k n s m).1.delay = d.delay ∧ (txSlots36 d k n s m).1.ccMem = d.ccMem := by
  induction m generalizing d s with
  | zero => simp [txSlots36]
  | succ m ih => simp [txSlots36, ih]

@[simp] theorem mem_linkSend (d : Device) (k : Fin 4) (p : Nat) (n : Fin 8) (txtod : Nat) :
    (linkSend d k p n txtod).delay = d.delay ∧ (linkSend d k p n txtod).ccMem = d.ccMem := by
  unfold linkSend
  (repeat' split) <;> simp

@[simp] theorem mem_linkTransmit (d : Device) (k : Fin 4) (p : Nat) (tods : List Nat) :
    (linkTransmit d k p tods).delay = d.delay ∧ (linkTransmit d k p tods).ccMem = d.ccMem := by
  unfold linkTransmit
  simp

end Sys2Proof.Machine
end

