-- ==== Sys2Proof/Laws/MemUnits.lean ====
section
/-! SUPPORT. What leaves delay memory and the control-core memories as they are: ports, resumption, records, Spin, the Coach and substitution. One lemma per operation. -/

namespace Sys2Proof.Machine

@[simp] theorem mem_slotViolation (d : Device) (n : Fin 68) (port : Nat) (w : Nat) :
    (slotViolation d n port w).delay = d.delay ∧ (slotViolation d n port w).ccMem = d.ccMem := by
  unfold slotViolation
  simp

@[simp] theorem mem_offAccess (d : Device) (w : Nat) :
    (offAccess d w).delay = d.delay ∧ (offAccess d w).ccMem = d.ccMem := by
  unfold offAccess
  simp

@[simp] theorem mem_parityFail (d : Device) (path : Nat) (eng : Nat) (w : Nat) :
    (parityFail d path eng w).delay = d.delay ∧ (parityFail d path eng w).ccMem = d.ccMem := by
  unfold parityFail
  simp

@[simp] theorem mem_hostParity (d : Device) (q : Req) (w : Nat) :
    (hostParity d q w).delay = d.delay ∧ (hostParity d q w).ccMem = d.ccMem := by
  unfold hostParity
  simp

theorem mem_hostDelayBlocked {d e : Device} {q : Req} {w addr : Nat} (h : hostDelayBlocked d q w addr = some e) :
    e.delay = d.delay ∧ e.ccMem = d.ccMem := by
  unfold hostDelayBlocked at h
  split at h
  · cases h
    simp
  · split at h
    · cases h
      simp
    · cases h

@[simp] theorem mem_hostTagRead (d : Device) (q : Req) (w : Nat) :
    (hostTagRead d q w).1.delay = d.delay ∧ (hostTagRead d q w).1.ccMem = d.ccMem := by
  unfold hostTagRead
  simp

@[simp] theorem mem_collision (d : Device) (q : Req) (n : Fin 68) (addr : Nat) :
    (collision d q n addr).delay = d.delay ∧ (collision d q n addr).ccMem = d.ccMem := by
  unfold collision
  simp

@[simp] theorem mem_setBank (d : Device) (b : Fin 128) (s : BankSt) :
    (setBank d b s).delay = d.delay ∧ (setBank d b s).ccMem = d.ccMem := by
  unfold setBank
  simp

@[simp] theorem mem_asResumed (d : Device) (rl : List Nat) :
    (asResumed d rl).delay = d.delay ∧ (asResumed d rl).ccMem = d.ccMem := by
  unfold asResumed
  simp

@[simp] theorem mem_setSap (d : Device) (n : Fin 32) (x : Sap) :
    (setSap d n x).delay = d.delay ∧ (setSap d n x).ccMem = d.ccMem := by
  unfold setSap
  simp

@[simp] theorem mem_putConc (d : Device) (c : Nat) (x : Conc) :
    (putConc d c x).delay = d.delay ∧ (putConc d c x).ccMem = d.ccMem := by
  unfold putConc
  simp

@[simp] theorem mem_sapResume (d : Device) (n : Fin 32) :
    (sapResume d n).delay = d.delay ∧ (sapResume d n).ccMem = d.ccMem := by
  unfold sapResume
  dsimp only
  split <;> simp

@[simp] theorem mem_slips (d : Device) (n : Fin 32) (f : Fld) (k : Nat) :
    (slips d n f k).delay = d.delay ∧ (slips d n f k).ccMem = d.ccMem := by
  unfold slips
  simp

@[simp] theorem mem_txLatch (d : Device) (k : Fin 4) (n : Fin 32) :
    (txLatch d k n).delay = d.delay ∧ (txLatch d k n).ccMem = d.ccMem := by
  unfold txLatch
  (repeat' split) <;> simp

@[simp] theorem mem_txTake (d : Device) (n : Fin 32) (ready : Nat) :
    (txTake d n ready).1.delay = d.delay ∧ (txTake d n ready).1.ccMem = d.ccMem := by
  unfold txTake
  simp

@[simp] theorem mem_rxCapture (d : Device) (k : Fin 4) (n : Fin 32) :
    (rxCapture d k n).delay = d.delay ∧ (rxCapture d k n).ccMem = d.ccMem := by
  unfold rxCapture
  dsimp only
  (repeat' split) <;> simp

@[simp] theorem mem_muteFrame (d : Device) (n : Fin 32) (bad : Option Tag) :
    (muteFrame d n bad).1.delay = d.delay ∧ (muteFrame d n bad).1.ccMem = d.ccMem := by
  unfold muteFrame
  dsimp only
  (repeat' split) <;> simp

@[simp] theorem mem_sapUnmute (d : Device) (n : Fin 32) :
    (sapUnmute d n).delay = d.delay ∧ (sapUnmute d n).ccMem = d.ccMem := by
  unfold sapUnmute
  simp

@[simp] theorem mem_sendSlot (d : Device) (n : Fin 32) (k : Nat) (x : Int) (forced : Bool) :
    (sendSlot d n k x forced).delay = d.delay ∧ (sendSlot d n k x forced).ccMem = d.ccMem := by
  unfold sendSlot
  simp

@[simp] theorem mem_sendValue (d : Device) (n : Fin 32) (muted : Bool) (k : Nat) (v : TWord) (zero : Bool) :
    (sendValue d n muted k v zero).delay = d.delay ∧ (sendValue d n muted k v zero).ccMem = d.ccMem := by
  unfold sendValue
  simp

@[simp] theorem mem_asrcPortOut (d : Device) (k : Fin 4) (u c : Nat) :
    (asrcPortOut d k u c).1.delay = d.delay ∧ (asrcPortOut d k u c).1.ccMem = d.ccMem := by
  unfold asrcPortOut
  simp

@[simp] theorem mem_asrcSlots (d : Device) (n : Fin 32) (l : List Nat) :
    (asrcSlots d n l).1.delay = d.delay ∧ (asrcSlots d n l).1.ccMem = d.ccMem := by
  induction l generalizing d with
  | nil => simp [asrcSlots]
  | cons k l ih =>
    simp only [asrcSlots, ih]
    split <;> simp

@[simp] theorem mem_slotValues (d : Device) (n : Fin 32) (ready : Nat) :
    (slotValues d n ready).1.delay = d.delay ∧ (slotValues d n ready).1.ccMem = d.ccMem := by
  unfold slotValues
  (repeat' split) <;> simp

@[simp] theorem mem_boundaryStatus (d : Device) (n : Fin 32) (len : Option Nat) (phase : Nat) :
    (boundaryStatus d n len phase).delay = d.delay ∧ (boundaryStatus d n len phase).ccMem = d.ccMem := by
  unfold boundaryStatus
  dsimp only
  (repeat' split) <;> simp

@[simp] theorem mem_fadeInPort (d : Device) (n : Fin 32) :
    (fadeInPort d n).delay = d.delay ∧ (fadeInPort d n).ccMem = d.ccMem := by
  unfold fadeInPort
  simp

@[simp] theorem mem_endFrame (d : Device) (n : Fin 32) (len : Option Nat) (z : Nat) :
    (endFrame d n len z).delay = d.delay ∧ (endFrame d n len z).ccMem = d.ccMem := by
  unfold endFrame
  dsimp only
  (repeat' split) <;> simp

@[simp] theorem mem_startFrame (d : Device) (n : Fin 32) (r : Nat) :
    (startFrame d n r).delay = d.delay ∧ (startFrame d n r).ccMem = d.ccMem := by
  unfold startFrame
  simp

@[simp] theorem mem_padBoundary (d : Device) (n : Fin 32) :
    (padBoundary d n).delay = d.delay ∧ (padBoundary d n).ccMem = d.ccMem := by
  unfold padBoundary
  dsimp only
  (repeat' split) <;> simp

@[simp] theorem mem_sapBoundary (d : Device) (n : Fin 32) (len : Option Nat) (phase ready z : Nat) :
    (sapBoundary d n len phase ready z).delay = d.delay ∧ (sapBoundary d n len phase ready z).ccMem = d.ccMem := by
  unfold sapBoundary
  simp

@[simp] theorem mem_sapRxEnd (d : Device) (n : Fin 32) (len : Nat) (ws : List Word) :
    (sapRxEnd d n len ws).delay = d.delay ∧ (sapRxEnd d n len ws).ccMem = d.ccMem := by
  unfold sapRxEnd
  dsimp only
  split
  · simp
  · split
    · simp
    · constructor
      · apply foldl_delay
        intro d k
        split <;> simp
      · apply foldl_ccMem
        intro d k
        split <;> simp
    · simp

@[simp] theorem mem_sapClockLoss (d : Device) (n : Fin 32) :
    (sapClockLoss d n).delay = d.delay ∧ (sapClockLoss d n).ccMem = d.ccMem := by
  unfold sapClockLoss
  simp

@[simp] theorem mem_routeStop (d : Device) :
    (routeStop d).delay = d.delay ∧ (routeStop d).ccMem = d.ccMem := by
  unfold routeStop
  simp

@[simp] theorem mem_stopUnit (d : Device) (r : Nat) :
    (stopUnit d r).delay = d.delay ∧ (stopUnit d r).ccMem = d.ccMem := by
  unfold stopUnit
  (repeat' split) <;> simp

@[simp] theorem mem_stopRegion (d : Device) (r : Nat) :
    (stopRegion d r).delay = d.delay ∧ (stopRegion d r).ccMem = d.ccMem := by
  unfold stopRegion
  simp

@[simp] theorem mem_incomplete (d : Device) (r : Nat) :
    (incomplete d r).delay = d.delay ∧ (incomplete d r).ccMem = d.ccMem := by
  unfold incomplete
  simp

@[simp] theorem mem_quiesce (d : Device) (r : Nat) :
    (quiesce d r).delay = d.delay ∧ (quiesce d r).ccMem = d.ccMem := by
  unfold quiesce
  simp

@[simp] theorem mem_regionQuiesced (d : Device) (r : Nat) :
    (regionQuiesced d r).delay = d.delay ∧ (regionQuiesced d r).ccMem = d.ccMem := by
  unfold regionQuiesced
  simp

@[simp] theorem mem_fadeRegion (d : Device) (k : Fin 4) (r : Nat) :
    (fadeRegion d k r).delay = d.delay ∧ (fadeRegion d k r).ccMem = d.ccMem := by
  unfold fadeRegion
  simp

@[simp] theorem mem_fadeAll (d : Device) (k : Fin 4) :
    (fadeAll d k).delay = d.delay ∧ (fadeAll d k).ccMem = d.ccMem := by
  unfold fadeAll
  simp

@[simp] theorem mem_regsReset (d : Device) (lo : Nat) (hi : Nat) :
    (regsReset d lo hi).delay = d.delay ∧ (regsReset d lo hi).ccMem = d.ccMem := by
  unfold regsReset
  simp

@[simp] theorem mem_unitReload (d : Device) (r : Nat) :
    (unitReload d r).delay = d.delay ∧ (unitReload d r).ccMem = d.ccMem := by
  unfold unitReload
  dsimp only
  (repeat' split) <;> simp

@[simp] theorem mem_fieldsReset (d : Device) (r : Nat) :
    (fieldsReset d r).delay = d.delay ∧ (fieldsReset d r).ccMem = d.ccMem := by
  unfold fieldsReset
  simp

@[simp] theorem mem_reloadDue (d : Device) (r : Nat) :
    (reloadDue d r).delay = d.delay ∧ (reloadDue d r).ccMem = d.ccMem := by
  unfold reloadDue
  dsimp only
  (repeat' split) <;> simp

@[simp] theorem mem_queRegsReset (d : Device) (q : Nat) :
    (queRegsReset d q).delay = d.delay ∧ (queRegsReset d q).ccMem = d.ccMem := by
  unfold queRegsReset
  simp

@[simp] theorem mem_queResume (d : Device) :
    (queResume d).delay = d.delay ∧ (queResume d).ccMem = d.ccMem := by
  unfold queResume
  generalize List.range 255 = l
  simp

@[simp] theorem mem_clkResume (d : Device) (b : Bool) :
    (clkResume d b).delay = d.delay ∧ (clkResume d b).ccMem = d.ccMem := by
  unfold clkResume
  simp

@[simp] theorem mem_evtResume (d : Device) :
    (evtResume d).delay = d.delay ∧ (evtResume d).ccMem = d.ccMem := by
  unfold evtResume
  simp

@[simp] theorem mem_tiersQuiet (d : Device) (g : Nat) :
    (tiersQuiet d g).delay = d.delay ∧ (tiersQuiet d g).ccMem = d.ccMem := by
  unfold tiersQuiet
  simp

@[simp] theorem mem_resumeUnit (d : Device) (r : Nat) (b : Bool) :
    (resumeUnit d r b).delay = d.delay ∧ (resumeUnit d r b).ccMem = d.ccMem := by
  unfold resumeUnit
  split <;> simp

@[simp] theorem mem_resumeRegion (d : Device) (r : Nat) (k : Fin 4) (n : Nat) (late : Bool) :
    (resumeRegion d r k n late).delay = d.delay ∧ (resumeRegion d r k n late).ccMem = d.ccMem := by
  unfold resumeRegion
  simp

@[simp] theorem mem_emptyRegion (d : Device) (r : Nat) :
    (emptyRegion d r).delay = d.delay ∧ (emptyRegion d r).ccMem = d.ccMem := by
  unfold emptyRegion
  dsimp only
  (repeat' split) <;> simp

@[simp] theorem mem_wrReg (d : Device) (n : Fin 68) (g : GReg) (v : TWord) :
    (wrReg d n g v).delay = d.delay ∧ (wrReg d n g v).ccMem = d.ccMem := by
  unfold wrReg
  simp

@[simp] theorem mem_wrQ (d : Device) (n : Fin 68) (q : Fin 4) (v : QReg) :
    (wrQ d n q v).delay = d.delay ∧ (wrQ d n q v).ccMem = d.ccMem := by
  unfold wrQ
  simp

@[simp] theorem mem_wrPtr (d : Device) (n : Fin 68) (i : Fin 8) (v : Word) :
    (wrPtr d n i v).delay = d.delay ∧ (wrPtr d n i v).ccMem = d.ccMem := by
  unfold wrPtr
  simp

@[simp] theorem mem_queueLoad (d : Device) (n : Fin 68) (g : GReg) (v : TWord) :
    (queueLoad d n g v).delay = d.delay ∧ (queueLoad d n g v).ccMem = d.ccMem := by
  unfold queueLoad
  simp

@[simp] theorem mem_orStat (d : Device) (n : Fin 68) (v : Bool) (sat : Bool) :
    (orStat d n v sat).delay = d.delay ∧ (orStat d n v sat).ccMem = d.ccMem := by
  unfold orStat
  simp

@[simp] theorem mem_tagFault (d : Device) (n : Fin 68) (b : Bool) :
    (tagFault d n b).delay = d.delay ∧ (tagFault d n b).ccMem = d.ccMem := by
  unfold tagFault
  simp

@[simp] theorem mem_addrFault (d : Device) (n : Fin 68) :
    (addrFault d n).delay = d.delay ∧ (addrFault d n).ccMem = d.ccMem := by
  unfold addrFault
  simp

@[simp] theorem mem_parFault (d : Device) (n : Fin 68) :
    (parFault d n).delay = d.delay ∧ (parFault d n).ccMem = d.ccMem := by
  unfold parFault
  simp

@[simp] theorem mem_putResult (d : Device) (n : Fin 68) (g : GReg) (r : Narrowed) (t : Tag × Bool) :
    (putResult d n g r t).delay = d.delay ∧ (putResult d n g r t).ccMem = d.ccMem := by
  unfold putResult
  simp

@[simp] theorem mem_endRally (d : Device) (n : Fin 68) (cut : Bool) (used : Nat) :
    (endRally d n cut used).delay = d.delay ∧ (endRally d n cut used).ccMem = d.ccMem := by
  unfold endRally
  simp

@[simp] theorem mem_wordFault (d : Device) (n : Fin 68) (fpc : Nat) (mark : Engine → Engine) :
    (wordFault d n fpc mark).delay = d.delay ∧ (wordFault d n fpc mark).ccMem = d.ccMem := by
  unfold wordFault
  simp

@[simp] theorem mem_illFault (d : Device) (n : Fin 68) (fpc : Nat) :
    (illFault d n fpc).delay = d.delay ∧ (illFault d n fpc).ccMem = d.ccMem := by
  unfold illFault
  simp

@[simp] theorem mem_rsFault (d : Device) (n : Fin 68) :
    (rsFault d n).delay = d.delay ∧ (rsFault d n).ccMem = d.ccMem := by
  unfold rsFault
  simp

@[simp] theorem mem_fetchWord (d : Device) (n : Fin 68) :
    (fetchWord d n).delay = d.delay ∧ (fetchWord d n).ccMem = d.ccMem := by
  unfold fetchWord
  simp

@[simp] theorem mem_startPair (d : Device) (n : Fin 68) :
    (startPair d n).delay = d.delay ∧ (startPair d n).ccMem = d.ccMem := by
  unfold startPair
  simp

@[simp] theorem mem_endPair (d : Device) (n : Fin 68) :
    (endPair d n).delay = d.delay ∧ (endPair d n).ccMem = d.ccMem := by
  unfold endPair
  simp

@[simp] theorem mem_illWord (d : Device) (n : Fin 68) (fpc : Nat) :
    (illWord d n fpc).delay = d.delay ∧ (illWord d n fpc).ccMem = d.ccMem := by
  unfold illWord
  simp

@[simp] theorem mem_restoreCell (d : Device) (n : Fin 68) (c : Nat × Cell) :
    (restoreCell d n c).delay = d.delay ∧ (restoreCell d n c).ccMem = d.ccMem := by
  unfold restoreCell
  simp

@[simp] theorem mem_undoPair (d : Device) (n : Fin 68) :
    (undoPair d n).delay = d.delay ∧ (undoPair d n).ccMem = d.ccMem := by
  unfold undoPair
  dsimp only
  (repeat' split) <;> simp

@[simp] theorem mem_withWord (i : Issue) (ok rep : Bool) (d : Device) (f : Device → Device)
    (h : ∀ d, (f d).delay = d.delay ∧ (f d).ccMem = d.ccMem) :
    (withWord i ok rep d f).delay = d.delay ∧ (withWord i ok rep d f).ccMem = d.ccMem := by
  unfold withWord
  (repeat' split) <;> simp [h]

@[simp] theorem mem_jump (d : Device) (n : Fin 68) (target : Nat) :
    (jump d n target).delay = d.delay ∧ (jump d n target).ccMem = d.ccMem := by
  unfold jump
  simp

@[simp] theorem mem_fencedDrop (d : Device) (n : Fin 68) :
    (fencedDrop d n).delay = d.delay ∧ (fencedDrop d n).ccMem = d.ccMem := by
  unfold fencedDrop
  simp

@[simp] theorem mem_spinDeliver (d : Device) (u : Fin 16) (f : SpinFly) :
    (spinDeliver d u f).delay = d.delay ∧ (spinDeliver d u f).ccMem = d.ccMem := by
  unfold spinDeliver
  simp

@[simp] theorem mem_spinResult (d : Device) (u : Fin 16) :
    (spinResult d u).delay = d.delay ∧ (spinResult d u).ccMem = d.ccMem := by
  unfold spinResult
  dsimp only
  (repeat' split) <;> simp

@[simp] theorem mem_spinCatchUp (d : Device) (u : Fin 16) (n : Fin 68) :
    (spinCatchUp d u n).delay = d.delay ∧ (spinCatchUp d u n).ccMem = d.ccMem := by
  unfold spinCatchUp
  simp

@[simp] theorem mem_spinIssue (d : Device) (n : Fin 68) (p : Fin 8) (x : TWord) :
    (spinIssue d n p x).delay = d.delay ∧ (spinIssue d n p x).ccMem = d.ccMem := by
  unfold spinIssue
  dsimp only
  (repeat' split) <;> simp

@[simp] theorem mem_spinGet (d : Device) (n : Fin 68) (p : Fin 8) :
    (spinGet d n p).1.delay = d.delay ∧ (spinGet d n p).1.ccMem = d.ccMem := by
  unfold spinGet
  dsimp only
  (repeat' split) <;> simp

@[simp] theorem mem_putEngTable (d : Device) (h : Header) (i : Nat) (v : Word) :
    (putEngTable d h i v).delay = d.delay ∧ (putEngTable d h i v).ccMem = d.ccMem := by
  unfold putEngTable
  constructor
  · apply foldl_delay
    intro d n
    dsimp only
    (repeat' split) <;> simp
  · apply foldl_ccMem
    intro d n
    dsimp only
    (repeat' split) <;> simp

@[simp] theorem mem_setPath (d : Device) (p : Fin 3) (x : LdrPath) :
    (setPath d p x).delay = d.delay ∧ (setPath d p x).ccMem = d.ccMem := by
  unfold setPath
  simp

@[simp] theorem mem_recReject (d : Device) (p : Fin 3) (code : Nat) (r : Nat) (off : Nat) :
    (recReject d p code r off).delay = d.delay ∧ (recReject d p code r off).ccMem = d.ccMem := by
  unfold recReject
  simp

@[simp] theorem mem_countApplied (d : Device) (r : Nat) :
    (countApplied d r).delay = d.delay ∧ (countApplied d r).ccMem = d.ccMem := by
  unfold countApplied
  simp

@[simp] theorem mem_noteApplied (d : Device) (p : Fin 3) (r : Nat) :
    (noteApplied d p r).delay = d.delay ∧ (noteApplied d p r).ccMem = d.ccMem := by
  unfold noteApplied
  simp

@[simp] theorem mem_markTarget (d : Device) (r : Nat) (key : Nat) :
    (markTarget d r key).delay = d.delay ∧ (markTarget d r key).ccMem = d.ccMem := by
  unfold markTarget
  simp

@[simp] theorem mem_bandSpoilt (d : Device) (key : Nat) :
    (bandSpoilt d key).delay = d.delay ∧ (bandSpoilt d key).ccMem = d.ccMem := by
  unfold bandSpoilt
  simp

@[simp] theorem mem_batchBit (d : Device) (p : Fin 3) (b : Bool) :
    (batchBit d p b).delay = d.delay ∧ (batchBit d p b).ccMem = d.ccMem := by
  unfold batchBit
  simp

@[simp] theorem mem_batchClear (d : Device) (p : Fin 3) (passed : Bool) :
    (batchClear d p passed).delay = d.delay ∧ (batchClear d p passed).ccMem = d.ccMem := by
  unfold batchClear
  simp

@[simp] theorem mem_setCommits (d : Device) (k : Fin 4) (l : List Commit) :
    (setCommits d k l).delay = d.delay ∧ (setCommits d k l).ccMem = d.ccMem := by
  unfold setCommits
  simp

@[simp] theorem mem_cancelCommit (d : Device) (c : Commit) :
    (cancelCommit d c).delay = d.delay ∧ (cancelCommit d c).ccMem = d.ccMem := by
  unfold cancelCommit
  simp

@[simp] theorem mem_cancelHeld (d : Device) (p : Fin 3) :
    (cancelHeld d p).delay = d.delay ∧ (cancelHeld d p).ccMem = d.ccMem := by
  unfold cancelHeld
  simp

@[simp] theorem mem_batchFail (d : Device) (p : Fin 3) :
    (batchFail d p).delay = d.delay ∧ (batchFail d p).ccMem = d.ccMem := by
  unfold batchFail
  simp

@[simp] theorem mem_pendRegion (d : Device) (r : Nat) :
    (pendRegion d r).delay = d.delay ∧ (pendRegion d r).ccMem = d.ccMem := by
  unfold pendRegion
  simp

@[simp] theorem mem_applyNow (d : Device) (k : Fin 4) (c : Commit) :
    (applyNow d k c).delay = d.delay ∧ (applyNow d k c).ccMem = d.ccMem := by
  unfold applyNow
  simp

@[simp] theorem mem_acceptCommit (d : Device) (k : Fin 4) (c : Commit) :
    (acceptCommit d k c).delay = d.delay ∧ (acceptCommit d k c).ccMem = d.ccMem := by
  unfold acceptCommit
  simp

@[simp] theorem mem_releaseHeld (d : Device) (p : Fin 3) :
    (releaseHeld d p).delay = d.delay ∧ (releaseHeld d p).ccMem = d.ccMem := by
  unfold releaseHeld
  simp

@[simp] theorem mem_batchPass (d : Device) (p : Fin 3) :
    (batchPass d p).delay = d.delay ∧ (batchPass d p).ccMem = d.ccMem := by
  unfold batchPass
  simp

@[simp] theorem mem_consume (d : Device) (p : Fin 3) (n : Nat) :
    (consume d p n).delay = d.delay ∧ (consume d p n).ccMem = d.ccMem := by
  unfold consume
  (repeat' split) <;> simp

@[simp] theorem mem_gather (d : Device) (p : Fin 3) (need : Nat) :
    (gather d p need).1.delay = d.delay ∧ (gather d p need).1.ccMem = d.ccMem := by
  unfold gather
  simp

@[simp] theorem mem_closeRecord (d : Device) (p : Fin 3) :
    (closeRecord d p).delay = d.delay ∧ (closeRecord d p).ccMem = d.ccMem := by
  unfold closeRecord
  simp

@[simp] theorem mem_targetIncomplete (d : Device) (p : Fin 3) (h : Header) (shadow : Bool) :
    (targetIncomplete d p h shadow).delay = d.delay ∧ (targetIncomplete d p h shadow).ccMem = d.ccMem := by
  unfold targetIncomplete
  simp

@[simp] theorem mem_cutRecord (d : Device) (p : Fin 3) :
    (cutRecord d p).delay = d.delay ∧ (cutRecord d p).ccMem = d.ccMem := by
  unfold cutRecord
  simp

@[simp] theorem mem_abortRecord (d : Device) (p : Fin 3) (code : Nat) :
    (abortRecord d p code).1.delay = d.delay ∧ (abortRecord d p code).1.ccMem = d.ccMem := by
  unfold abortRecord
  (repeat' split) <;> simp

@[simp] theorem mem_skipRecord (d : Device) (p : Fin 3) (h : Header) (code : Nat) :
    (skipRecord d p h code).1.delay = d.delay ∧ (skipRecord d p h code).1.ccMem = d.ccMem := by
  unfold skipRecord
  simp

@[simp] theorem mem_bandTake (d : Device) (j : Nat) :
    (bandTake d j).delay = d.delay ∧ (bandTake d j).ccMem = d.ccMem := by
  unfold bandTake
  simp

@[simp] theorem mem_bandLoaded (d : Device) (j : Nat) :
    (bandLoaded d j).delay = d.delay ∧ (bandLoaded d j).ccMem = d.ccMem := by
  unfold bandLoaded
  simp

@[simp] theorem mem_streamApplied (d : Device) (p : Fin 3) (h : Header) :
    (streamApplied d p h).delay = d.delay ∧ (streamApplied d p h).ccMem = d.ccMem := by
  unfold streamApplied
  simp

@[simp] theorem mem_streamEnd (d : Device) (p : Fin 3) (h : Header) :
    (streamEnd d p h).1.delay = d.delay ∧ (streamEnd d p h).1.ccMem = d.ccMem := by
  unfold streamEnd
  dsimp only
  (repeat' split) <;> simp

@[simp] theorem mem_putBlock (d : Device) (r w : Nat) (l : List Nat) :
    (putBlock d r w l).delay = d.delay ∧ (putBlock d r w l).ccMem = d.ccMem := by
  induction l generalizing d w with
  | nil => simp [putBlock]
  | cons v l ih => simp [putBlock, ih]

@[simp] theorem mem_abortLoad (d : Device) :
    (abortLoad d).delay = d.delay ∧ (abortLoad d).ccMem = d.ccMem := by
  unfold abortLoad
  simp

@[simp] theorem mem_atBoundary (d : Device) (p : Fin 3) :
    (atBoundary d p).delay = d.delay ∧ (atBoundary d p).ccMem = d.ccMem := by
  unfold atBoundary
  simp

@[simp] theorem mem_supplyFlash (d : Device) (ws : List Word) :
    (supplyFlash d ws).delay = d.delay ∧ (supplyFlash d ws).ccMem = d.ccMem := by
  unfold supplyFlash
  simp

@[simp] theorem mem_ldrGo (d : Device) (q : Req) :
    (ldrGo d q).delay = d.delay ∧ (ldrGo d q).ccMem = d.ccMem := by
  unfold ldrGo
  dsimp only
  (repeat' split) <;> simp

@[simp] theorem mem_ldrAbort (d : Device) :
    (ldrAbort d).delay = d.delay ∧ (ldrAbort d).ccMem = d.ccMem := by
  unfold ldrAbort
  simp

@[simp] theorem mem_ldrCtl (d : Device) (q : Req) (v : Nat) :
    (ldrCtl d q v).delay = d.delay ∧ (ldrCtl d q v).ccMem = d.ccMem := by
  unfold ldrCtl
  simp

@[simp] theorem mem_loadEnd (d : Device) :
    (loadEnd d).delay = d.delay ∧ (loadEnd d).ccMem = d.ccMem := by
  unfold loadEnd
  simp

@[simp] theorem mem_gapTimeout (d : Device) :
    (gapTimeout d).delay = d.delay ∧ (gapTimeout d).ccMem = d.ccMem := by
  unfold gapTimeout
  simp

@[simp] theorem mem_loaderResync (d : Device) :
    (loaderResync d).delay = d.delay ∧ (loaderResync d).ccMem = d.ccMem := by
  unfold loaderResync
  simp

@[simp] theorem mem_dvfsEnd (d : Device) :
    (dvfsEnd d).delay = d.delay ∧ (dvfsEnd d).ccMem = d.ccMem := by
  unfold dvfsEnd
  simp

@[simp] theorem mem_dvfsRun (l : List DvfsStep) (d : Device) :
    (dvfsRun l d).delay = d.delay ∧ (dvfsRun l d).ccMem = d.ccMem := by
  induction l generalizing d with
  | nil => simp [dvfsRun]
  | cons x l ih => cases x <;> simp [dvfsRun, ih]

@[simp] theorem mem_dvfsRequest (d : Device) (q : Req) (kind : Nat) (n : Nat) :
    (dvfsRequest d q kind n).delay = d.delay ∧ (dvfsRequest d q kind n).ccMem = d.ccMem := by
  unfold dvfsRequest
  (repeat' split) <;> simp

@[simp] theorem mem_voltageRead (d : Device) (mv : Nat) :
    (voltageRead d mv).delay = d.delay ∧ (voltageRead d mv).ccMem = d.ccMem := by
  unfold voltageRead
  (repeat' split) <;> simp

@[simp] theorem mem_voltageFail (d : Device) (why : VFail) (status : Nat) :
    (voltageFail d why status).delay = d.delay ∧ (voltageFail d why status).ccMem = d.ccMem := by
  unfold voltageFail
  dsimp only
  (repeat' split) <;> simp

@[simp] theorem mem_thermalConvert (d : Device) (raw : List Int) :
    (thermalConvert d raw).delay = d.delay ∧ (thermalConvert d raw).ccMem = d.ccMem := by
  unfold thermalConvert
  simp

@[simp] theorem mem_putLevel (d : Device) (old : CoachLevel) (new : CoachLevel) :
    (putLevel d old new).delay = d.delay ∧ (putLevel d old new).ccMem = d.ccMem := by
  unfold putLevel
  simp

@[simp] theorem mem_askOpp (d : Device) (n : Option Nat) :
    (askOpp d n).delay = d.delay ∧ (askOpp d n).ccMem = d.ccMem := by
  unfold askOpp
  simp

@[simp] theorem mem_putTiers (d : Device) (level : Nat) :
    (putTiers d level).delay = d.delay ∧ (putTiers d level).ccMem = d.ccMem := by
  unfold putTiers
  simp

@[simp] theorem mem_coachDecide (d : Device) (link : Nat) (sap : Nat) :
    (coachDecide d link sap).delay = d.delay ∧ (coachDecide d link sap).ccMem = d.ccMem := by
  unfold coachDecide
  simp

@[simp] theorem mem_putTier (d : Device) (g : Nat) (k : Fin 4) (t : Nat) (x : TierFade) :
    (putTier d g k t x).delay = d.delay ∧ (putTier d g k t x).ccMem = d.ccMem := by
  unfold putTier
  simp

@[simp] theorem mem_groupKick (d : Device) (k : Fin 4) (first : Bool) (g : Nat) :
    (groupKick d k first g).delay = d.delay ∧ (groupKick d k first g).ccMem = d.ccMem := by
  unfold groupKick
  simp

@[simp] theorem mem_setBegin (d : Device) (k : Fin 4) :
    (setBegin d k).delay = d.delay ∧ (setBegin d k).ccMem = d.ccMem := by
  unfold setBegin
  simp

@[simp] theorem mem_coachIssue (d : Device) :
    (coachIssue d).delay = d.delay ∧ (coachIssue d).ccMem = d.ccMem := by
  unfold coachIssue
  (repeat' split) <;> simp

@[simp] theorem mem_setStart (d : Device) (k : Fin 4) (n : Nat) :
    (setStart d k n).1.delay = d.delay ∧ (setStart d k n).1.ccMem = d.ccMem := by
  unfold setStart
  simp

@[simp] theorem mem_tiersKick (d : Device) (k : Fin 4) (first : Bool) :
    (tiersKick d k first).delay = d.delay ∧ (tiersKick d k first).ccMem = d.ccMem := by
  unfold tiersKick
  simp

@[simp] theorem mem_setSub (d : Device) (x : Option Subst) :
    (setSub d x).delay = d.delay ∧ (setSub d x).ccMem = d.ccMem := by
  unfold setSub
  simp

@[simp] theorem mem_subArm (d : Device) (q : Req) (addr : Nat) (v : Nat) :
    (subArm d q addr v).delay = d.delay ∧ (subArm d q addr v).ccMem = d.ccMem := by
  unfold subArm
  dsimp only
  (repeat' split) <;> simp

@[simp] theorem mem_copyStores (d : Device) (x : Subst) :
    (copyStores d x).delay = d.delay ∧ (copyStores d x).ccMem = d.ccMem := by
  unfold copyStores
  simp

@[simp] theorem mem_subCopied (d : Device) :
    (subCopied d).delay = d.delay ∧ (subCopied d).ccMem = d.ccMem := by
  unfold subCopied
  (repeat' split) <;> simp

@[simp] theorem mem_subCancel (d : Device) (x : Subst) :
    (subCancel d x).delay = d.delay ∧ (subCancel d x).ccMem = d.ccMem := by
  unfold subCancel
  simp

@[simp] theorem mem_subAbort (d : Device) :
    (subAbort d).delay = d.delay ∧ (subAbort d).ccMem = d.ccMem := by
  unfold subAbort
  (repeat' split) <;> simp

@[simp] theorem mem_subCtl (d : Device) (q : Req) (v : Nat) :
    (subCtl d q v).delay = d.delay ∧ (subCtl d q v).ccMem = d.ccMem := by
  unfold subCtl
  simp

@[simp] theorem mem_snapshot (d : Device) (x : Subst) (n : Nat) :
    (snapshot d x n).delay = d.delay ∧ (snapshot d x n).ccMem = d.ccMem := by
  unfold snapshot
  simp

@[simp] theorem mem_putGenid (d : Device) (n : Fin 68) (g : Nat) :
    (putGenid d n g).delay = d.delay ∧ (putGenid d n g).ccMem = d.ccMem := by
  unfold putGenid
  simp

@[simp] theorem mem_handover (d : Device) (x : Subst) :
    (handover d x).delay = d.delay ∧ (handover d x).ccMem = d.ccMem := by
  unfold handover
  simp

@[simp] theorem mem_mirrorEnd (d : Device) (x : Subst) (n : Nat) (bad : Bool) :
    (mirrorEnd d x n bad).delay = d.delay ∧ (mirrorEnd d x n bad).ccMem = d.ccMem := by
  unfold mirrorEnd
  simp

@[simp] theorem mem_subKick (d : Device) (k : Fin 4) (n : Nat) (bad : Bool) :
    (subKick d k n bad).delay = d.delay ∧ (subKick d k n bad).ccMem = d.ccMem := by
  unfold subKick
  dsimp only
  (repeat' split) <;> simp

@[simp] theorem mem_readmit (d : Device) (p : Fin 68) (b : Nat) :
    (readmit d p b).delay = d.delay ∧ (readmit d p b).ccMem = d.ccMem := by
  unfold readmit
  simp

@[simp] theorem mem_readmitKick (d : Device) (k : Fin 4) :
    (readmitKick d k).delay = d.delay ∧ (readmitKick d k).ccMem = d.ccMem := by
  unfold readmitKick
  simp

@[simp] theorem mem_swapRole (d : Device) (coef : Bool) (r : Nat) :
    (swapRole d coef r).delay = d.delay ∧ (swapRole d coef r).ccMem = d.ccMem := by
  unfold swapRole
  simp

@[simp] theorem mem_swapSpin (d : Device) (u : Nat) :
    (swapSpin d u).delay = d.delay ∧ (swapSpin d u).ccMem = d.ccMem := by
  unfold swapSpin
  simp

end Sys2Proof.Machine
end

