-- ==== Sys2Proof/Laws/MemKickoff.lean ====
section
/-! SUPPORT. What leaves delay memory and the control-core memories as they are: kickoffs, handovers, events, power and boot. One lemma per operation. -/

namespace Sys2Proof.Machine

@[simp] theorem mem_cutRally (d : Device) (n : Fin 68) (kick : Bool) :
    (cutRally d n kick).delay = d.delay ∧ (cutRally d n kick).ccMem = d.ccMem := by
  unfold cutRally
  simp

@[simp] theorem mem_overrunLen (d : Device) (n : Fin 68) :
    (overrunLen d n).delay = d.delay ∧ (overrunLen d n).ccMem = d.ccMem := by
  unfold overrunLen
  simp

@[simp] theorem mem_cutAll (d : Device) (k : Fin 4) :
    (cutAll d k).delay = d.delay ∧ (cutAll d k).ccMem = d.ccMem := by
  unfold cutAll
  simp

@[simp] theorem mem_outEntry (d : Device) (k : Fin 4) (r : Nat) (who : Option (Fin 68)) (i : Nat) :
    (outEntry d k r who i).delay = d.delay ∧ (outEntry d k r who i).ccMem = d.ccMem := by
  unfold outEntry
  simp

@[simp] theorem mem_compareMirror (d : Device) (r : Nat) (who : Option (Fin 68)) :
    (compareMirror d r who).delay = d.delay ∧ (compareMirror d r who).ccMem = d.ccMem := by
  unfold compareMirror
  (repeat' split) <;> simp

@[simp] theorem mem_transferRole (d : Device) (k : Fin 4) (r : Nat) :
    (transferRole d k r).delay = d.delay ∧ (transferRole d k r).ccMem = d.ccMem := by
  unfold transferRole
  simp

@[simp] theorem mem_transferAll (d : Device) (k : Fin 4) :
    (transferAll d k).delay = d.delay ∧ (transferAll d k).ccMem = d.ccMem := by
  unfold transferAll
  simp

theorem mem_swapOnce (f : Device → Nat → Device) (kind : Nat) (r : Device × Swapped) (u : Nat)
    (h : ∀ d u, (f d u).delay = d.delay ∧ (f d u).ccMem = d.ccMem) :
    (swapOnce f kind r u).1.delay = r.1.delay ∧ (swapOnce f kind r u).1.ccMem = r.1.ccMem := by
  unfold swapOnce
  split <;> simp [h]

theorem mem_swapAll (f : Device → Nat → Device) (kind : Nat) (l : List Nat) (r : Device × Swapped)
    (h : ∀ d u, (f d u).delay = d.delay ∧ (f d u).ccMem = d.ccMem) :
    (l.foldl (swapOnce f kind) r).1.delay = r.1.delay ∧ (l.foldl (swapOnce f kind) r).1.ccMem = r.1.ccMem :=
  ⟨foldl_fst_delay _ (fun r u => (mem_swapOnce f kind r u h).1) l r,
    foldl_fst_ccMem _ (fun r u => (mem_swapOnce f kind r u h).2) l r⟩

@[simp] theorem mem_commitApply (k : Fin 4) (n : Nat) (r : Device × Swapped) (c : Commit) :
    (commitApply k n r c).1.delay = r.1.delay ∧ (commitApply k n r c).1.ccMem = r.1.ccMem := by
  unfold commitApply
  have a := fun l r => mem_swapAll (fun d u => swapRole d true u) 0 l r (fun d u => mem_swapRole d true u)
  have b := fun l r => mem_swapAll (fun d u => swapRole d false u) 1 l r (fun d u => mem_swapRole d false u)
  have s := fun l r => mem_swapAll swapSpin 2 l r mem_swapSpin
  simp [a, b, s]

@[simp] theorem mem_commitStep (k : Fin 4) (n : Nat) (r : (Device × Swapped) × List Commit) (c : Commit) :
    (commitStep k n r c).1.1.delay = r.1.1.delay ∧ (commitStep k n r c).1.1.ccMem = r.1.1.ccMem := by
  unfold commitStep
  (repeat' split) <;> simp

@[simp] theorem mem_commitKick (d : Device) (k : Fin 4) (n : Nat) :
    (commitKick d k n).delay = d.delay ∧ (commitKick d k n).ccMem = d.ccMem := by
  have h : ∀ (l : List Commit) (r : (Device × Swapped) × List Commit),
      (l.foldl (commitStep k n) r).1.1.delay = r.1.1.delay ∧ (l.foldl (commitStep k n) r).1.1.ccMem = r.1.1.ccMem := by
    intro l
    induction l with
    | nil => simp
    | cons c l ih => intro r; simp [ih]
  unfold commitKick
  simp [h]

@[simp] theorem mem_beginRally (d : Device) (k : Fin 4) (n : Nat) (first : Bool) (a : Fin 68) :
    (beginRally d k n first a).delay = d.delay ∧ (beginRally d k n first a).ccMem = d.ccMem := by
  unfold beginRally
  simp

@[simp] theorem mem_bypassTake (k : Fin 4) (d : Device) (i : Nat) :
    (bypassTake k d i).delay = d.delay ∧ (bypassTake k d i).ccMem = d.ccMem := by
  unfold bypassTake
  simp

@[simp] theorem mem_fillRole (d : Device) (k : Fin 4) (r : Nat) :
    (fillRole d k r).delay = d.delay ∧ (fillRole d k r).ccMem = d.ccMem := by
  unfold fillRole
  (repeat' split) <;> simp

@[simp] theorem mem_restAll (d : Device) (k : Fin 4) :
    (restAll d k).delay = d.delay ∧ (restAll d k).ccMem = d.ccMem := by
  unfold restAll
  simp

@[simp] theorem mem_frameEnds (d : Device) (k : Fin 4) (n : Nat) :
    (frameEnds d k n).delay = d.delay ∧ (frameEnds d k n).ccMem = d.ccMem := by
  unfold frameEnds
  rw [(mem_stepGenerators _ _).1, (mem_stepGenerators _ _).2, (mem_linkKickoff _ _ _).1, (mem_linkKickoff _ _ _).2]
  simp

@[simp] theorem mem_routesKick (d : Device) (k : Fin 4) (n : Nat) :
    (routesKick d k n).delay = d.delay ∧ (routesKick d k n).ccMem = d.ccMem := by
  unfold routesKick
  simp

@[simp] theorem mem_rebaseFly (d : Device) (a : Fin 68) :
    (rebaseFly d a).delay = d.delay ∧ (rebaseFly d a).ccMem = d.ccMem := by
  unfold rebaseFly
  dsimp only
  (repeat' split) <;> simp

@[simp] theorem mem_kickoffAt (d : Device) (k : Fin 4) (n : Nat) :
    (kickoffAt d k n).delay = d.delay ∧ (kickoffAt d k n).ccMem = d.ccMem := by
  unfold kickoffAt
  simp

@[simp] theorem mem_engineKickoff (d : Device) (k : Fin 4) :
    (engineKickoff d k).delay = d.delay ∧ (engineKickoff d k).ccMem = d.ccMem := by
  unfold engineKickoff
  (repeat' split) <;> simp

@[simp] theorem mem_rallyStart (d : Device) (k : Fin 4) :
    (rallyStart d k).delay = d.delay ∧ (rallyStart d k).ccMem = d.ccMem := by
  unfold rallyStart
  simp

@[simp] theorem mem_notePositions (d : Device) (k : Fin 4) :
    (notePositions d k).delay = d.delay ∧ (notePositions d k).ccMem = d.ccMem := by
  unfold notePositions
  simp

@[simp] theorem mem_frameResolve (d : Device) (k : Fin 4) (tods : List Nat) :
    (frameResolve d k tods).delay = d.delay ∧ (frameResolve d k tods).ccMem = d.ccMem := by
  unfold frameResolve
  dsimp only
  (repeat' split) <;> simp

@[simp] theorem mem_hoDevice (d : Device) (k : Fin 4) (h : HoAsk) :
    (hoDevice d k h).delay = d.delay ∧ (hoDevice d k h).ccMem = d.ccMem := by
  unfold hoDevice
  simp

@[simp] theorem mem_hoArmed (d : Device) (k : Fin 4) (h : HoAsk) :
    (hoArmed d k h).delay = d.delay ∧ (hoArmed d k h).ccMem = d.ccMem := by
  unfold hoArmed
  simp

@[simp] theorem mem_hoWrite (d : Device) (q : Req) (addr : Nat) (k : Fin 4) (v : Nat) :
    (hoWrite d q addr k v).delay = d.delay ∧ (hoWrite d q addr k v).ccMem = d.ccMem := by
  unfold hoWrite
  simp

@[simp] theorem mem_eventDelivery (d : Device) (v : Nat) :
    (eventDelivery d v).delay = d.delay ∧ (eventDelivery d v).ccMem = d.ccMem := by
  unfold eventDelivery
  simp

@[simp] theorem mem_swTrig (d : Device) (v : Nat) :
    (swTrig d v).delay = d.delay ∧ (swTrig d v).ccMem = d.ccMem := by
  unfold swTrig
  simp

@[simp] theorem mem_evtRoute (d : Device) (v : Nat) (w : Nat) :
    (evtRoute d v w).delay = d.delay ∧ (evtRoute d v w).ccMem = d.ccMem := by
  unfold evtRoute
  simp

@[simp] theorem mem_latchClear (d : Device) (k : Nat) (v : Nat) :
    (latchClear d k v).delay = d.delay ∧ (latchClear d k v).ccMem = d.ccMem := by
  unfold latchClear
  simp

@[simp] theorem mem_msixAck (d : Device) (v : Nat) :
    (msixAck d v).delay = d.delay ∧ (msixAck d v).ccMem = d.ccMem := by
  unfold msixAck
  simp

@[simp] theorem mem_msixUnmask (d : Device) (x : Nat) :
    (msixUnmask d x).delay = d.delay ∧ (msixUnmask d x).ccMem = d.ccMem := by
  unfold msixUnmask
  simp

@[simp] theorem mem_msixUnmaskAll (d : Device) :
    (msixUnmaskAll d).delay = d.delay ∧ (msixUnmaskAll d).ccMem = d.ccMem := by
  unfold msixUnmaskAll
  simp

@[simp] theorem mem_wdExpire (d : Device) :
    (wdExpire d).delay = d.delay ∧ (wdExpire d).ccMem = d.ccMem := by
  unfold wdExpire
  simp

@[simp] theorem mem_wdKick (d : Device) (v : Nat) :
    (wdKick d v).delay = d.delay ∧ (wdKick d v).ccMem = d.ccMem := by
  unfold wdKick
  simp

@[simp] theorem mem_wdCtl (d : Device) (v : Nat) :
    (wdCtl d v).delay = d.delay ∧ (wdCtl d v).ccMem = d.ccMem := by
  unfold wdCtl
  simp

@[simp] theorem mem_countTimers (d : Device) (ns : Nat) :
    (countTimers d ns).delay = d.delay ∧ (countTimers d ns).ccMem = d.ccMem := by
  unfold countTimers
  exact ⟨rfl, rfl⟩

@[simp] theorem mem_idleEdge (d : Device) :
    (idleEdge d).delay = d.delay ∧ (idleEdge d).ccMem = d.ccMem := by
  unfold idleEdge
  simp

@[simp] theorem mem_ccHold (d : Device) (c : Fin 4) :
    (ccHold d c).delay = d.delay ∧ (ccHold d c).ccMem = d.ccMem := by
  unfold ccHold
  simp

@[simp] theorem mem_ccStart (d : Device) (c : Fin 4) :
    (ccStart d c).delay = d.delay ∧ (ccStart d c).ccMem = d.ccMem := by
  unfold ccStart
  simp

@[simp] theorem mem_ccCtl (d : Device) (c : Fin 4) (v : Nat) :
    (ccCtl d c v).delay = d.delay ∧ (ccCtl d c v).ccMem = d.ccMem := by
  unfold ccCtl
  simp

@[simp] theorem mem_cspiFields (d : Device) (v : Nat) :
    (cspiFields d v).delay = d.delay ∧ (cspiFields d v).ccMem = d.ccMem := by
  unfold cspiFields
  simp

@[simp] theorem mem_cspiCmd (d : Device) (q : Req) (v : Nat) :
    (cspiCmd d q v).delay = d.delay ∧ (cspiCmd d q v).ccMem = d.ccMem := by
  unfold cspiCmd
  simp

@[simp] theorem mem_cspiDone (d : Device) (rx : List Word) :
    (cspiDone d rx).delay = d.delay ∧ (cspiDone d rx).ccMem = d.ccMem := by
  unfold cspiDone
  dsimp only
  (repeat' split) <;> simp

@[simp] theorem mem_cspiTxWrite (d : Device) (v : Nat) :
    (cspiTxWrite d v).delay = d.delay ∧ (cspiTxWrite d v).ccMem = d.ccMem := by
  unfold cspiTxWrite
  simp

@[simp] theorem mem_settlePstate (d : Device) :
    (settlePstate d).delay = d.delay ∧ (settlePstate d).ccMem = d.ccMem := by
  unfold settlePstate
  simp

@[simp] theorem mem_setDomain (d : Device) (n : Nat) (v : Nat) :
    (setDomain d n v).delay = d.delay ∧ (setDomain d n v).ccMem = d.ccMem := by
  unfold setDomain
  simp

@[simp] theorem mem_domainIdle (d : Device) (n : Nat) :
    (domainIdle d n).delay = d.delay ∧ (domainIdle d n).ccMem = d.ccMem := by
  unfold domainIdle
  simp

@[simp] theorem mem_domainDown (d : Device) (n : Nat) :
    (domainDown d n).delay = d.delay ∧ (domainDown d n).ccMem = d.ccMem := by
  unfold domainDown
  simp

@[simp] theorem mem_domainWake (d : Device) (n : Nat) :
    (domainWake d n).delay = d.delay ∧ (domainWake d n).ccMem = d.ccMem := by
  unfold domainWake
  simp

@[simp] theorem mem_touch (d : Device) (a : Nat) :
    (touch d a).delay = d.delay ∧ (touch d a).ccMem = d.ccMem := by
  unfold touch
  (repeat' split) <;> simp

@[simp] theorem mem_pwrMode (d : Device) (v : Nat) :
    (pwrMode d v).delay = d.delay ∧ (pwrMode d v).ccMem = d.ccMem := by
  unfold pwrMode
  simp

@[simp] theorem mem_pwrVote (d : Device) (k : Nat) (v : Nat) :
    (pwrVote d k v).delay = d.delay ∧ (pwrVote d k v).ccMem = d.ccMem := by
  unfold pwrVote
  simp

@[simp] theorem mem_pwrRefuse (d : Device) (f : Fld) (cause : Nat) (voter : Nat) (target : Nat) :
    (pwrRefuse d f cause voter target).delay = d.delay ∧ (pwrRefuse d f cause voter target).ccMem = d.ccMem := by
  unfold pwrRefuse
  simp

@[simp] theorem mem_entryBegin (d : Device) (t : Nat) :
    (entryBegin d t).delay = d.delay ∧ (entryBegin d t).ccMem = d.ccMem := by
  unfold entryBegin
  simp

@[simp] theorem mem_pwrEnter (d : Device) :
    (pwrEnter d).delay = d.delay ∧ (pwrEnter d).ccMem = d.ccMem := by
  unfold pwrEnter
  dsimp only
  (repeat' split) <;> simp

@[simp] theorem mem_pwrCtl (d : Device) (v : Nat) :
    (pwrCtl d v).delay = d.delay ∧ (pwrCtl d v).ccMem = d.ccMem := by
  unfold pwrCtl
  simp

@[simp] theorem mem_deviceTimer (d : Device) :
    (deviceTimer d).delay = d.delay ∧ (deviceTimer d).ccMem = d.ccMem := by
  unfold deviceTimer
  simp

@[simp] theorem mem_entryCheck (d : Device) :
    (entryCheck d).delay = d.delay ∧ (entryCheck d).ccMem = d.ccMem := by
  unfold entryCheck
  dsimp only
  (repeat' split) <;> simp

@[simp] theorem mem_padLatch (d : Device) :
    (padLatch d).delay = d.delay ∧ (padLatch d).ccMem = d.ccMem := by
  unfold padLatch
  simp

@[simp] theorem mem_drainQueue (d : Device) (q : Fin 256) :
    (drainQueue d q).delay = d.delay ∧ (drainQueue d q).ccMem = d.ccMem := by
  unfold drainQueue
  simp

@[simp] theorem mem_exitMark (d : Device) :
    (exitMark d).delay = d.delay ∧ (exitMark d).ccMem = d.ccMem := by
  unfold exitMark
  simp

@[simp] theorem mem_exitBegin (d : Device) (src : Nat) :
    (exitBegin d src).delay = d.delay ∧ (exitBegin d src).ccMem = d.ccMem := by
  unfold exitBegin
  simp

@[simp] theorem mem_wake (d : Device) (src : Nat) (ok : PState → Bool) :
    (wake d src ok).delay = d.delay ∧ (wake d src ok).ccMem = d.ccMem := by
  unfold wake
  (repeat' split) <;> simp

@[simp] theorem mem_wakePin (d : Device) :
    (wakePin d).delay = d.delay ∧ (wakePin d).ccMem = d.ccMem := by
  unfold wakePin
  simp

@[simp] theorem mem_senseCrossing (d : Device) (k : Fin 4) (mv : Nat) :
    (senseCrossing d k mv).delay = d.delay ∧ (senseCrossing d k mv).ccMem = d.ccMem := by
  unfold senseCrossing
  simp

@[simp] theorem mem_squelchWake (d : Device) (n : Fin 8) :
    (squelchWake d n).delay = d.delay ∧ (squelchWake d n).ccMem = d.ccMem := by
  unfold squelchWake
  simp

@[simp] theorem mem_hostWake (d : Device) :
    (hostWake d).delay = d.delay ∧ (hostWake d).ccMem = d.ccMem := by
  unfold hostWake
  simp

@[simp] theorem mem_perstWake (d : Device) :
    (perstWake d).delay = d.delay ∧ (perstWake d).ccMem = d.ccMem := by
  unfold perstWake
  simp

@[simp] theorem mem_aonAlarm (d : Device) :
    (aonAlarm d).delay = d.delay ∧ (aonAlarm d).ccMem = d.ccMem := by
  unfold aonAlarm
  simp

@[simp] theorem mem_pmbStatus (d : Device) (status : Nat) :
    (pmbStatus d status).delay = d.delay ∧ (pmbStatus d status).ccMem = d.ccMem := by
  unfold pmbStatus
  simp

@[simp] theorem mem_pmbAlert (d : Device) (status : Option Nat) :
    (pmbAlert d status).delay = d.delay ∧ (pmbAlert d status).ccMem = d.ccMem := by
  cases status <;> simp [pmbAlert]

@[simp] theorem mem_putCanary (b : Fin 128) (d : Device) (c : Fin 4 × Cell) :
    (putCanary b d c).delay = d.delay ∧ (putCanary b d c).ccMem = d.ccMem := by
  unfold putCanary
  exact ⟨rfl, rfl⟩

@[simp] theorem mem_retain (d : Device) (b : Fin 128) :
    (retain d b).delay = d.delay ∧ (retain d b).ccMem = d.ccMem := by
  unfold retain
  simp

@[simp] theorem mem_sweepDone (d : Device) (b : Fin 128) :
    (sweepDone d b).delay = d.delay ∧ (sweepDone d b).ccMem = d.ccMem := by
  unfold sweepDone
  simp

@[simp] theorem mem_pllsLock (d : Device) :
    (pllsLock d).delay = d.delay ∧ (pllsLock d).ccMem = d.ccMem := by
  unfold pllsLock
  simp

@[simp] theorem mem_pmbTake (d : Device) :
    (pmbTake d).delay = d.delay ∧ (pmbTake d).ccMem = d.ccMem := by
  unfold pmbTake
  simp

@[simp] theorem mem_padRelease (d : Device) (v : Nat) :
    (padRelease d v).delay = d.delay ∧ (padRelease d v).ccMem = d.ccMem := by
  unfold padRelease
  simp

@[simp] theorem mem_guardProfile (d : Device) :
    (guardProfile d).delay = d.delay ∧ (guardProfile d).ccMem = d.ccMem := by
  unfold guardProfile
  simp

@[simp] theorem mem_pllDefaults (d : Device) :
    (pllDefaults d).delay = d.delay ∧ (pllDefaults d).ccMem = d.ccMem := by
  unfold pllDefaults
  dsimp only
  (repeat' split) <;> simp

@[simp] theorem mem_bootProgress (d : Device) :
    (bootProgress d).delay = d.delay ∧ (bootProgress d).ccMem = d.ccMem := by
  unfold bootProgress
  simp

@[simp] theorem mem_carryRegs (old new : Device) (as : List Nat) :
    (carryRegs old new as).delay = new.delay ∧ (carryRegs old new as).ccMem = new.ccMem := by
  unfold carryRegs
  simp

@[simp] theorem mem_readPart (d : Device) :
    (readPart d).delay = d.delay ∧ (readPart d).ccMem = d.ccMem := by
  unfold readPart
  simp

@[simp] theorem mem_bootFail (d : Device) (block : Nat) (slot : Nat) (cause : Nat) (code : Nat) :
    (bootFail d block slot cause code).delay = d.delay ∧ (bootFail d block slot cause code).ccMem = d.ccMem := by
  unfold bootFail
  simp

@[simp] theorem mem_regionsEmpty (d : Device) :
    (regionsEmpty d).delay = d.delay ∧ (regionsEmpty d).ccMem = d.ccMem := by
  unfold regionsEmpty
  simp

@[simp] theorem mem_recovery (d : Device) (cause : Nat) :
    (recovery d cause).delay = d.delay ∧ (recovery d cause).ccMem = d.ccMem := by
  unfold recovery
  simp

@[simp] theorem mem_loadBegin (d : Device) :
    (loadBegin d).delay = d.delay ∧ (loadBegin d).ccMem = d.ccMem := by
  unfold loadBegin
  simp

@[simp] theorem mem_noteVariant (d : Device) (ws : List Word) :
    (noteVariant d ws).delay = d.delay ∧ (noteVariant d ws).ccMem = d.ccMem := by
  unfold noteVariant
  simp

@[simp] theorem mem_putFspi (d : Device) (v : Nat) :
    (putFspi d v).delay = d.delay ∧ (putFspi d v).ccMem = d.ccMem := by
  unfold putFspi
  simp

@[simp] theorem mem_blockCfg (d : Device) (h : SlotHdr) :
    (blockCfg d h).delay = d.delay ∧ (blockCfg d h).ccMem = d.ccMem := by
  unfold blockCfg
  simp

@[simp] theorem mem_slotStart (d : Device) (slot : Nat) (h : SlotHdr) :
    (slotStart d slot h).delay = d.delay ∧ (slotStart d slot h).ccMem = d.ccMem := by
  unfold slotStart
  simp

@[simp] theorem mem_slotChoose (d : Device) (a : Option SlotHdr) (b : Option SlotHdr) :
    (slotChoose d a b).delay = d.delay ∧ (slotChoose d a b).ccMem = d.ccMem := by
  unfold slotChoose
  dsimp only
  (repeat' split) <;> simp

@[simp] theorem mem_flashHeader (d : Device) (slot : Fin 2) (ws : List Word) :
    (flashHeader d slot ws).delay = d.delay ∧ (flashHeader d slot ws).ccMem = d.ccMem := by
  unfold flashHeader
  dsimp only
  (repeat' split) <;> simp

@[simp] theorem mem_afterFailure (d : Device) (slot : Nat) (cause : Nat) :
    (afterFailure d slot cause).delay = d.delay ∧ (afterFailure d slot cause).ccMem = d.ccMem := by
  unfold afterFailure
  dsimp only
  (repeat' split) <;> simp

@[simp] theorem mem_setBoot (d : Device) (x : SlotRd) :
    (setBoot d x).delay = d.delay ∧ (setBoot d x).ccMem = d.ccMem := by
  unfold setBoot
  simp

@[simp] theorem mem_pushTake (d : Device) (n : Nat) :
    (pushTake d n).1.delay = d.delay ∧ (pushTake d n).1.ccMem = d.ccMem := by
  unfold pushTake
  simp

@[simp] theorem mem_pushFill (d : Device) (x : SlotRd) (n : Nat) :
    (pushFill d x n).1.delay = d.delay ∧ (pushFill d x n).1.ccMem = d.ccMem := by
  unfold pushFill
  simp

@[simp] theorem mem_pushDiscard (d : Device) (q : Fin 256) :
    (pushDiscard d q).delay = d.delay ∧ (pushDiscard d q).ccMem = d.ccMem := by
  unfold pushDiscard
  (repeat' split) <;> simp

@[simp] theorem mem_pushFlush (d : Device) :
    (pushFlush d).delay = d.delay ∧ (pushFlush d).ccMem = d.ccMem := by
  unfold pushFlush
  simp

@[simp] theorem mem_pushTimeout (d : Device) :
    (pushTimeout d).delay = d.delay ∧ (pushTimeout d).ccMem = d.ccMem := by
  unfold pushTimeout
  simp

@[simp] theorem mem_startCores (d : Device) (b : List Word) :
    (startCores d b).delay = d.delay ∧ (startCores d b).ccMem = d.ccMem := by
  unfold startCores
  simp

@[simp] theorem mem_bootDone (d : Device) :
    (bootDone d).delay = d.delay ∧ (bootDone d).ccMem = d.ccMem := by
  unfold bootDone
  simp

@[simp] theorem mem_gateOpen (d : Device) :
    (gateOpen d).delay = d.delay ∧ (gateOpen d).ccMem = d.ccMem := by
  unfold gateOpen
  simp

@[simp] theorem mem_liveFail (d : Device) (block : Nat) (told : Bool) :
    (liveFail d block told).delay = d.delay ∧ (liveFail d block told).ccMem = d.ccMem := by
  unfold liveFail
  simp

@[simp] theorem mem_bootAct (d : Device) (q : Req) (v : Nat) :
    (bootAct d q v).delay = d.delay ∧ (bootAct d q v).ccMem = d.ccMem := by
  unfold bootAct
  simp

@[simp] theorem mem_liveHeader (d : Device) (x : SlotRd) (ws : List Word) :
    (liveHeader d x ws).delay = d.delay ∧ (liveHeader d x ws).ccMem = d.ccMem := by
  unfold liveHeader
  dsimp only
  (repeat' split) <;> simp

@[simp] theorem mem_liveBlock (d : Device) (x : SlotRd) (b : List Word) (early : Bool) :
    (liveBlock d x b early).delay = d.delay ∧ (liveBlock d x b early).ccMem = d.ccMem := by
  unfold liveBlock
  dsimp only
  (repeat' split) <;> simp

@[simp] theorem mem_liveApplied (d : Device) (x : SlotRd) (b : List Word) (lastEnd : Bool) :
    (liveApplied d x b lastEnd).delay = d.delay ∧ (liveApplied d x b lastEnd).ccMem = d.ccMem := by
  unfold liveApplied
  simp

@[simp] theorem mem_liveStart (d : Device) (x : SlotRd) (b : List Word) :
    (liveStart d x b).delay = d.delay ∧ (liveStart d x b).ccMem = d.ccMem := by
  unfold liveStart
  simp

@[simp] theorem mem_fspiCfg (d : Device) (v : Nat) :
    (fspiCfg d v).delay = d.delay ∧ (fspiCfg d v).ccMem = d.ccMem := by
  unfold fspiCfg
  simp

@[simp] theorem mem_fspiXcmd (d : Device) (q : Req) (v : Nat) :
    (fspiXcmd d q v).delay = d.delay ∧ (fspiXcmd d q v).ccMem = d.ccMem := by
  unfold fspiXcmd
  (repeat' split) <;> simp

@[simp] theorem mem_fspiDone (d : Device) (bytes : List (BitVec 8)) :
    (fspiDone d bytes).delay = d.delay ∧ (fspiDone d bytes).ccMem = d.ccMem := by
  unfold fspiDone
  simp

@[simp] theorem mem_wipeBegin (d : Device) :
    (wipeBegin d).delay = d.delay ∧ (wipeBegin d).ccMem = d.ccMem := by
  unfold wipeBegin
  simp

@[simp] theorem mem_lcAdvance (d : Device) (q : Req) (v : Nat) :
    (lcAdvance d q v).delay = d.delay ∧ (lcAdvance d q v).ccMem = d.ccMem := by
  unfold lcAdvance
  simp

@[simp] theorem mem_partWrite (d : Device) (q : Req) (o : Nat) (v : Word) :
    (partWrite d q o v).delay = d.delay ∧ (partWrite d q o v).ccMem = d.ccMem := by
  unfold partWrite
  simp

@[simp] theorem mem_tamper (d : Device) :
    (tamper d).delay = d.delay ∧ (tamper d).ccMem = d.ccMem := by
  unfold tamper
  simp

@[simp] theorem mem_wipeDone (d : Device) :
    (wipeDone d).delay = d.delay ∧ (wipeDone d).ccMem = d.ccMem := by
  unfold wipeDone
  simp

end Sys2Proof.Machine
end

