-- ==== Sys2Proof/Laws/MemBus.lean ====
section
/-! SUPPORT. What leaves delay memory and the control-core memories as they are: the bus, the host interfaces and the words of processors. One lemma per operation. -/

namespace Sys2Proof.Machine

@[simp] theorem mem_keepUndo (d : Device) (i : Issue) (a : Nat) (c : Cell) :
    (keepUndo d i a c).delay = d.delay ∧ (keepUndo d i a c).ccMem = d.ccMem := by
  unfold keepUndo
  dsimp only
  (repeat' split) <;> simp

@[simp] theorem mem_noteAcc (d : Device) (n : Fin 68) (k : AccKind) (a : Nat) (v : TWord) :
    (noteAcc d n k a v).delay = d.delay ∧ (noteAcc d n k a v).ccMem = d.ccMem := by
  unfold noteAcc
  simp

@[simp] theorem mem_delayLoad (d : Device) (i : Issue) (w : Nat) :
    (delayLoad d i w).1.delay = d.delay ∧ (delayLoad d i w).1.ccMem = d.ccMem := by
  unfold delayLoad
  simp

@[simp] theorem mem_violated (d : Device) (n : Fin 68) (port : Nat) (w : Nat) :
    (violated d n port w).delay = d.delay ∧ (violated d n port w).ccMem = d.ccMem := by
  unfold violated
  simp

@[simp] theorem mem_otherLoad (d : Device) (i : Issue) (port : Nat) (w : Nat) :
    (otherLoad d i port w).1.delay = d.delay ∧ (otherLoad d i port w).1.ccMem = d.ccMem := by
  unfold otherLoad
  (repeat' split) <;> simp

@[simp] theorem mem_portPop (d : Device) (n : Fin 68) (q : Fin 256) :
    (portPop d n q).1.delay = d.delay ∧ (portPop d n q).1.ccMem = d.ccMem := by
  unfold portPop
  simp

@[simp] theorem mem_engLoad (d : Device) (i : Issue) (port : Nat) (a : Nat) :
    (engLoad d i port a).1.delay = d.delay ∧ (engLoad d i port a).1.ccMem = d.ccMem := by
  unfold engLoad
  dsimp only
  (repeat' split) <;> simp

@[simp] theorem mem_localStore (d : Device) (n : Fin 68) (w : Nat) (v : TWord) :
    (localStore d n w v).delay = d.delay ∧ (localStore d n w v).ccMem = d.ccMem := by
  unfold localStore
  simp

@[simp] theorem mem_setResv (d : Device) (n : Fin 68) (r : Option Loc) :
    (setResv d n r).delay = d.delay ∧ (setResv d n r).ccMem = d.ccMem := by
  unfold setResv
  simp

@[simp] theorem mem_engLdrv (d : Device) (i : Issue) (a : Nat) :
    (engLdrv d i a).1.delay = d.delay ∧ (engLdrv d i a).1.ccMem = d.ccMem := by
  unfold engLdrv
  dsimp only
  (repeat' split) <;> simp

@[simp] theorem mem_doCall (d : Device) (n : Fin 68) (target : Nat) :
    (doCall d n target).delay = d.delay ∧ (doCall d n target).ccMem = d.ccMem := by
  unfold doCall
  simp

@[simp] theorem mem_flowWord (i : Issue) (ok : Bool) (d : Device) (f : Device → Device)
    (h : ∀ d, (f d).delay = d.delay ∧ (f d).ccMem = d.ccMem) :
    (flowWord i ok d f).delay = d.delay ∧ (flowWord i ok d f).ccMem = d.ccMem := mem_withWord i _ false d f h

@[simp] theorem mem_putControlReg (d : Device) (n : Fin 68) (c : Fin 16) (v : Word) :
    (putControlReg d n c v).delay = d.delay ∧ (putControlReg d n c v).ccMem = d.ccMem := by
  unfold putControlReg
  dsimp only
  (repeat' split) <;> simp

@[simp] theorem mem_takeEvent (d : Device) (c : Fin 4) (v : Nat) (l : Nat) :
    (takeEvent d c v l).delay = d.delay ∧ (takeEvent d c v l).ccMem = d.ccMem := by
  unfold takeEvent
  simp

@[simp] theorem mem_peekReg (d : Device) (q : Req) (a : Nat) :
    (peekReg d q a).1.delay = d.delay ∧ (peekReg d q a).1.ccMem = d.ccMem := by
  unfold peekReg
  dsimp only
  (repeat' split) <;> simp

@[simp] theorem mem_readTakes (d : Device) (a : Nat) :
    (readTakes d a).delay = d.delay ∧ (readTakes d a).ccMem = d.ccMem := by
  unfold readTakes
  (repeat' split) <;> simp

@[simp] theorem mem_readReg (d : Device) (q : Req) (a : Nat) :
    (readReg d q a).1.delay = d.delay ∧ (readReg d q a).1.ccMem = d.ccMem := by
  unfold readReg
  dsimp only
  (repeat' split) <;> simp

@[simp] theorem mem_readWide (d : Device) (q : Req) (a : Nat) :
    (readWide d q a).1.delay = d.delay ∧ (readWide d q a).1.ccMem = d.ccMem := by
  unfold readWide
  simp

@[simp] theorem mem_setIf (ok : Bool) (f : Fld) (v : Nat) (d : Device) :
    (setIf ok f v d).delay = d.delay ∧ (setIf ok f v d).ccMem = d.ccMem := by
  unfold setIf
  simp

@[simp] theorem mem_setOnly (ok : Bool) (f : Fld) (v : Nat) (d : Device) :
    (setOnly ok f v d).delay = d.delay ∧ (setOnly ok f v d).ccMem = d.ccMem := by
  unfold setOnly
  simp

@[simp] theorem mem_plainWrite (d : Device) (a : Nat) (r : RegRow) (v : Word) :
    (plainWrite d a r v).delay = d.delay ∧ (plainWrite d a r v).ccMem = d.ccMem := by
  unfold plainWrite
  simp

@[simp] theorem mem_plainWide (d : Device) (a : Nat) (r : RegRow) (v : Nat) :
    (plainWide d a r v).delay = d.delay ∧ (plainWide d a r v).ccMem = d.ccMem := by
  unfold plainWide
  simp

@[simp] theorem mem_awaitWrite (d : Device) (q : Req) (a : Nat) (addr : Nat) (v : Nat) :
    (awaitWrite d q a addr v).delay = d.delay ∧ (awaitWrite d q a addr v).ccMem = d.ccMem := by
  unfold awaitWrite
  simp

@[simp] theorem mem_ccVector (d : Device) (f : Fld) (align : Nat) (v : Nat) :
    (ccVector d f align v).delay = d.delay ∧ (ccVector d f align v).ccMem = d.ccMem := by
  unfold ccVector
  simp

@[simp] theorem mem_queCfg (d : Device) (q : Fin 256) (v : Nat) :
    (queCfg d q v).delay = d.delay ∧ (queCfg d q v).ccMem = d.ccMem := by
  unfold queCfg
  simp

@[simp] theorem mem_queFlushAll (d : Device) (q : Fin 256) :
    (queFlushAll d q).delay = d.delay ∧ (queFlushAll d q).ccMem = d.ccMem := by
  unfold queFlushAll
  simp

@[simp] theorem mem_queCtl (d : Device) (v : Nat) :
    (queCtl d v).delay = d.delay ∧ (queCtl d v).ccMem = d.ccMem := by
  unfold queCtl
  simp

@[simp] theorem mem_onQueue (d : Device) (r : Req) (addr : Nat) (q : Fin 256) (f : Device → Device)
    (h : ∀ d, (f d).delay = d.delay ∧ (f d).ccMem = d.ccMem) :
    (onQueue d r addr q f).delay = d.delay ∧ (onQueue d r addr q f).ccMem = d.ccMem := by
  unfold onQueue
  split
  · exact h d
  · simp

@[simp] theorem mem_hostPush (d : Device) (r : Req) (addr : Nat) (q : Fin 256) (w : TWord) :
    (hostPush d r addr q w).delay = d.delay ∧ (hostPush d r addr q w).ccMem = d.ccMem := by
  unfold hostPush
  refine mem_onQueue d r addr q _ (fun d => ?_)
  split <;> simp

@[simp] theorem mem_dvfsReqWrite (d : Device) (q : Req) (v : Nat) :
    (dvfsReqWrite d q v).delay = d.delay ∧ (dvfsReqWrite d q v).ccMem = d.ccMem := by
  unfold dvfsReqWrite
  simp

@[simp] theorem mem_sysApply (d : Device) (q : Req) (a : Nat) (r : RegRow) (v : Word) :
    (sysApply d q a r v).delay = d.delay ∧ (sysApply d q a r v).ccMem = d.ccMem := by
  unfold sysApply
  simp

@[simp] theorem mem_pwrApply (d : Device) (q : Req) (a : Nat) (r : RegRow) (v : Word) :
    (pwrApply d q a r v).delay = d.delay ∧ (pwrApply d q a r v).ccMem = d.ccMem := by
  unfold pwrApply
  simp

@[simp] theorem mem_evtApply (d : Device) (a : Nat) (r : RegRow) (v : Word) :
    (evtApply d a r v).delay = d.delay ∧ (evtApply d a r v).ccMem = d.ccMem := by
  unfold evtApply
  dsimp only
  (repeat' split) <;> simp

@[simp] theorem mem_routeApplyReg (d : Device) (q : Req) (a : Nat) (r : RegRow) (v : Word) :
    (routeApplyReg d q a r v).delay = d.delay ∧ (routeApplyReg d q a r v).ccMem = d.ccMem := by
  unfold routeApplyReg
  simp

@[simp] theorem mem_mixApplyReg (d : Device) (q : Req) (a : Nat) (r : RegRow) (v : Word) :
    (mixApplyReg d q a r v).delay = d.delay ∧ (mixApplyReg d q a r v).ccMem = d.ccMem := by
  unfold mixApplyReg
  simp

@[simp] theorem mem_coachApply (d : Device) (a : Nat) (r : RegRow) (v : Word) :
    (coachApply d a r v).delay = d.delay ∧ (coachApply d a r v).ccMem = d.ccMem := by
  unfold coachApply
  simp

@[simp] theorem mem_spiApply (d : Device) (q : Req) (a : Nat) (r : RegRow) (v : Word) :
    (spiApply d q a r v).delay = d.delay ∧ (spiApply d q a r v).ccMem = d.ccMem := by
  unfold spiApply
  simp

@[simp] theorem mem_queApply (d : Device) (q : Req) (a : Nat) (r : RegRow) (v : Word) :
    (queApply d q a r v).delay = d.delay ∧ (queApply d q a r v).ccMem = d.ccMem := by
  unfold queApply
  dsimp only
  refine mem_ite (mem_hostPush _ _ _ _ _) (mem_ite (mem_onQueue _ _ _ _ _ (fun d => ?_))
    (mem_ite (mem_onQueue _ _ _ _ _ (fun d => mem_queCtl _ _)) (mem_plainWrite _ _ _ _)))
  split <;> simp

@[simp] theorem mem_linkApply (d : Device) (a : Nat) (r : RegRow) (v : Word) :
    (linkApply d a r v).delay = d.delay ∧ (linkApply d a r v).ccMem = d.ccMem := by
  unfold linkApply
  simp

@[simp] theorem mem_guardApply (d : Device) (q : Req) (a : Nat) (r : RegRow) (v : Word) :
    (guardApply d q a r v).delay = d.delay ∧ (guardApply d q a r v).ccMem = d.ccMem := by
  unfold guardApply
  simp

@[simp] theorem mem_pcieApply (d : Device) (a : Nat) (r : RegRow) (v : Word) :
    (pcieApply d a r v).delay = d.delay ∧ (pcieApply d a r v).ccMem = d.ccMem := by
  unfold pcieApply
  simp

@[simp] theorem mem_applyWide (d : Device) (q : Req) (a : Nat) (addr : Nat) (r : RegRow) (v : Nat) :
    (applyWide d q a addr r v).delay = d.delay ∧ (applyWide d q a addr r v).ccMem = d.ccMem := by
  unfold applyWide
  dsimp only
  (repeat' split) <;> simp

@[simp] theorem mem_writeWide (d : Device) (q : Req) (a : Nat) (v : Nat) :
    (writeWide d q a v).delay = d.delay ∧ (writeWide d q a v).ccMem = d.ccMem := by
  unfold writeWide
  (repeat' split) <;> simp

@[simp] theorem mem_mediaApply (d : Device) (a : Nat) (p : PendWr) :
    (mediaApply d a p).delay = d.delay ∧ (mediaApply d a p).ccMem = d.ccMem := by
  unfold mediaApply
  simp

@[simp] theorem mem_aonApply (d : Device) (a : Nat) (p : PendWr) :
    (aonApply d a p).delay = d.delay ∧ (aonApply d a p).ccMem = d.ccMem := by
  unfold aonApply
  dsimp only
  (repeat' split) <;> simp

@[simp] theorem mem_handshakeDone (f : Device → Nat → PendWr → Device) (d : Device) (a : Nat)
    (h : ∀ d a p, (f d a p).delay = d.delay ∧ (f d a p).ccMem = d.ccMem) :
    (handshakeDone f d a).delay = d.delay ∧ (handshakeDone f d a).ccMem = d.ccMem := by
  unfold handshakeDone
  split <;> simp [h]

@[simp] theorem mem_mediaDone (d : Device) (a : Nat) :
    (mediaDone d a).delay = d.delay ∧ (mediaDone d a).ccMem = d.ccMem := by
  unfold mediaDone
  simp

@[simp] theorem mem_aonDone (d : Device) (a : Nat) :
    (aonDone d a).delay = d.delay ∧ (aonDone d a).ccMem = d.ccMem := by
  unfold aonDone
  simp

@[simp] theorem mem_putTeam (d : Device) (n : Fin 68) (k : Nat) (v : Word) :
    (putTeam d n k v).delay = d.delay ∧ (putTeam d n k v).ccMem = d.ccMem := by
  unfold putTeam
  simp

@[simp] theorem mem_putEngReg (d : Device) (n : Fin 68) (o : Nat) (v : Word) :
    (putEngReg d n o v).delay = d.delay ∧ (putEngReg d n o v).ccMem = d.ccMem := by
  unfold putEngReg
  simp

@[simp] theorem mem_engWinTakes (d : Device) (n : Fin 68) (o : Nat) :
    (engWinTakes d n o).delay = d.delay ∧ (engWinTakes d n o).ccMem = d.ccMem := by
  unfold engWinTakes
  simp

@[simp] theorem mem_tagWrites (f : Device → Nat → Nat → Device) (w : Nat) (v : Word) (d : Device) (len : Nat)
    (h : ∀ d a c, (f d a c).delay = d.delay ∧ (f d a c).ccMem = d.ccMem) :
    (tagWrites f w v d len).delay = d.delay ∧ (tagWrites f w v d len).ccMem = d.ccMem := by
  unfold tagWrites
  simp [h]

@[simp] theorem mem_putShadow (d : Device) (n : Fin 68) (w : Nat) (v : TWord) :
    (putShadow d n w v).delay = d.delay ∧ (putShadow d n w v).ccMem = d.ccMem := by
  unfold putShadow
  simp

@[simp] theorem mem_engWinWrite (d : Device) (n : Fin 68) (o : Nat) (len : Nat) (v : Word) (t : Tag) :
    (engWinWrite d n o len v t).delay = d.delay ∧ (engWinWrite d n o len v t).ccMem = d.ccMem := by
  unfold engWinWrite
  simp

@[simp] theorem mem_engWinPut (d : Device) (n : Fin 68) (o : Nat) (len : Nat) (v : Word) (t : Tag) :
    (engWinPut d n o len v t).delay = d.delay ∧ (engWinPut d n o len v t).ccMem = d.ccMem := by
  unfold engWinPut
  dsimp only
  (repeat' split) <;> simp

@[simp] theorem mem_groupWrite (d : Device) (q : Req) (a : Nat) (g : Nat) (o : Nat) (len : Nat) (v : Word) (t : Tag) :
    (groupWrite d q a g o len v t).delay = d.delay ∧ (groupWrite d q a g o len v t).ccMem = d.ccMem := by
  unfold groupWrite
  simp

theorem byteAbove_fst (x : Device × Nat) (below i : Nat) : (byteAbove x below i).1 = x.1 := rfl

theorem mem_tagByteRead (q : Req) (a : Nat) (r : Device × Nat) (i : Nat) :
    (tagByteRead q a r i).1.delay = r.1.delay ∧ (tagByteRead q a r i).1.ccMem = r.1.ccMem := by
  unfold tagByteRead
  rw [byteAbove_fst]
  exact mem_hostTagRead _ _ _

theorem mem_deadOr {α : Type} {d : Device} {x : α} {o : Option Device} {r : Device × α}
    (ho : ∀ e, o = some e → e.delay = d.delay ∧ e.ccMem = d.ccMem) (hr : r.1.delay = d.delay ∧ r.1.ccMem = d.ccMem) :
    (deadOr o x r).1.delay = d.delay ∧ (deadOr o x r).1.ccMem = d.ccMem := by
  cases o with
  | none => exact hr
  | some e => exact ho e rfl

@[simp] theorem mem_delayTagRead (d : Device) (q : Req) (a len : Nat) :
    (delayTagRead d q a len).1.delay = d.delay ∧ (delayTagRead d q a len).1.ccMem = d.ccMem := by
  unfold delayTagRead
  exact mem_deadOr (fun e h => mem_hostDelayBlocked h) ⟨foldl_fst_delay _ (fun r i => (mem_tagByteRead q a r i).1) _ _,
    foldl_fst_ccMem _ (fun r i => (mem_tagByteRead q a r i).2) _ _⟩

theorem mem_deadAccess {d e : Device} {q : Req} {a : Nat} (h : deadAccess d q a = some e) :
    e.delay = d.delay ∧ e.ccMem = d.ccMem := by
  unfold deadAccess at h
  split at h
  · cases h
    exact mem_absentAccess _ _ _ _
  · split at h
    · exact mem_hostDelayBlocked h
    · cases h

theorem intWord_fst (r : Device × Nat) : (intWord r).1 = r.1 := rfl

@[simp] theorem mem_readWord (d : Device) (q : Req) (a len : Nat) :
    (readWord d q a len).1.delay = d.delay ∧ (readWord d q a len).1.ccMem = d.ccMem := by
  unfold readWord
  dsimp only
  split
  · simp
  · split
    · rw [intWord_fst]
      exact mem_delayTagRead _ _ _ _
    · simp
    · split <;> simp
    · simp
    · rw [intWord_fst]
      simp
    · simp
    · simp
    · simp
    · exact mem_deadOr (fun e h => mem_hostDelayBlocked h) (mem_hostParity _ _ _)

@[simp] theorem mem_both (f g : Device → Device) (d : Device)
    (hf : ∀ d, (f d).delay = d.delay ∧ (f d).ccMem = d.ccMem) (hg : ∀ d, (g d).delay = d.delay ∧ (g d).ccMem = d.ccMem) :
    (both f g d).delay = d.delay ∧ (both f g d).ccMem = d.ccMem := by
  unfold both
  simp [hf, hg]

@[simp] theorem mem_hspiBegin (d : Device) :
    (hspiBegin d).delay = d.delay ∧ (hspiBegin d).ccMem = d.ccMem := by
  unfold hspiBegin
  simp

@[simp] theorem mem_hspiReject (d : Device) (code : Nat) (bits : Nat) (addr : Word) (write : Bool) :
    (hspiReject d code bits addr write).delay = d.delay ∧ (hspiReject d code bits addr write).ccMem = d.ccMem := by
  unfold hspiReject
  simp

@[simp] theorem mem_hspiLate (d : Device) (k : Nat) :
    (hspiLate d k).delay = d.delay ∧ (hspiLate d k).ccMem = d.ccMem := by
  unfold hspiLate
  simp

@[simp] theorem mem_hspiWrite (d : Device) (bits : Nat) (addr : Word) (ws : List Word) :
    (hspiWrite d bits addr ws).delay = d.delay ∧ (hspiWrite d bits addr ws).ccMem = d.ccMem := by
  unfold hspiWrite
  dsimp only
  (repeat' split) <;> simp

@[simp] theorem mem_hspiQread (d : Device) (bits : Nat) (addr : Word) :
    (hspiQread d bits addr).delay = d.delay ∧ (hspiQread d bits addr).ccMem = d.ccMem := by
  unfold hspiQread
  dsimp only
  (repeat' split) <;> simp

@[simp] theorem mem_hspiStatus (d : Device) (bits : Nat) (addr : Word) :
    (hspiStatus d bits addr).delay = d.delay ∧ (hspiStatus d bits addr).ccMem = d.ccMem := by
  unfold hspiStatus
  simp

@[simp] theorem mem_hspiFetch (d : Device) (bits : Nat) (addr : Word) :
    (hspiFetch d bits addr).delay = d.delay ∧ (hspiFetch d bits addr).ccMem = d.ccMem := by
  unfold hspiFetch
  simp

@[simp] theorem mem_hspiReserved (d : Device) (bits : Nat) (addr : Word) :
    (hspiReserved d bits addr).delay = d.delay ∧ (hspiReserved d bits addr).ccMem = d.ccMem := by
  unfold hspiReserved
  simp

@[simp] theorem mem_pcieUr (d : Device) :
    (pcieUr d).delay = d.delay ∧ (pcieUr d).ccMem = d.ccMem := by
  unfold pcieUr
  simp

@[simp] theorem mem_pcieRequest (d : Device) (a : Nat) (f : Device → Device)
    (h : ∀ d, (f d).delay = d.delay ∧ (f d).ccMem = d.ccMem) :
    (pcieRequest d a f).delay = d.delay ∧ (pcieRequest d a f).ccMem = d.ccMem := by
  unfold pcieRequest
  simp [h]

@[simp] theorem mem_pcieUnsupported (d : Device) :
    (pcieUnsupported d).delay = d.delay ∧ (pcieUnsupported d).ccMem = d.ccMem := by
  unfold pcieUnsupported
  simp

@[simp] theorem mem_pciePoisoned (d : Device) :
    (pciePoisoned d).delay = d.delay ∧ (pciePoisoned d).ccMem = d.ccMem := by
  unfold pciePoisoned
  simp

@[simp] theorem mem_pcieLink (d : Device) (up : Bool) (speed : BitVec 2) (width : BitVec 2) (pstate : BitVec 2) :
    (pcieLink d up speed width pstate).delay = d.delay ∧ (pcieLink d up speed width pstate).ccMem = d.ccMem := by
  unfold pcieLink
  simp

@[simp] theorem mem_pcieConfigRead (d : Device) (o : Nat) :
    (pcieConfigRead d o).delay = d.delay ∧ (pcieConfigRead d o).ccMem = d.ccMem := mem_fresh d

@[simp] theorem mem_pcieConfig (d : Device) (c : PcieCfg) :
    (pcieConfig d c).delay = d.delay ∧ (pcieConfig d c).ccMem = d.ccMem := by
  unfold pcieConfig
  dsimp only
  (repeat' split) <;> simp

@[simp] theorem mem_perstFall (d : Device) :
    (perstFall d).delay = d.delay ∧ (perstFall d).ccMem = d.ccMem := by
  unfold perstFall
  simp

@[simp] theorem mem_perstRise (d : Device) :
    (perstRise d).delay = d.delay ∧ (perstRise d).ccMem = d.ccMem := by
  unfold perstRise
  simp

@[simp] theorem mem_gpioChange (d : Device) (k : Fin 32) (b : Bool) :
    (gpioChange d k b).delay = d.delay ∧ (gpioChange d k b).ccMem = d.ccMem := by
  unfold gpioChange
  simp

@[simp] theorem mem_alu2 (i : Issue) (ok : Bool) (rule : KindRule) (gd : GReg) (ga : GReg) (b : Src) (f : Int → Int → Narrowed) (d : Device) :
    (alu2 i ok rule gd ga b f d).delay = d.delay ∧ (alu2 i ok rule gd ga b f d).ccMem = d.ccMem := by
  unfold alu2
  simp

@[simp] theorem mem_alu1 (i : Issue) (ok : Bool) (gd : GReg) (ga : GReg) (f : Int → Narrowed) (d : Device) :
    (alu1 i ok gd ga f d).delay = d.delay ∧ (alu1 i ok gd ga f d).ccMem = d.ccMem := by
  unfold alu1
  simp

@[simp] theorem mem_aluCmp (i : Issue) (ok : Bool) (gd : GReg) (ga : GReg) (b : Src) (f : Int → Int → Bool) (d : Device) :
    (aluCmp i ok gd ga b f d).delay = d.delay ∧ (aluCmp i ok gd ga b f d).ccMem = d.ccMem := by
  unfold aluCmp
  simp

@[simp] theorem mem_aluBits (i : Issue) (ok : Bool) (gd : GReg) (ga : GReg) (gb : GReg) (f : Word → Word → Word) (d : Device) :
    (aluBits i ok gd ga gb f d).delay = d.delay ∧ (aluBits i ok gd ga gb f d).ccMem = d.ccMem := by
  unfold aluBits
  simp

@[simp] theorem mem_aluShift (i : Issue) (gd : GReg) (ga : GReg) (k : Count) (f : Word → Int → Narrowed) (d : Device) :
    (aluShift i gd ga k f d).delay = d.delay ∧ (aluShift i gd ga k f d).ccMem = d.ccMem := by
  unfold aluShift
  simp

@[simp] theorem mem_startDiv (i : Issue) (frac : Bool) (s : Bool) (gd : GReg) (ga : GReg) (gb : GReg) (d : Device) :
    (startDiv i frac s gd ga gb d).delay = d.delay ∧ (startDiv i frac s gd ga gb d).ccMem = d.ccMem := by
  unfold startDiv
  simp

@[simp] theorem mem_accumOp (i : Issue) (qd : Fin 4) (qa : Fin 4) (qb : Fin 4) (f : Int → Int → Narrowed) (d : Device) :
    (accumOp i qd qa qb f d).delay = d.delay ∧ (accumOp i qd qa qb f d).ccMem = d.ccMem := by
  unfold accumOp
  simp

@[simp] theorem mem_accumShift (i : Issue) (qd : Fin 4) (qa : Fin 4) (f : Int → Narrowed) (d : Device) :
    (accumShift i qd qa f d).delay = d.delay ∧ (accumShift i qd qa f d).ccMem = d.ccMem := by
  unfold accumShift
  simp

@[simp] theorem mem_putTeamBit (d : Device) (n : Fin 68) (b : Nat) (v : Bool) :
    (putTeamBit d n b v).delay = d.delay ∧ (putTeamBit d n b v).ccMem = d.ccMem := by
  unfold putTeamBit
  simp

@[simp] theorem mem_writeBit (d : Device) (i : Issue) (b : Nat) (v : Bool) :
    (writeBit d i b v).delay = d.delay ∧ (writeBit d i b v).ccMem = d.ccMem := by
  unfold writeBit
  dsimp only
  (repeat' split) <;> simp

@[simp] theorem mem_tasBit (d : Device) (i : Issue) (b : Nat) :
    (tasBit d i b).1.delay = d.delay ∧ (tasBit d i b).1.ccMem = d.ccMem := by
  unfold tasBit
  dsimp only
  (repeat' split) <;> simp

@[simp] theorem mem_ccKeep (d : Device) (i : Issue) (a : Nat) :
    (ccKeep d i a).delay = d.delay ∧ (ccKeep d i a).ccMem = d.ccMem := by
  unfold ccKeep
  (repeat' split) <;> simp

@[simp] theorem mem_stepPtr (d : Device) (i : Issue) (w : Work) (m : Ma) :
    (stepPtr d i w m).delay = d.delay ∧ (stepPtr d i w m).ccMem = d.ccMem := by
  unfold stepPtr
  (repeat' split) <;> simp

@[simp] theorem mem_giveReg (d : Device) (i : Issue) (w : Work) (m : Ma) (g : GReg) (v : TWord) :
    (giveReg d i w m g v).delay = d.delay ∧ (giveReg d i w m g v).ccMem = d.ccMem := by
  unfold giveReg
  simp

@[simp] theorem mem_macOne (i : Issue) (sat : Bool) (minus : Bool) (x : TWord) (dk : Fin 16) (w : Work) (d : Device) (n : Fin 4) :
    (macOne i sat minus x dk w d n).delay = d.delay ∧ (macOne i sat minus x dk w d n).ccMem = d.ccMem := by
  unfold macOne
  dsimp only
  (repeat' split) <;> simp

@[simp] theorem mem_rotate (i : Issue) (dk : Fin 16) (w : Work) (d : Device) :
    (rotate i dk w d).delay = d.delay ∧ (rotate i dk w d).ccMem = d.ccMem := by
  unfold rotate
  simp

end Sys2Proof.Machine
end

