-- ==== Sys2Proof/Laws/Memory.lean ====
section
/-! SUPPORT. The canonical form of delay memory and of the control-core memories: every operation that writes them keeps it. -/

namespace Sys2Proof.Machine


theorem wf_iff (d : Device) : Memory.wf d = true ↔ sparseWf cellUninit d.delay = true ∧ sparseWf cellUninit d.ccMem = true := by
  simp [Memory.wf]

/-- What leaves both memories as they are keeps their form. -/
theorem wf_frame {d e : Device} (m : e.delay = d.delay ∧ e.ccMem = d.ccMem) (h : Memory.wf d = true) :
    Memory.wf e = true := by
  rw [wf_iff] at h ⊢
  rw [m.1, m.2]
  exact h

theorem wf_ite {c : Prop} [Decidable c] {a b : Device} (ha : Memory.wf a = true) (hb : Memory.wf b = true) :
    Memory.wf (if c then a else b) = true := by split <;> assumption

theorem wf_ite_fst {α : Type} {c : Prop} [Decidable c] {a b : Device × α} (ha : Memory.wf a.1 = true) (hb : Memory.wf b.1 = true) :
    Memory.wf (if c then a else b).1 = true := by split <;> assumption

theorem wf_foldl {α : Type} (g : Device → α → Device) (hg : ∀ d x, Memory.wf d = true → Memory.wf (g d x) = true)
    (l : List α) {d : Device} (h : Memory.wf d = true) : Memory.wf (l.foldl g d) = true := by
  induction l generalizing d with
  | nil => exact h
  | cons x l ih => exact ih (hg d x h)

/-! ### The operations that write the memories -/

theorem wf_putDelay {d : Device} (h : Memory.wf d = true) (w : Nat) (v : TWord) : Memory.wf (putDelay d w v) = true := by
  rw [wf_iff] at h
  refine wf_frame (mem_clearResv _ _) ((wf_iff _).2 ⟨?_, ?_⟩)
  · exact sparseWf_put cellUninit d.delay w _ h.1
  · exact h.2

theorem wf_putCc {d : Device} (h : Memory.wf d = true) (w : Nat) (v : TWord) : Memory.wf (putCc d w v) = true := by
  rw [wf_iff] at h
  refine wf_frame (mem_clearResv _ _) ((wf_iff _).2 ⟨?_, ?_⟩)
  · exact h.1
  · exact sparseWf_put cellUninit d.ccMem w _ h.2

theorem wf_wipeBank {d : Device} (h : Memory.wf d = true) (b : Fin 128) : Memory.wf (wipeBank d b) = true := by
  rw [wf_iff] at h
  exact (wf_iff _).2 ⟨sparseWf_clear cellUninit d.delay _ _ h.1, h.2⟩

theorem wf_startSweep {d : Device} (h : Memory.wf d = true) (b : Fin 128) : Memory.wf (startSweep d b) = true :=
  wf_frame (mem_setBank _ _ _) (wf_wipeBank h b)

theorem wf_bankCommand {d : Device} (h : Memory.wf d = true) (b : Fin 128) (v : Nat) : Memory.wf (bankCommand d b v) = true := by
  have hf := fun n => wf_frame (mem_setF d (F.DLY_BANKPWR.PWR (b.val / 16) (b.val % 16)) n) h
  have h0 := hf 0
  have h1 := hf 1
  have h2 := wf_wipeBank (hf 2) b
  unfold bankCommand
  dsimp only
  generalize setF d (F.DLY_BANKPWR.PWR (b.val / 16) (b.val % 16)) 0 = e0 at h0
  generalize setF d (F.DLY_BANKPWR.PWR (b.val / 16) (b.val % 16)) 1 = e1 at h1
  generalize wipeBank (setF d (F.DLY_BANKPWR.PWR (b.val / 16) (b.val % 16)) 2) b = e2 at h2
  refine wf_ite h (wf_ite ?_ (wf_ite (wf_ite h (wf_ite h1 (wf_frame (mem_retain _ _) h1))) (wf_ite (wf_frame (mem_setBank _ _ _) h2) h)))
  split
  · exact wf_frame (mem_setBank _ _ _) h0
  · exact wf_frame (mem_setBank _ _ _) h0
  · exact h0

theorem wf_bankPowerWrite {d : Device} (h : Memory.wf d = true) (k : Fin 8) (v : Word) :
    Memory.wf (bankPowerWrite d k v) = true := wf_foldl _ (fun _ _ h => wf_bankCommand h _ _) _ h

theorem wf_canaryFail {d : Device} (h : Memory.wf d = true) (b : Fin 128) : Memory.wf (canaryFail d b) = true :=
  wf_frame (mem_raiseEv _ _) (wf_startSweep (wf_frame (mem_setF _ _ _) h) b)

theorem wf_retainEnd {d : Device} (h : Memory.wf d = true) (b : Fin 128) (lost : List (Fin 4 × Cell)) (f : Device → Device)
    (hf : ∀ d, Memory.wf d = true → Memory.wf (f d) = true) : Memory.wf (retainEnd d b lost f) = true := by
  have hl : Memory.wf (lost.foldl (putCanary b) d) = true := wf_foldl _ (fun d c hd => wf_frame (mem_putCanary b d c) hd) _ h
  exact wf_ite (hf _ hl) (wf_canaryFail hl b)

theorem wf_transitionDone {d : Device} (h : Memory.wf d = true) (b : Fin 128) (lost : List (Fin 4 × Cell)) :
    Memory.wf (transitionDone d b lost) = true := by
  unfold transitionDone
  split
  · exact wf_retainEnd h b lost _ (fun _ hd => wf_frame (mem_setBank _ _ _) hd)
  · exact wf_startSweep h b
  · exact h

theorem wf_deepBank {d : Device} (h : Memory.wf d = true) (b : Fin 128) : Memory.wf (deepBank d b) = true := by
  unfold deepBank
  exact wf_ite h (wf_ite (wf_frame (mem_retain _ _) h) (wf_ite h (wf_frame (mem_setBank _ _ _) (wf_wipeBank h b))))

theorem wf_deepLeave {d : Device} (h : Memory.wf d = true) (lost : List (Fin 128 × Fin 4 × Cell)) (b : Fin 128) :
    Memory.wf (deepLeave lost d b) = true := by
  unfold deepLeave
  refine wf_ite h (wf_ite (wf_retainEnd h b _ _ (fun d hd => ?_)) (wf_ite h (wf_startSweep h b)))
  exact wf_ite (wf_frame (mem_setBank _ _ _) hd) (wf_ite (wf_frame (mem_setBank _ _ _) (wf_wipeBank hd b)) hd)

/-! ### Host-side accesses of delay memory -/

theorem wf_delayPayloadWrite {d : Device} (h : Memory.wf d = true) (q : Req) (w o n : Nat) (v : Word) :
    Memory.wf (delayPayloadWrite d q w o n v) = true := by
  unfold delayPayloadWrite
  exact wf_ite (wf_putDelay h w _) (wf_putDelay (wf_frame (mem_hostParity _ _ _) h) w _)

theorem wf_blocked {d e : Device} (h : Memory.wf d = true) (q : Req) (w addr : Nat) (he : Memory.wf e = true) :
    Memory.wf ((hostDelayBlocked d q w addr).getD e) = true := by
  cases hb : hostDelayBlocked d q w addr with
  | none => exact he
  | some x => exact wf_frame (mem_hostDelayBlocked hb) h

theorem wf_hostDelayWrite {d : Device} (h : Memory.wf d = true) (q : Req) (w addr o n : Nat) (v : Word) :
    Memory.wf (hostDelayWrite d q w addr o n v) = true := wf_blocked h q w addr (wf_delayPayloadWrite h q w o n v)

theorem wf_hostTagWrite {d : Device} (h : Memory.wf d = true) (q : Req) (w code : Nat) :
    Memory.wf (hostTagWrite d q w code) = true := wf_putDelay (wf_frame (mem_hostParity _ _ _) h) w _

theorem wf_hostAtomic {d : Device} (h : Memory.wf d = true) (q : Req) (w addr : Nat) (op : AliasOp) (v : Word) :
    Memory.wf (hostAtomic d q w addr op v) = true := by
  have g : ∀ m, Memory.wf { hostParity d q w with oldAtomic := m } = true := fun _ => wf_frame (mem_hostParity d q w) h
  refine wf_blocked h q w addr ?_
  cases op <;> exact wf_putDelay (g _) w _

theorem wf_delayTagWrite {d : Device} (h : Memory.wf d = true) (q : Req) (a len : Nat) (v : Word) :
    Memory.wf (delayTagWrite d q a len v) = true :=
  wf_blocked h q _ a (wf_foldl _ (fun _ _ h => wf_hostTagWrite h q _ _) _ h)

/-! ### Records -/

theorem wf_putPreload {d : Device} (h : Memory.wf d = true) (x : Header) (i : Nat) (v : Word) :
    Memory.wf (putPreload d x i v) = true := wf_blocked h .loader _ _ (wf_putDelay h _ _)

theorem wf_putTable {d : Device} (h : Memory.wf d = true) (x : Header) (i : Nat) (v : Word) :
    Memory.wf (putTable d x i v) = true := by
  unfold putTable
  split
  · exact wf_frame (mem_putEngTable _ _ _ _) h
  · exact wf_putPreload h x i v
  · exact h
  · exact h
  · exact h

theorem wf_putTables {d : Device} (h : Memory.wf d = true) (x : Header) (i : Nat) (l : List Word) :
    Memory.wf (putTables d x i l) = true := by
  induction l generalizing d i with
  | nil => exact h
  | cons v l ih => exact ih (wf_putTable h x i v) (i + 1)

theorem wf_streamWords {d : Device} (h : Memory.wf d = true) (p : Fin 3) (x : Header) :
    Memory.wf (streamWords d p x).1 = true := by
  have hg : Memory.wf (gather d p (x.len + 4)).1 = true := wf_frame (mem_gather _ _ _) h
  have ht := fun i l => wf_putTables hg x i l
  unfold streamWords
  dsimp only
  split
  · refine wf_frame (mem_abortRecord _ _ _) ?_
    refine wf_ite (wf_ite (wf_frame (mem_setPath _ _ _) (ht _ _)) (ht _ _)) hg
  · refine wf_ite_fst (wf_frame (mem_streamEnd _ _ _) ?_) ?_
    all_goals exact wf_ite (wf_ite (wf_frame (mem_setPath _ _ _) (ht _ _)) (ht _ _)) hg

theorem wf_streamStep {d : Device} (h : Memory.wf d = true) (p : Fin 3) (x : Header) :
    Memory.wf (streamStep d p x).1 = true := by
  unfold streamStep
  split
  · exact wf_streamWords h p x
  · split
    · exact wf_streamWords (wf_frame (mem_setPath _ _ _) h) p x
    · exact wf_ite_fst h (wf_ite_fst (wf_frame (mem_quiesce _ _) h) (wf_streamWords (wf_frame (mem_setPath _ _ _) h) p x))

theorem wf_applyWrite {d : Device} (h : Memory.wf d = true) (p : Fin 3) (x : Header) (ps : List Nat) :
    Memory.wf (applyWrite d p x ps) = true := by
  have hr : Memory.wf (reloadDue d x.r) = true := wf_frame (mem_reloadDue _ _) h
  refine wf_frame (mem_noteApplied _ _ _) ?_
  refine wf_ite (wf_frame (mem_putBlock _ _ _ _) hr) (wf_ite (wf_frame (mem_putBlock _ _ _ _) hr) ?_)
  have hp := fun l => wf_putTables hr x x.off l
  have hb := fun l => wf_ite (c := x.r = 0xA2) (wf_frame (mem_bandLoaded _ (x.sel - 1)) (hp l)) (hp l)
  exact wf_ite (wf_frame (mem_setPath _ _ _) (hb _)) (hb _)

theorem wf_heldEnd {d : Device} (h : Memory.wf d = true) (p : Fin 3) (x : Header) :
    Memory.wf (heldEnd d p x).1 = true := by
  unfold heldEnd
  dsimp only
  split
  · exact wf_frame (mem_skipRecord _ _ _ _) h
  · refine wf_ite_fst (wf_ite_fst ?_ ?_) (wf_ite_fst ?_ (wf_ite_fst h (wf_ite_fst ?_ ?_)))
    · exact wf_frame (mem_batchPass _ _) (wf_frame (mem_countApplied _ _) h)
    · exact wf_frame (mem_batchFail _ _) (wf_frame (mem_recReject _ _ _ _ _) h)
    · exact wf_frame (mem_closeRecord _ _) (wf_frame (mem_acceptCommit _ _ _) (wf_frame (mem_countApplied _ _) h))
    · exact wf_frame (mem_quiesce _ _) h
    · exact wf_frame (mem_closeRecord _ _) (wf_applyWrite h p x _)

theorem wf_heldStep {d : Device} (h : Memory.wf d = true) (p : Fin 3) (x : Header) :
    Memory.wf (heldStep d p x).1 = true := by
  have hg : Memory.wf (gather d p (x.len + 4)).1 = true := wf_frame (mem_gather _ _ _) h
  unfold heldStep
  exact wf_ite_fst (wf_frame (mem_abortRecord _ _ _) hg) (wf_ite_fst hg (wf_ite_fst (wf_frame (mem_abortRecord _ _ _) hg)
    (wf_heldEnd hg p x)))

theorem wf_recordBody {d : Device} (h : Memory.wf d = true) (p : Fin 3) : Memory.wf (recordBody d p).1 = true := by
  unfold recordBody
  have hb : Memory.wf (if (path d p).batch then d else batchBit d p true) = true := wf_ite h (wf_frame (mem_batchBit _ _ _) h)
  generalize (if (path d p).batch then d else batchBit d p true) = e at hb
  have hg : Memory.wf (gather e p 3).1 = true := wf_frame (mem_gather _ _ _) hb
  exact wf_ite_fst (wf_frame (mem_abortRecord _ _ _) hb) (wf_ite_fst (wf_frame (mem_abortRecord _ _ _) hg) (wf_ite_fst hg
    (wf_ite_fst (wf_frame (mem_abortRecord _ _ _) hg) (wf_ite_fst (wf_streamStep hg p _) (wf_heldStep hg p _)))))

theorem wf_recordStep {d : Device} (h : Memory.wf d = true) (p : Fin 3) (want : Nat → Bool) :
    Memory.wf (recordStep d p want).1 = true := by
  unfold recordStep
  refine wf_ite_fst h (wf_ite_fst (wf_frame (mem_quePops _ _ _) h) ?_)
  split
  · exact h
  · have hb := wf_recordBody h p
    exact wf_ite_fst (wf_frame (mem_atBoundary _ _) (wf_ite hb hb)) h

theorem wf_recordRow {d : Device} (h : Memory.wf d = true) (p : Fin 3) (ws : List Word) (want : Nat → Bool) :
    Memory.wf (recordRow d p ws want) = true :=
  wf_recordStep (wf_ite (wf_frame (mem_supplyFlash _ _) h) h) p want


/-! ### Power -/

theorem wf_entryTake {d : Device} (h : Memory.wf d = true) (t a0 : Nat) : Memory.wf (entryTake d t a0) = true := by
  have hq : Memory.wf ((List.finRange 256).foldl drainQueue d) = true :=
    wf_foldl _ (fun d q hd => wf_frame (mem_drainQueue d q) hd) _ h
  have hb : ∀ e : Device, Memory.wf e = true → Memory.wf ((List.finRange 128).foldl deepBank e) = true :=
    fun e he => wf_foldl _ (fun d b hd => wf_deepBank hd b) _ he
  have hp : ∀ e : Device, Memory.wf e = true → ∀ x : PState, Memory.wf { e with pstate := x } = true := fun e he _ => he
  have hw : ∀ e : Device, Memory.wf e = true → ∀ x : Option Nat, Memory.wf { e with wakePend := x } = true := fun e he _ => he
  have h1 : ∀ e : Device, Memory.wf e = true → ∀ (x y : Nat), Memory.wf { e with entry := none, restT0 := x, restA0 := y, winBad := true } = true :=
    fun e he _ _ => he
  have h2 := fun x y n => wf_frame (mem_setF _ F.TIME_AON.COUNT n) (h1 _ hq x y)
  unfold entryTake
  generalize (List.finRange 256).foldl drainQueue d = e at h2
  dsimp only
  have h3 := h2 (tod e) (a0 % 2 ^ 48) a0
  generalize setF _ F.TIME_AON.COUNT a0 = e' at h3
  have h4 : Memory.wf (if t = 2 then (List.finRange 128).foldl deepBank e' else e') = true := wf_ite (hb _ h3) h3
  generalize (if t = 2 then (List.finRange 128).foldl deepBank e' else e') = f at h4
  have h5 : Memory.wf (if t = 3 then f else padLatch f) = true := wf_ite h4 (wf_frame (mem_padLatch _) h4)
  generalize (if t = 3 then f else padLatch f) = f' at h5
  have h6 := wf_frame (mem_setF _ F.PWR_STAT.STATE (3 + t)) (hp _ h5 (if t = 1 then .sleep else if t = 2 then .deep else .off))
  generalize setF _ F.PWR_STAT.STATE (3 + t) = g at h6
  split
  · exact wf_frame (mem_exitBegin _ _) (hw _ h6 _)
  · exact h6

theorem wf_entryCommit {d : Device} (h : Memory.wf d = true) (a0 : Nat) : Memory.wf (entryCommit d a0) = true := by
  have hc : Memory.wf (entryCheck d) = true := wf_frame (mem_entryCheck _) h
  unfold entryCommit
  dsimp only
  split
  · exact hc
  · exact wf_ite (wf_entryTake hc _ a0) hc

theorem wf_exitComplete {d : Device} (h : Memory.wf d = true) (a1 : Nat) (lost : List (Fin 128 × Fin 4 × Cell)) :
    Memory.wf (exitComplete d a1 lost) = true := by
  have hb : ∀ e : Device, Memory.wf e = true → Memory.wf ((List.finRange 128).foldl (deepLeave lost) e) = true :=
    fun e he => wf_foldl _ (fun d b hd => wf_deepLeave hd lost b) _ he
  have hl : ∀ e : Device, Memory.wf e = true → Memory.wf ((List.finRange 8).foldl linkRetrain e) = true :=
    fun e he => wf_foldl _ (fun d b hd => wf_frame (mem_linkRetrain d b) hd) _ he
  have h0 : ∀ x : Vector Sap 32, Memory.wf { d with pstate := .run, exiting := false, halted := Vector.replicate 4 false, sap := x } = true :=
    fun _ => h
  have h1 := fun x => wf_frame (mem_setF _ F.PWR_STAT.STATE 0) (wf_frame (mem_settlePstate _) (h0 x))
  have h2 : ∀ e : Device, Memory.wf e = true → Memory.wf (raiseEv (join ((List.finRange 8).foldl linkRetrain
      (guardWake (restartDomains (freeLocked (timeBegin (pllsLock e) a1)) (fun _ => true))))) 0x1C0) = true := fun e he =>
    wf_frame (mem_raiseEv _ _) (wf_frame (mem_join _) (hl _ (wf_frame (mem_guardWake _) (wf_frame (mem_restartDomains _ _)
      (wf_frame (mem_freeLocked _) (wf_frame (mem_timeBegin _ _) (wf_frame (mem_pllsLock _) he)))))))
  unfold exitComplete
  refine wf_ite ?_ h
  dsimp only
  have h3 := h1 (d.sap.map (fun x => { x with frame := none, fresh := true, due := none }))
  generalize setF _ F.PWR_STAT.STATE 0 = e at h3
  have h4 : Memory.wf (if (decide (d.pstate = .deep)) = true then (List.finRange 128).foldl (deepLeave lost) e else e) = true :=
    wf_ite (hb _ h3) h3
  generalize (if (decide (d.pstate = .deep)) = true then (List.finRange 128).foldl (deepLeave lost) e else e) = f at h4
  have h5 := h2 f h4
  generalize raiseEv _ 0x1C0 = g at h5
  split
  · exact wf_frame (mem_pmbStatus _ _) (wf_frame (mem_pmbTake _) h5)
  · exact h5

/-! ### Reset and boot -/

theorem wf_reset : Memory.wf Device.reset = true := rfl

theorem wf_inReset (d : Device) (k : BootKind) : Memory.wf (inReset d k) = true := by
  have h : ∀ e : Device, e.delay = [] ∧ e.ccMem = [] → Memory.wf e = true := by
    intro e he
    rw [wf_iff, he.1, he.2]
    exact ⟨rfl, rfl⟩
  unfold inReset
  cases k <;> (refine h _ ?_; simp [Device.reset])

theorem wf_bootStart (d : Device) (k : BootKind) (sel a1 : Nat) : Memory.wf (bootStart d k sel a1) = true := by
  have h0 : Memory.wf (setF (setB (setB (readPart (inReset d k)) F.SYS_READY.FUSE true) F.SYS_READY.HSPI true) F.BOOT_STAT.SRC sel) = true :=
    wf_frame (mem_setF _ _ _) (wf_frame (mem_setB _ _ _) (wf_frame (mem_setB _ _ _) (wf_frame (mem_readPart _) (wf_inReset d k))))
  have h1 : ∀ e v x, Memory.wf e = true → Memory.wf (bootProgress (join (setB (guardProfile (setB (putFspi (setB (pllDefaults e)
      F.BOOT_STAT.BSDEF v) x) F.SYS_READY.SECURE true)) F.SYS_READY.GUARD true))) = true := fun e v x he =>
    wf_frame (mem_bootProgress _) (wf_frame (mem_join _) (wf_frame (mem_setB _ _ _) (wf_frame (mem_guardProfile _)
      (wf_frame (mem_setB _ _ _) (wf_frame (mem_putFspi _ _) (wf_frame (mem_setB _ _ _) (wf_frame (mem_pllDefaults _) he)))))))
  unfold bootStart
  dsimp only
  generalize setF _ F.BOOT_STAT.SRC sel = e at h0
  have h2 := h1 e (!bootBlockOk e) (fspiHdr (setB (pllDefaults e) F.BOOT_STAT.BSDEF (!bootBlockOk e))) h0
  generalize bootProgress _ = f at h2
  exact wf_ite (wf_frame (mem_setF _ _ _) (wf_frame (mem_timeBegin _ _) (wf_frame (mem_exitMark _) h2))) h2

theorem wf_abandonRegion {d : Device} (h : Memory.wf d = true) (r : Nat) : Memory.wf (abandonRegion d r) = true := by
  unfold abandonRegion
  have he : Memory.wf (emptyRegion d r) = true := wf_frame (mem_emptyRegion _ _) h
  exact wf_ite (wf_foldl _ (fun d b hd => wf_ite (wf_startSweep hd b) hd) _ he) he

theorem wf_unwind {d : Device} (h : Memory.wf d = true) (cores : Nat) : Memory.wf (unwind d cores) = true := by
  unfold unwind
  refine wf_frame (mem_setB _ _ _) (wf_frame (mem_setB _ _ _) (wf_frame (mem_setPath _ _ _) ?_))
  refine wf_frame (d := List.foldl _ _ _) ⟨rfl, rfl⟩ ?_
  refine wf_foldl _ (fun d c hd => wf_ite (wf_frame (mem_ccHold _ _) hd) hd) _ ?_
  refine wf_foldl _ (fun d r hd => wf_abandonRegion hd r) _ ?_
  refine wf_foldl _ (fun d k hd => ?_) _ h
  exact wf_foldl _ (fun d c hd => wf_frame (mem_cancelCommit _ _) hd) _ (wf_frame (mem_setCommits _ _ _) hd)

theorem wf_abandon {d : Device} (h : Memory.wf d = true) (slot block cores cause code : Nat) :
    Memory.wf (abandon d slot block cores cause code) = true :=
  wf_frame (mem_afterFailure _ _ _) (wf_frame (mem_raiseCtrl _ _) (wf_frame (mem_setB _ _ _) (wf_frame (mem_bootFail _ _ _ _ _)
    (wf_unwind h cores))))

theorem wf_bootBlock {d : Device} (h : Memory.wf d = true) (x : SlotRd) (b : List Word) (early again : Bool) :
    Memory.wf (bootBlock d x b early again) = true := by
  unfold bootBlock
  refine wf_ite (wf_ite ?_ (wf_abandon h _ _ _ _ _)) (wf_ite (wf_abandon h _ _ _ _ _) ?_)
  · exact wf_frame (mem_raiseCtrl _ _) (wf_frame (mem_setB _ _ _) (wf_frame (mem_setBoot _ _) (wf_frame (mem_setReg _ _ _) h)))
  · refine wf_frame (mem_setBoot _ _) ?_
    split
    · exact wf_frame (mem_blockCfg _ _) h
    · exact h

theorem wf_pushHeader {d : Device} (h : Memory.wf d = true) : Memory.wf (pushHeader d) = true := by
  unfold pushHeader
  have hp : Memory.wf (pushTake d (16 - d.pushHdr.length)).1 = true := wf_frame (mem_pushTake _ _) h
  have h1 : ∀ x y, Memory.wf { (pushTake d (16 - d.pushHdr.length)).1 with pushHdr := x, pushWait := y } = true := fun _ _ => hp
  refine wf_ite (wf_abandon (h1 _ _) _ _ _ _ _) (wf_ite (h1 _ _) ?_)
  split
  · exact wf_frame (mem_slotStart _ _ _) (wf_frame (mem_noteVariant _ _) hp)
  · exact wf_abandon (h1 _ _) _ _ _ _ _

theorem wf_pushBlock {d : Device} (h : Memory.wf d = true) (x : SlotRd) : Memory.wf (pushBlock d x) = true := by
  have hf : ∀ (e : Device) x n, Memory.wf e = true → Memory.wf (pushFill e x n).1 = true := fun e x n he =>
    wf_frame (mem_pushFill e x n) he
  unfold pushBlock
  dsimp only
  split
  · exact wf_ite (wf_abandon (hf _ _ _ h) _ _ _ _ _) (wf_ite (wf_frame (mem_setBoot _ _) (hf _ _ _ h)) (wf_bootBlock (hf _ _ _ h) _ _ _ _))
  · have h2 := hf _ (pushFill d x 4).2.1 (Nat.min (blkLen (pushFill d x 4).2.1.got) 16379 + 5) (hf d x 4 h)
    exact wf_ite (wf_abandon h2 _ _ _ _ _) (wf_ite (wf_frame (mem_setBoot _ _) h2) (wf_bootBlock h2 _ _ _ _))

theorem wf_pushGap {d : Device} (h : Memory.wf d = true) : Memory.wf (pushGap d) = true := by
  unfold pushGap
  refine wf_ite ?_ h
  split
  · exact wf_ite (wf_abandon h _ _ _ _ _) h
  · exact wf_ite (wf_abandon h _ _ _ _ _) h

theorem wf_blockRecords (p : Fin 3) (n : Nat) (last : Bool) {d : Device} (h : Memory.wf d = true) :
    Memory.wf (blockRecords p n last d).1 = true := by
  induction n generalizing last d with
  | zero => exact h
  | succ n ih =>
    have hr := wf_recordStep h p (fun _ => true)
    unfold blockRecords
    refine wf_ite_fst h ?_
    dsimp only
    split
    · exact ih _ hr
    · exact hr
    · exact hr
    · exact hr
    · exact hr

theorem wf_applyRecords {d : Device} (h : Memory.wf d = true) (p : Fin 3) (x : SlotRd) (b : List Word) :
    Memory.wf (applyRecords d p x b).1 = true := by
  unfold applyRecords
  refine wf_blockRecords p _ _ (wf_ite h (wf_frame (mem_setPath _ _ _) (wf_ite ?_ ?_)))
  · exact h
  · exact h

theorem wf_copyWord {r : Device × Nat} (h : Memory.wf r.1 = true) (t : Tag) (w : Word) :
    Memory.wf (copyWord t r w).1 = true := wf_putCc h _ _

theorem wf_copyMemory {d : Device} (h : Memory.wf d = true) (b : List Word) : Memory.wf (copyMemory d b) = true := by
  have hf : ∀ (t : Tag) (l : List Word) (r : Device × Nat), Memory.wf r.1 = true → Memory.wf (l.foldl (copyWord t) r).1 = true := by
    intro t l
    induction l with
    | nil => exact fun r hr => hr
    | cons w l ih =>
      intro r hr
      rw [List.foldl_cons]
      exact ih _ (wf_copyWord hr t w)
  exact hf _ _ (d, _) h

theorem wf_bootApplied {d : Device} (h : Memory.wf d = true) (x : SlotRd) (b : List Word) (last : Bool) :
    Memory.wf (bootApplied d x b last) = true := by
  have h1 : ∀ y n, Memory.wf (setF (setBoot d y) F.BOOT_POS.BLOCK n) = true := fun y n =>
    wf_frame (mem_setF _ _ _) (wf_frame (mem_setBoot _ _) h)
  have h2 : ∀ y n, Memory.wf (setB (setF (setBoot d y) F.BOOT_POS.BLOCK n) F.SYS_READY.LOADED true) = true := fun y n =>
    wf_frame (mem_setB _ _ _) (h1 y n)
  unfold bootApplied
  dsimp only
  have h1 := h1 (x.past b last) (x.past b last).applied
  have h2 := h2 (x.past b last) (x.past b last).applied
  generalize x.past b last = y at h1 h2
  generalize setF (setBoot d y) F.BOOT_POS.BLOCK y.applied = e at h1 h2
  generalize setB e F.SYS_READY.LOADED true = e' at h2
  exact wf_ite h1 (wf_ite (wf_abandon h2 _ _ _ _ _) (wf_ite (wf_abandon h2 _ _ _ _ _)
    (wf_frame (mem_setB _ _ _) (wf_frame (mem_bootDone _) h2))))

theorem wf_bootRecords {d : Device} (h : Memory.wf d = true) (x : SlotRd) (b : List Word) :
    Memory.wf (bootRecords d x b) = true := by
  have hr := wf_applyRecords h 0 x b
  unfold bootRecords
  generalize applyRecords d 0 x b = r at hr
  obtain ⟨e, c⟩ := r
  cases c
  · exact wf_frame (mem_setBoot _ _) hr
  · exact wf_bootApplied hr _ _ _
  · exact wf_abandon (wf_frame (mem_cutRecord _ _) hr) _ _ _ _ _
  · exact wf_abandon hr _ _ _ _ _
  · exact wf_abandon hr _ _ _ _ _

theorem wf_bootCores {d : Device} (h : Memory.wf d = true) (x : SlotRd) (b : List Word) :
    Memory.wf (bootCores d x b) = true := by
  unfold bootCores
  exact wf_ite (wf_abandon h _ _ _ _ _) (wf_bootApplied (wf_frame (mem_setB _ _ _) (wf_frame (mem_startCores _ _) h)) _ _ _)

theorem wf_liveRecords {d : Device} (h : Memory.wf d = true) (x : SlotRd) (b : List Word) :
    Memory.wf (liveRecords d x b) = true := by
  have hr := wf_applyRecords h 1 x b
  unfold liveRecords
  generalize applyRecords d 1 x b = r at hr
  obtain ⟨e, c⟩ := r
  cases c
  · exact wf_frame (d := e) ⟨rfl, rfl⟩ hr
  · exact wf_frame (mem_liveApplied _ _ _ _) hr
  · exact wf_frame (mem_liveFail _ _ _) (wf_frame (mem_cutRecord _ _) hr)
  · exact wf_frame (mem_liveFail _ _ _) hr
  · exact wf_frame (mem_liveFail _ _ _) hr

theorem wf_liveMemory {d : Device} (h : Memory.wf d = true) (x : SlotRd) (b : List Word) :
    Memory.wf (liveMemory d x b) = true := by
  unfold liveMemory
  refine wf_ite (wf_frame (mem_liveApplied _ _ _ _) (wf_copyMemory ?_ b)) (wf_frame (mem_liveApplied _ _ _ _) h)
  exact wf_foldl _ (fun d c hd => wf_ite (wf_frame (mem_ccHold _ _) hd) hd) _ h

theorem wf_applyBlock {d : Device} (h : Memory.wf d = true) (kind : Nat) (boot live : Device → SlotRd → List Word → Device)
    (hb : ∀ d x b, Memory.wf d = true → Memory.wf (boot d x b) = true)
    (hl : ∀ d x b, Memory.wf d = true → Memory.wf (live d x b) = true) : Memory.wf (applyBlock d kind boot live) = true := by
  unfold applyBlock
  dsimp only
  split
  · split
    · exact wf_ite (hl _ _ _ h) h
    · exact h
  · split
    · split
      · exact wf_ite (hb _ _ _ h) h
      · exact h
    · exact h

theorem wf_recordsBlock {d : Device} (h : Memory.wf d = true) : Memory.wf (recordsBlock d) = true :=
  wf_applyBlock h 1 _ _ (fun _ _ _ h => wf_bootRecords h _ _) (fun _ _ _ h => wf_liveRecords h _ _)

theorem wf_memoryBlock {d : Device} (h : Memory.wf d = true) : Memory.wf (memoryBlock d) = true :=
  wf_applyBlock h 2 _ _ (fun _ _ _ h => wf_bootApplied (wf_copyMemory h _) _ _ _) (fun _ _ _ h => wf_liveMemory h _ _)

theorem wf_startBlock {d : Device} (h : Memory.wf d = true) : Memory.wf (startBlock d) = true :=
  wf_applyBlock h 3 _ _ (fun _ _ _ h => wf_bootCores h _ _) (fun _ _ _ h => wf_frame (mem_liveStart _ _ _) h)

theorem wf_headerRead {d : Device} (h : Memory.wf d = true) (slot : Fin 2) (ws : List Word) :
    Memory.wf (headerRead d slot ws) = true := by
  unfold headerRead
  split
  · exact wf_ite (wf_frame (mem_liveHeader _ _ _) h) h
  · exact wf_ite h (wf_ite (wf_ite h (wf_pushHeader h)) (wf_frame (mem_flashHeader _ _ _) h))

theorem wf_blockReadDone {d : Device} (h : Memory.wf d = true) (ws : List Word) (early : Bool) :
    Memory.wf (blockReadDone d ws early) = true := by
  unfold blockReadDone
  split
  · exact wf_ite h (wf_frame (mem_liveBlock _ _ _ _) h)
  · split
    · exact wf_ite h (wf_ite (wf_pushBlock h _) (wf_bootBlock h _ _ _ _))
    · exact h


/-! ### Stores of engines -/

theorem wf_delayStore {d : Device} (h : Memory.wf d = true) (i : Issue) (w : Nat) (v : TWord) :
    Memory.wf (delayStore d i w v) = true :=
  wf_putDelay (wf_frame (mem_noteAcc _ _ _ _ _) (wf_frame (mem_keepUndo _ _ _ _) h)) w v

theorem wf_engStore {d : Device} (h : Memory.wf d = true) (i : Issue) (port a : Nat) (v : TWord) :
    Memory.wf (engStore d i port a v) = true := by
  unfold engStore
  dsimp only
  split
  · exact wf_frame (mem_localStore _ _ _ _) (wf_frame (mem_keepUndo _ _ _ _) h)
  · split
    · exact wf_frame (mem_absentAccess _ _ _ _) h
    · exact h
    · exact wf_frame (mem_violated _ _ _ _) h
    · exact wf_ite (wf_frame (mem_fencedDrop _ _) h) h
    · exact wf_frame (mem_offAccess _ _) h
    · exact wf_delayStore h i _ v
  · split
    · exact wf_frame (mem_quePush _ _ _) h
    · exact h
    · exact wf_frame (mem_fencedDrop _ _) h
  · exact wf_frame (mem_addrFault _ _) h

theorem wf_engTas {d : Device} (h : Memory.wf d = true) (i : Issue) (a : Nat) : Memory.wf (engTas d i a).1 = true := by
  unfold engTas
  dsimp only
  split
  · exact wf_ite_fst h (wf_frame (mem_localStore _ _ _ _) (wf_ite (wf_frame (mem_parFault _ _) h) h))
  · split
    · exact wf_frame (mem_absentAccess _ _ _ _) h
    · exact h
    · exact wf_frame (mem_violated _ _ _ _) h
    · exact h
    · exact wf_frame (mem_offAccess _ _) h
    · exact wf_delayStore (wf_frame (mem_delayLoad _ _ _) h) i _ _
  · exact wf_frame (mem_addrFault _ _) h
  · exact wf_frame (mem_addrFault _ _) h

theorem wf_engStcn {d : Device} (h : Memory.wf d = true) (i : Issue) (a : Nat) (v : TWord) :
    Memory.wf (engStcn d i a v).1 = true := by
  have g : Memory.wf (setResv d i.who none) = true := wf_frame (mem_setResv _ _ _) h
  unfold engStcn
  dsimp only
  split
  · exact wf_ite_fst (wf_frame (mem_localStore _ _ _ _) g) g
  · split
    · exact wf_frame (mem_absentAccess _ _ _ _) g
    · exact g
    · exact wf_frame (mem_violated _ _ _ _) g
    · exact g
    · exact wf_frame (mem_offAccess _ _) h
    · exact wf_ite_fst (wf_delayStore g i _ v) (wf_frame (mem_noteAcc _ _ _ _ _) g)
  · exact wf_frame (mem_addrFault _ _) g
  · exact wf_frame (mem_addrFault _ _) g

/-! ### Accesses of the requesters -/

theorem wf_writeOp {d : Device} (h : Memory.wf d = true) (q : Req) (a : Nat) (f : Device → Device)
    (hf : ∀ d, Memory.wf d = true → Memory.wf (f d) = true) : Memory.wf (writeOp d q a f) = true :=
  wf_frame (mem_journal _ _ _ _) (wf_frame ⟨rfl, rfl⟩ (hf _ (wf_frame (d := d) ⟨rfl, rfl⟩ h)))

theorem wf_both {d : Device} (h : Memory.wf d = true) (f g : Device → Device)
    (hf : ∀ d, Memory.wf d = true → Memory.wf (f d) = true) (hg : ∀ d, Memory.wf d = true → Memory.wf (g d) = true) :
    Memory.wf (both f g d) = true := by
  have h1 := hf _ (wf_frame (d := d) (e := { d with wrNone := false }) ⟨rfl, rfl⟩ h)
  unfold both
  generalize f { d with wrNone := false } = e at h1
  have h2 := hg _ (wf_frame (d := e) (e := { e with wrNone := false }) ⟨rfl, rfl⟩ h1)
  dsimp only
  generalize g { e with wrNone := false } = e' at h2
  exact wf_frame (d := e') ⟨rfl, rfl⟩ h2

theorem wf_applyReg {d : Device} (h : Memory.wf d = true) (q : Req) (a : Nat) (r : RegRow) (v : Word) :
    Memory.wf (applyReg d q a r v) = true := by
  unfold applyReg
  split
  · exact wf_frame (mem_sysApply _ _ _ _ _) h
  · exact wf_frame (mem_sysApply _ _ _ _ _) h
  · exact wf_ite (wf_frame (mem_mctlWrite _ _ _) h) (wf_ite (wf_frame (mem_mtgtWrite _ _ _ _) h) (wf_frame (mem_plainWrite _ _ _ _) h))
  · exact wf_frame (mem_pwrApply _ _ _ _ _) h
  · exact wf_frame (mem_evtApply _ _ _ _) h
  · exact wf_frame (mem_routeApplyReg _ _ _ _ _) h
  · exact wf_frame (mem_mixApplyReg _ _ _ _ _) h
  · exact wf_frame (mem_guardApply _ _ _ _ _) h
  · exact wf_frame (mem_queApply _ _ _ _ _) h
  · exact wf_ite (wf_ite (wf_frame (mem_sapUnmute _ _) h) h) (wf_frame (mem_plainWrite _ _ _ _) h)
  · exact wf_frame (mem_linkApply _ _ _ _) h
  · exact wf_frame (mem_spiApply _ _ _ _ _) h
  · exact wf_frame (mem_pcieApply _ _ _ _) h
  · exact wf_frame (mem_coachApply _ _ _ _) h
  · exact wf_ite (wf_bankPowerWrite h _ v) (wf_frame (mem_plainWrite _ _ _ _) h)
  · exact wf_frame (mem_plainWrite _ _ _ _) h

theorem wf_writeReg {d : Device} (h : Memory.wf d = true) (q : Req) (a : Nat) (v : Word) :
    Memory.wf (writeReg d q a v) = true := by
  unfold writeReg
  split
  · exact wf_frame (mem_ignored _) h
  · exact wf_ite (wf_ite (wf_ite (wf_frame (mem_awaitWrite _ _ _ _ _) h) (wf_frame (mem_applyWide _ _ _ _ _ _) h)) h)
      (wf_ite (wf_frame (mem_rejectReq _ _ _ _) h) (wf_ite (wf_frame (mem_awaitWrite _ _ _ _ _) h) (wf_applyReg h q a _ v)))

theorem wf_writeWord {d : Device} (h : Memory.wf d = true) (q : Req) (a len : Nat) (v : Word) (t : Tag) :
    Memory.wf (writeWord d q a len v t) = true := by
  unfold writeWord
  refine wf_ite (wf_frame (mem_absentAccess _ _ _ _) h) (wf_ite (wf_frame (mem_ignored _) h)
    (wf_ite (wf_frame (mem_rejectReq _ _ _ _) h) ?_))
  split
  · exact wf_hostDelayWrite h q _ a _ len v
  · exact wf_hostAtomic h q _ a _ _
  · exact wf_delayTagWrite h q a len v
  · split
    · exact wf_frame (mem_rejectReq _ _ _ _) h
    · exact wf_frame (mem_engWinPut _ _ _ _ _ _) h
  · exact wf_frame (mem_groupWrite _ _ _ _ _ _ _ _) h
  · exact wf_putCc h _ _
  · exact wf_writeReg h q a v
  · exact wf_frame (mem_partWrite _ _ _ _) h
  · exact wf_frame (mem_ignored _) h
  · exact h

/-! ### Placements at a bank -/

theorem wf_readWord {d : Device} (h : Memory.wf d = true) (q : Req) (a len : Nat) : Memory.wf (readWord d q a len).1 = true :=
  wf_frame (mem_readWord d q a len) h

theorem wf_accWord {d : Device} (h : Memory.wf d = true) (x : HostAcc) : Memory.wf (accWord d x).1 = true := by
  have hn : ∀ (e : Device) b, Memory.wf e = true → Memory.wf { e with wrNone := b } = true := fun _ _ he => he
  unfold accWord
  dsimp only
  split
  · exact hn _ _ (wf_writeWord (hn _ _ h) _ _ _ _ _)
  · exact wf_readWord h _ _ _

theorem wf_accCollided {d : Device} (h : Memory.wf d = true) (x : HostAcc) (n : Fin 68) :
    Memory.wf (accCollided d x n).1 = true := wf_frame (mem_fresh _) (wf_frame (mem_collision _ _ _ _) h)

theorem wf_accStep {r : Device × HostAcc} (h : Memory.wf r.1 = true) (p : Option Place) : Memory.wf (accStep p r).1 = true := by
  unfold accStep
  refine wf_ite_fst h ?_
  split
  · exact wf_accWord h _
  · exact wf_accCollided h _ _
  · exact h

theorem wf_accGives {d : Device} (h : Memory.wf d = true) (x : HostAcc) : Memory.wf (accGives d x) = true := by
  have hr : Memory.wf (respond d x.req x.got x.tag) = true := wf_frame (mem_respond _ _ _ _) h
  unfold accGives
  dsimp only
  generalize respond d x.req x.got x.tag = e at hr
  split
  · exact wf_frame (d := e) ⟨rfl, rfl⟩ hr
  · exact wf_frame (d := e) ⟨rfl, rfl⟩ hr
  · exact hr

/-- An access served at its bank keeps the form of the memories. -/
theorem wf_accServe {d : Device} (h : Memory.wf d = true) (p : Option Place) (x : HostAcc) : Memory.wf (accServe p d x).1 = true := by
  unfold accServe
  dsimp only
  have hs : ∀ q, Memory.wf (accStep q (accStep q (accStep p (d, x)))).1 = true := fun q =>
    wf_accStep (wf_accStep (wf_accStep (r := (d, x)) h p) q) q
  have hs := hs (if p.isNone = true then none else some .idle)
  generalize accStep _ (accStep _ (accStep p (d, x))) = r at hs
  refine wf_ite_fst hs ?_
  split
  · exact wf_frame (mem_journal _ _ _ _) hs
  · exact wf_accGives hs _

theorem wf_serveNext {r : Device × List HostAcc × Option Place} (h : Memory.wf r.1 = true) (x : HostAcc) :
    Memory.wf (serveNext r x).1 = true := by
  unfold serveNext
  exact wf_ite_fst h (wf_accServe h _ _)

theorem wf_serveBank {d : Device} (h : Memory.wf d = true) (b : Fin 128) (p : Option Place) :
    Memory.wf (serveBank d b p) = true := by
  have hf : ∀ (l : List HostAcc) (r : Device × List HostAcc × Option Place), Memory.wf r.1 = true →
      Memory.wf (l.foldl serveNext r).1 = true := by
    intro l
    induction l with
    | nil => exact fun r hr => hr
    | cons x l ih => exact fun r hr => ih _ (wf_serveNext hr x)
  have hr := hf (d.waits.filter (waitsAt b)) (d, [], p) h
  unfold serveBank
  generalize List.foldl serveNext _ _ = r at hr
  exact wf_frame (d := r.1) ⟨rfl, rfl⟩ hr

theorem wf_serveAll {d : Device} (h : Memory.wf d = true) : Memory.wf (serveAll d) = true :=
  wf_foldl _ (fun _ b hd => wf_serveBank hd b _) _ h

theorem wf_settle {d : Device} (h : Memory.wf d = true) (a : Nat) : Memory.wf (settle d a) = true :=
  wf_ite (wf_serveBank h _ _) h

/-! ### Whole accesses -/

theorem wf_dead {d e : Device} (h : Memory.wf d = true) (q : Req) (a : Nat) (he : Memory.wf e = true) :
    Memory.wf ((deadAccess d q a).getD e) = true := by
  cases hb : deadAccess d q a with
  | none => exact he
  | some x => exact wf_frame (mem_deadAccess hb) h

theorem wf_deadOr {α : Type} {d : Device} (h : Memory.wf d = true) (q : Req) (a : Nat) (x : α) {r : Device × α}
    (hr : Memory.wf r.1 = true) : Memory.wf (deadOr (deadAccess d q a) x r).1 = true := by
  cases hb : deadAccess d q a with
  | none => exact hr
  | some x => exact wf_frame (mem_deadAccess hb) h

theorem wf_busPut {d : Device} (h : Memory.wf d = true) (q : Req) (a n v : Nat) (t : Tag) :
    Memory.wf (busPut d q a n v t) = true := by
  have hs := wf_settle h a
  unfold busPut
  dsimp only
  generalize settle d a = e at hs
  exact wf_ite (wf_dead hs q a (wf_ite (wf_frame (mem_writeWide _ _ _ _) hs)
    (wf_both hs _ _ (fun _ h => wf_writeWord h _ _ _ _ _) (fun _ h => wf_writeWord h _ _ _ _ _)))) (wf_writeWord hs _ _ _ _ _)

theorem wf_touch {d : Device} (h : Memory.wf d = true) (a : Nat) : Memory.wf (touch d a) = true := wf_frame (mem_touch d a) h

/-- A write access keeps the form of the memories. -/
theorem wf_busWrite {d : Device} (h : Memory.wf d = true) (q : Req) (a n v : Nat) (t : Tag) :
    Memory.wf (busWrite d q a n v t) = true :=
  wf_frame (mem_entryCheck _) (wf_writeOp (wf_touch h a) q a _ (fun _ h => wf_busPut h q a n v t))

theorem wf_busGet {d : Device} (h : Memory.wf d = true) (q : Req) (a n : Nat) : Memory.wf (busGet d q a n).1 = true := by
  have hs := wf_settle h a
  unfold busGet
  dsimp only
  generalize settle d a = e at hs
  exact wf_ite_fst (wf_deadOr hs q a _ (wf_ite_fst (wf_frame (mem_readWide _ _ _) hs) (wf_readWord (wf_readWord hs _ _ _) _ _ _)))
    (wf_readWord hs _ _ _)

/-- A read access keeps the form of the memories. -/
theorem wf_busRead {d : Device} (h : Memory.wf d = true) (q : Req) (a n : Nat) : Memory.wf (busRead d q a n) = true :=
  wf_frame (mem_entryCheck _) (wf_frame (mem_respond _ _ _ _) (wf_busGet (wf_touch h a) q a n))

theorem wf_busPeek {d : Device} (h : Memory.wf d = true) (q : Req) (a : Nat) (whole : Bool) :
    Memory.wf (busPeek d q a whole).1 = true := by
  have hs := wf_settle (wf_touch h a) a
  unfold busPeek
  dsimp only
  generalize settle (touch d a) a = e at hs
  refine wf_ite_fst (wf_ite (wf_frame (mem_absentAccess _ _ _ _) hs) hs) ?_
  split
  · exact wf_frame (mem_peekReg _ _ _) hs
  · exact hs
  · exact hs
  · exact hs
  · exact wf_readWord hs _ _ _

theorem wf_pairWrite {d : Device} (h : Memory.wf d = true) (q : Req) (a v : Nat) : Memory.wf (pairWrite d q a v) = true := by
  unfold pairWrite
  split
  · exact wf_busWrite (wf_busWrite h _ _ _ _ _) _ _ _ _ _
  · exact wf_busWrite h _ _ _ _ _

theorem wf_placedAccess {d : Device} (h : Memory.wf d = true) (q : Req) (a n : Nat) (v : Option (BitVec 64)) (p : Place) :
    Memory.wf (placedAccess d q a n v p) = true := by
  have ht := wf_touch h a
  have hw : ∀ (e : Device) x, Memory.wf e = true → Memory.wf { e with waits := x } = true := fun _ _ he => he
  unfold placedAccess
  refine wf_ite (wf_frame (mem_entryCheck _) (wf_serveBank (hw _ _ ht) _ _)) ?_
  split
  · exact wf_busWrite h _ _ _ _ _
  · exact wf_busRead h _ _ _

/-! ### HSPI and PCIe -/

theorem wf_hspiPosted {d : Device} (h : Memory.wf d = true) : Memory.wf (hspiPosted d) = true := by
  have h1 : ∀ ops, Memory.wf { d with hspiOps := ops } = true := fun _ => h
  unfold hspiPosted
  split
  · exact h
  · exact wf_busWrite (h1 _) _ _ _ _ _
  · next a ops _ =>
    have hg := wf_busGet (wf_touch (h1 ops) a) .hspi a 4
    refine wf_frame (mem_entryCheck _) ?_
    generalize busGet _ _ _ _ = r at hg
    exact wf_frame (d := r.1) ⟨rfl, rfl⟩ hg
  · exact wf_busPeek (h1 _) _ _ _

theorem wf_hspiReadWord {d : Device} (h : Memory.wf d = true) (a : Nat) (whole onTime : Bool) :
    Memory.wf (hspiReadWord d a whole onTime) = true := by
  have hp := wf_busPeek h .hspi a whole
  unfold hspiReadWord
  dsimp only
  generalize busPeek d .hspi a whole = r at hp
  refine wf_ite (wf_ite (wf_frame (d := r.1) ⟨rfl, rfl⟩ hp) (wf_frame (mem_hspiLate _ _) (wf_frame (d := r.1) ⟨rfl, rfl⟩ hp))) ?_
  exact wf_frame (mem_hspiLate _ _) (wf_frame (d := d) ⟨rfl, rfl⟩ h)

theorem wf_hspiRead {d : Device} (h : Memory.wf d = true) (bits : Nat) (addr : Word) (onTime : List Bool) :
    Memory.wf (hspiRead d bits addr onTime) = true := by
  have hb : Memory.wf (hspiBegin d) = true := wf_frame (mem_hspiBegin d) h
  unfold hspiRead
  refine wf_ite h ?_
  dsimp only
  generalize hspiBegin d = e at hb
  have hf := wf_foldl (fun d i => hspiReadWord d ((hspiAddr addr + 4 * i) % 2 ^ 32) (decide (i < hspiWhole d true bits))
    (onTime.getD i false)) (fun _ _ hd => wf_hspiReadWord hd _ _ _) (List.range (hspiBegun e true bits)) hb
  exact wf_ite (wf_frame (mem_hspiReject _ _ _ _ _) hf) hf

theorem wf_hspiDrainN (n : Nat) {d : Device} (h : Memory.wf d = true) : Memory.wf (hspiDrainN n d) = true := by
  induction n generalizing d with
  | zero => exact h
  | succ n ih => exact ih (wf_hspiPosted h)

theorem wf_hspiDrain {d : Device} (h : Memory.wf d = true) : Memory.wf (hspiDrain d) = true :=
  wf_ite (wf_hspiDrainN _ h) h

theorem wf_pcieWord {d : Device} (h : Memory.wf d = true) (a : Nat) (v : Word) (be : BitVec 4) :
    Memory.wf (pcieWord d a v be) = true := wf_foldl _ (fun _ _ h => wf_busWrite h _ _ _ _ _) _ h

theorem wf_pcieWords (l : List (Word × BitVec 4)) (a : Nat) {d : Device} (h : Memory.wf d = true) :
    Memory.wf (pcieWords a l d) = true := by
  induction l generalizing a d with
  | nil => exact h
  | cons x l ih => exact ih (a + 4) (wf_pcieWord h a x.1 x.2)

theorem wf_pcieRequest {d : Device} (h : Memory.wf d = true) (a : Nat) (f : Device → Device)
    (hf : ∀ d, Memory.wf d = true → Memory.wf (f d) = true) : Memory.wf (pcieRequest d a f) = true := by
  unfold pcieRequest
  exact wf_ite h (wf_ite (wf_frame (mem_pcieUr _) h) (hf d h))

theorem wf_pcieWrite {d : Device} (h : Memory.wf d = true) (addr : Word) (ws : List (Word × BitVec 4)) :
    Memory.wf (pcieWrite d addr ws) = true := by
  refine wf_pcieRequest h _ _ (fun d h => wf_ite ?_ ?_)
  · exact wf_writeOp h _ _ _ (fun d h => wf_frame (mem_rejectReq _ _ _ _) h)
  · split
    · exact wf_ite (wf_busWrite h _ _ _ _ _) (wf_pcieWords _ _ h)
    · exact wf_pcieWords _ _ h

theorem wf_pcieReadWords (n : Nat) (a : Nat) {d : Device} (h : Memory.wf d = true) :
    Memory.wf (pcieReadWords a n d) = true := by
  induction n generalizing a d with
  | zero => exact h
  | succ n ih =>
    have hg := wf_busGet (wf_touch h a) .pcie a 4
    unfold pcieReadWords
    dsimp only
    refine ih (a + 4) ?_
    generalize busGet _ _ _ _ = r at hg
    exact wf_frame (d := r.1) ⟨rfl, rfl⟩ hg

theorem wf_pcieRead {d : Device} (h : Memory.wf d = true) (addr : Word) (len : Nat) : Memory.wf (pcieRead d addr len) = true := by
  refine wf_pcieRequest h _ _ (fun d h => ?_)
  have hc : Memory.wf { d with pcieCpl := [] } = true := h
  dsimp only
  generalize { d with pcieCpl := [] } = e at hc
  refine wf_ite (wf_frame (mem_entryCheck _) ?_) (wf_frame (mem_entryCheck _) (wf_pcieReadWords _ _ hc))
  have hg : Memory.wf (readWide (touch e addr.toNat) .pcie addr.toNat).1 = true := wf_frame (mem_readWide _ _ _) (wf_touch hc _)
  generalize readWide _ _ _ = r at hg
  exact wf_frame (d := r.1) ⟨rfl, rfl⟩ hg

/-! ### How accesses reach the device -/

/-- The effect of an access keeps the form of the memories. -/
theorem wf_carryOut {d : Device} (h : Memory.wf d = true) (op : BusOp) : Memory.wf (carryOut d op) = true := by
  unfold carryOut
  split
  · exact wf_busWrite h _ _ _ _ _
  · exact wf_busRead h _ _ _
  · exact wf_pairWrite h _ _ _
  · exact wf_frame (mem_mediaDone _ _) (wf_pairWrite h _ _ _)
  · exact wf_frame (mem_mediaDone _ _) (wf_busWrite h _ _ _ _ _)
  · exact wf_placedAccess h _ _ _ _ _
  · exact wf_pcieWrite h _ _
  · exact wf_pcieRead h _ _

/-- An access keeps the form of the memories, carried out or stalled. -/
theorem wf_access {d : Device} (h : Memory.wf d = true) (op : BusOp) : Memory.wf (access d op) = true := by
  unfold access
  exact wf_ite (wf_carryOut h op) (wf_ite (wf_frame (d := d) ⟨rfl, rfl⟩ h) h)

theorem wf_runStalled {d : Device} (h : Memory.wf d = true) : Memory.wf (runStalled d) = true := by
  have hs : Memory.wf { d with stalled := [] } = true := h
  unfold runStalled
  exact wf_ite (wf_foldl _ (fun _ op hd => wf_carryOut hd op) _ hs) h

/-! ### Words of engines and control cores -/

theorem wf_withWord {d : Device} (h : Memory.wf d = true) (i : Issue) (ok rep : Bool) (f : Device → Device)
    (hf : ∀ d, Memory.wf d = true → Memory.wf (f d) = true) : Memory.wf (withWord i ok rep d f) = true := by
  have hi : ∀ n, Memory.wf (illWord d i.who n) = true := fun n => wf_frame (mem_illWord _ _ _) h
  have hw : Memory.wf (fetchWord d i.who) = true := wf_frame (mem_fetchWord _ _) h
  unfold withWord
  split
  · exact wf_ite (wf_ite (wf_frame (mem_endPair _ _) (hf _ h)) (wf_frame (mem_illFault _ _ _) (wf_frame (mem_undoPair _ _) h))) h
  · exact wf_ite (wf_ite (hi _) (wf_ite (wf_frame (mem_addrFault _ _) hw)
      (wf_ite (hf _ (wf_frame (mem_startPair _ _) hw)) (hi _)))) h
  · exact wf_ite (wf_ite (hi _) (wf_ite (wf_frame (mem_addrFault _ _) hw) (wf_ite (hf _ hw) (hi _)))) h

theorem wf_ccLoad {d : Device} (h : Memory.wf d = true) (i : Issue) (a : Nat) : Memory.wf (ccLoad d i a).1 = true := by
  unfold ccLoad
  split
  · exact wf_frame (mem_addrFault _ _) h
  · refine wf_frame (mem_entryCheck _) (wf_readWord (wf_settle (wf_touch ?_ _) _) _ _ _)
    exact wf_ite (wf_frame (mem_parFault _ _) h) h

theorem wf_ccLdrv {d : Device} (h : Memory.wf d = true) (i : Issue) (a : Nat) : Memory.wf (ccLdrv d i a).1 = true := by
  unfold ccLdrv
  split
  · exact wf_frame (mem_setResv _ _ _) (wf_frame (mem_addrFault _ _) h)
  · exact wf_ite (wf_frame (mem_setResv _ _ _) (wf_ccLoad h i a)) (wf_ccLoad h i a)

theorem wf_ccLoadPair {d : Device} (h : Memory.wf d = true) (i : Issue) (a : Nat) : Memory.wf (ccLoadPair d i a).1 = true := by
  unfold ccLoadPair
  dsimp only
  have hr := wf_frame (mem_entryCheck _) (wf_frame (mem_readWide _ (.cc (coreOf i.who)) (4 * a)) (wf_touch h (4 * a)))
  have hl := wf_ccLoad (wf_ccLoad h i a) i (a + 1)
  cases hb : deadAccess (settle (touch d (4 * a)) (4 * a)) (.cc (coreOf i.who)) (4 * a) with
  | none => exact wf_ite_fst hr hl
  | some x => exact wf_frame (mem_entryCheck _) (wf_frame (mem_deadAccess hb) (wf_settle (wf_touch h _) _))

theorem wf_ccStore {d : Device} (h : Memory.wf d = true) (i : Issue) (a : Nat) (v : TWord) :
    Memory.wf (ccStore d i a v) = true := by
  unfold ccStore
  split
  · exact wf_frame (mem_addrFault _ _) h
  · exact wf_busWrite (wf_frame (mem_ccKeep _ _ _) h) _ _ _ _ _

theorem wf_ccTas {d : Device} (h : Memory.wf d = true) (i : Issue) (a : Nat) : Memory.wf (ccTas d i a).1 = true := by
  unfold ccTas
  split
  · exact wf_frame (mem_addrFault _ _) h
  · exact wf_ccStore (wf_ccLoad h _ _) i a _

theorem wf_ccStcn {d : Device} (h : Memory.wf d = true) (i : Issue) (a : Nat) (v : TWord) :
    Memory.wf (ccStcn d i a v).1 = true := by
  have hs := wf_settle h (4 * a)
  unfold ccStcn
  dsimp only
  generalize settle d (4 * a) = e at hs
  have g : Memory.wf (setResv e i.who none) = true := wf_frame (mem_setResv _ _ _) hs
  split
  · exact wf_frame (mem_addrFault _ _) g
  · exact wf_ite_fst (wf_readWord hs _ _ _) (wf_ite_fst (wf_ccStore g i a v) g)

theorem wf_loadWord {d : Device} (h : Memory.wf d = true) (i : Issue) (port : Nat) (w : Work) (m : Ma) :
    Memory.wf (loadWord d i port w m).1 = true := by
  unfold loadWord
  split
  · exact wf_frame (mem_tagFault _ _ _) h
  · exact wf_frame (mem_addrFault _ _) h
  · exact wf_ite_fst (wf_ccLoad h i _) (wf_frame (mem_engLoad _ _ _ _) h)

theorem wf_doLoad {d : Device} (h : Memory.wf d = true) (i : Issue) (port : Nat) (w : Work) (g : GReg) (m : Ma) :
    Memory.wf (doLoad d i port w g m) = true :=
  wf_frame (mem_giveReg _ _ _ _ _ _) (wf_loadWord (wf_frame (mem_stepPtr _ _ _ _) h) i port w m)

theorem wf_extreme {d : Device} (h : Memory.wf d = true) (i : Issue) (gd : Fin 16) (an am : Fin 8)
    (better : Int → Int → Bool) : Memory.wf (extreme i gd an am better d) = true := by
  refine wf_withWord h i _ _ _ (fun d h => ?_)
  dsimp only
  have hl := wf_loadWord (wf_frame (mem_stepPtr d i (srcWork d i) ⟨an, an, .post⟩) h) i 0 (srcWork d i) ⟨an, an, .post⟩
  generalize loadWord _ i 0 (srcWork d i) ⟨an, an, .post⟩ = r at hl
  have hw : ∀ (e : Device) g v, Memory.wf e = true → Memory.wf (wrReg e i.who g v) = true := fun _ _ _ he =>
    wf_frame (mem_wrReg _ _ _ _) he
  have ht : ∀ (e : Device) b, Memory.wf e = true → Memory.wf (tagFault e i.who b) = true := fun _ _ he =>
    wf_frame (mem_tagFault _ _ _) he
  exact wf_ite (hw _ _ _ (hw _ _ _ hl)) (wf_ite (hw _ _ _ (ht _ _ (hw _ _ _ hl))) (ht _ _ (hw _ _ _ hl)))

theorem wf_quadMac {d : Device} (h : Memory.wf d = true) (i : Issue) (sat minus rt : Bool) (m1 : Ma) (dk : Fin 16)
    (second : Option (Fin 16 × Ma)) : Memory.wf (quadMac i sat minus rt m1 dk second d) = true := by
  refine wf_withWord h i _ _ _ (fun d h => ?_)
  dsimp only
  have hl := wf_loadWord (wf_frame (mem_stepPtr d i (srcWork d i) m1) h) i 0 (srcWork d i) m1
  generalize loadWord _ i 0 (srcWork d i) m1 = r at hl
  have h1 : Memory.wf (if isCc i.who = true then r.1 else tally r.1 1 1) = true := wf_ite hl (wf_frame (mem_tally _ _ _) hl)
  generalize (if isCc i.who = true then r.1 else tally r.1 1 1) = e at h1
  have h2 : Memory.wf ((List.finRange 4).foldl (macOne i sat minus r.2 dk (srcWork d i)) e) = true :=
    wf_foldl _ (fun d n hd => wf_frame (mem_macOne _ _ _ _ _ _ d n) hd) _ h1
  generalize (List.finRange 4).foldl (macOne i sat minus r.2 dk (srcWork d i)) e = f at h2
  have h3 : Memory.wf (if rt = true then rotate i dk (srcWork d i) f else f) = true := wf_ite (wf_frame (mem_rotate _ _ _ _) h2) h2
  generalize (if rt = true then rotate i dk (srcWork d i) f else f) = g at h3
  split
  · exact h3
  · exact wf_doLoad h3 _ _ _ _ _

theorem wf_doStore {d : Device} (h : Memory.wf d = true) (i : Issue) (port : Nat) (w : Work) (g : GReg) (m : Ma) :
    Memory.wf (doStore d i port w g m) = true := by
  have hs : Memory.wf (stepPtr d i w m) = true := wf_frame (mem_stepPtr _ _ _ _) h
  unfold doStore
  dsimp only
  split
  · exact wf_frame (mem_tagFault _ _ _) hs
  · exact wf_frame (mem_addrFault _ _) hs
  · exact wf_ite (wf_ccStore hs _ _ _) (wf_engStore hs _ _ _ _)

theorem wf_doAtomic {d : Device} (h : Memory.wf d = true) (i : Issue) (w : Work) (g : GReg) (m : Ma) (resv : Bool)
    (f : Device → Nat → Device × TWord) (hf : ∀ d a, Memory.wf d = true → Memory.wf (f d a).1 = true) :
    Memory.wf (doAtomic d i w g m resv f) = true := by
  have hs : Memory.wf (stepPtr d i w m) = true := wf_frame (mem_stepPtr _ _ _ _) h
  have hd : Memory.wf (if resv then setResv (stepPtr d i w m) i.who none else stepPtr d i w m) = true :=
    wf_ite (wf_frame (mem_setResv _ _ _) hs) hs
  unfold doAtomic
  dsimp only
  split
  · exact wf_frame (mem_giveReg _ _ _ _ _ _) (wf_frame (mem_tagFault _ _ _) hd)
  · exact wf_frame (mem_giveReg _ _ _ _ _ _) (wf_frame (mem_addrFault _ _) hd)
  · exact wf_frame (mem_giveReg _ _ _ _ _ _) (hf _ _ hs)

end Sys2Proof.Machine
end

