-- ==== Sys2Proof/Laws/PerInstr.lean ====
section
/-! SUPPORT. The classes of the commands, constructor by constructor: what Safety.lean's classes say of each as syntax. -/

namespace Sys2Proof.Laws.Classes

open Sys2Proof

/-- The classes exclude each other: an instruction word is no access of a requester and no event of a pin, an event of a pin
is no access, and no access counts among the rows that store besides the accesses. -/
def Statement (c : Instr) : Prop :=
  (c.word.isSome && c.access) = false ∧ (c.word.isSome && c.pin) = false ∧ (c.pin && c.access) = false ∧
  (c.access && c.mayWrite) = false

theorem nop : ∀ x0, Statement (.nop x0) := fun _ => ⟨rfl, rfl, rfl, rfl⟩
theorem done : ∀ x0, Statement (.done x0) := fun _ => ⟨rfl, rfl, rfl, rfl⟩
theorem br : ∀ x0 x1, Statement (.br x0 x1) := fun _ _ => ⟨rfl, rfl, rfl, rfl⟩
theorem brz : ∀ x0 x1 x2, Statement (.brz x0 x1 x2) := fun _ _ _ => ⟨rfl, rfl, rfl, rfl⟩
theorem brnz : ∀ x0 x1 x2, Statement (.brnz x0 x1 x2) := fun _ _ _ => ⟨rfl, rfl, rfl, rfl⟩
theorem brlc : ∀ x0 x1, Statement (.brlc x0 x1) := fun _ _ => ⟨rfl, rfl, rfl, rfl⟩
theorem call : ∀ x0 x1, Statement (.call x0 x1) := fun _ _ => ⟨rfl, rfl, rfl, rfl⟩
theorem callz : ∀ x0 x1 x2, Statement (.callz x0 x1 x2) := fun _ _ _ => ⟨rfl, rfl, rfl, rfl⟩
theorem callnz : ∀ x0 x1 x2, Statement (.callnz x0 x1 x2) := fun _ _ _ => ⟨rfl, rfl, rfl, rfl⟩
theorem ret : ∀ x0, Statement (.ret x0) := fun _ => ⟨rfl, rfl, rfl, rfl⟩
theorem rep : ∀ x0 x1, Statement (.rep x0 x1) := fun _ _ => ⟨rfl, rfl, rfl, rfl⟩
theorem tmark : ∀ x0 x1 x2, Statement (.tmark x0 x1 x2) := fun _ _ _ => ⟨rfl, rfl, rfl, rfl⟩
theorem mov : ∀ x0 x1 x2, Statement (.mov x0 x1 x2) := fun _ _ _ => ⟨rfl, rfl, rfl, rfl⟩
theorem movi : ∀ x0 x1 x2 x3, Statement (.movi x0 x1 x2 x3) := fun _ _ _ _ => ⟨rfl, rfl, rfl, rfl⟩
theorem movcRead : ∀ x0 x1 x2, Statement (.movcRead x0 x1 x2) := fun _ _ _ => ⟨rfl, rfl, rfl, rfl⟩
theorem movcWrite : ∀ x0 x1 x2, Statement (.movcWrite x0 x1 x2) := fun _ _ _ => ⟨rfl, rfl, rfl, rfl⟩
theorem tagxR : ∀ x0 x1 x2, Statement (.tagxR x0 x1 x2) := fun _ _ _ => ⟨rfl, rfl, rfl, rfl⟩
theorem tagxW : ∀ x0 x1 x2 x3, Statement (.tagxW x0 x1 x2 x3) := fun _ _ _ _ => ⟨rfl, rfl, rfl, rfl⟩
theorem tagxS : ∀ x0 x1 x2 x3, Statement (.tagxS x0 x1 x2 x3) := fun _ _ _ _ => ⟨rfl, rfl, rfl, rfl⟩
theorem ld : ∀ x0 x1 x2 x3, Statement (.ld x0 x1 x2 x3) := fun _ _ _ _ => ⟨rfl, rfl, rfl, rfl⟩
theorem st : ∀ x0 x1 x2 x3, Statement (.st x0 x1 x2 x3) := fun _ _ _ _ => ⟨rfl, rfl, rfl, rfl⟩
theorem ldst : ∀ x0 x1 x2 x3 x4, Statement (.ldst x0 x1 x2 x3 x4) := fun _ _ _ _ _ => ⟨rfl, rfl, rfl, rfl⟩
theorem tas : ∀ x0 x1 x2, Statement (.tas x0 x1 x2) := fun _ _ _ => ⟨rfl, rfl, rfl, rfl⟩
theorem ldrv : ∀ x0 x1 x2, Statement (.ldrv x0 x1 x2) := fun _ _ _ => ⟨rfl, rfl, rfl, rfl⟩
theorem stcn : ∀ x0 x1 x2 x3, Statement (.stcn x0 x1 x2 x3) := fun _ _ _ _ => ⟨rfl, rfl, rfl, rfl⟩
theorem add : ∀ x0 x1 x2 x3 x4, Statement (.add x0 x1 x2 x3 x4) := fun _ _ _ _ _ => ⟨rfl, rfl, rfl, rfl⟩
theorem sub : ∀ x0 x1 x2 x3 x4, Statement (.sub x0 x1 x2 x3 x4) := fun _ _ _ _ _ => ⟨rfl, rfl, rfl, rfl⟩
theorem neg : ∀ x0 x1 x2 x3, Statement (.neg x0 x1 x2 x3) := fun _ _ _ _ => ⟨rfl, rfl, rfl, rfl⟩
theorem abs : ∀ x0 x1 x2 x3, Statement (.abs x0 x1 x2 x3) := fun _ _ _ _ => ⟨rfl, rfl, rfl, rfl⟩
theorem min : ∀ x0 x1 x2 x3, Statement (.min x0 x1 x2 x3) := fun _ _ _ _ => ⟨rfl, rfl, rfl, rfl⟩
theorem max : ∀ x0 x1 x2 x3, Statement (.max x0 x1 x2 x3) := fun _ _ _ _ => ⟨rfl, rfl, rfl, rfl⟩
theorem cmplt : ∀ x0 x1 x2 x3, Statement (.cmplt x0 x1 x2 x3) := fun _ _ _ _ => ⟨rfl, rfl, rfl, rfl⟩
theorem cmple : ∀ x0 x1 x2 x3, Statement (.cmple x0 x1 x2 x3) := fun _ _ _ _ => ⟨rfl, rfl, rfl, rfl⟩
theorem cmpeq : ∀ x0 x1 x2 x3, Statement (.cmpeq x0 x1 x2 x3) := fun _ _ _ _ => ⟨rfl, rfl, rfl, rfl⟩
theorem addi : ∀ x0 x1 x2 x3 x4, Statement (.addi x0 x1 x2 x3 x4) := fun _ _ _ _ _ => ⟨rfl, rfl, rfl, rfl⟩
theorem and : ∀ x0 x1 x2 x3, Statement (.and x0 x1 x2 x3) := fun _ _ _ _ => ⟨rfl, rfl, rfl, rfl⟩
theorem or : ∀ x0 x1 x2 x3, Statement (.or x0 x1 x2 x3) := fun _ _ _ _ => ⟨rfl, rfl, rfl, rfl⟩
theorem xor : ∀ x0 x1 x2 x3, Statement (.xor x0 x1 x2 x3) := fun _ _ _ _ => ⟨rfl, rfl, rfl, rfl⟩
theorem not : ∀ x0 x1 x2, Statement (.not x0 x1 x2) := fun _ _ _ => ⟨rfl, rfl, rfl, rfl⟩
theorem shl : ∀ x0 x1 x2 x3 x4, Statement (.shl x0 x1 x2 x3 x4) := fun _ _ _ _ _ => ⟨rfl, rfl, rfl, rfl⟩
theorem shra : ∀ x0 x1 x2 x3 x4, Statement (.shra x0 x1 x2 x3 x4) := fun _ _ _ _ _ => ⟨rfl, rfl, rfl, rfl⟩
theorem shrl : ∀ x0 x1 x2 x3, Statement (.shrl x0 x1 x2 x3) := fun _ _ _ _ => ⟨rfl, rfl, rfl, rfl⟩
theorem mul : ∀ x0 x1 x2 x3 x4, Statement (.mul x0 x1 x2 x3 x4) := fun _ _ _ _ _ => ⟨rfl, rfl, rfl, rfl⟩
theorem muli : ∀ x0 x1 x2 x3 x4, Statement (.muli x0 x1 x2 x3 x4) := fun _ _ _ _ _ => ⟨rfl, rfl, rfl, rfl⟩
theorem div : ∀ x0 x1 x2 x3 x4, Statement (.div x0 x1 x2 x3 x4) := fun _ _ _ _ _ => ⟨rfl, rfl, rfl, rfl⟩
theorem divi : ∀ x0 x1 x2 x3 x4, Statement (.divi x0 x1 x2 x3 x4) := fun _ _ _ _ _ => ⟨rfl, rfl, rfl, rfl⟩
theorem divisionResult : ∀ x0, Statement (.divisionResult x0) := fun _ => ⟨rfl, rfl, rfl, rfl⟩
theorem maxi : ∀ x0 x1 x2 x3, Statement (.maxi x0 x1 x2 x3) := fun _ _ _ _ => ⟨rfl, rfl, rfl, rfl⟩
theorem mini : ∀ x0 x1 x2 x3, Statement (.mini x0 x1 x2 x3) := fun _ _ _ _ => ⟨rfl, rfl, rfl, rfl⟩
theorem qmac : ∀ x0 x1 x2 x3 x4, Statement (.qmac x0 x1 x2 x3 x4) := fun _ _ _ _ _ => ⟨rfl, rfl, rfl, rfl⟩
theorem qmacRt : ∀ x0 x1 x2 x3 x4, Statement (.qmacRt x0 x1 x2 x3 x4) := fun _ _ _ _ _ => ⟨rfl, rfl, rfl, rfl⟩
theorem qmsb : ∀ x0 x1 x2 x3 x4, Statement (.qmsb x0 x1 x2 x3 x4) := fun _ _ _ _ _ => ⟨rfl, rfl, rfl, rfl⟩
theorem qmsbRt : ∀ x0 x1 x2 x3 x4, Statement (.qmsbRt x0 x1 x2 x3 x4) := fun _ _ _ _ _ => ⟨rfl, rfl, rfl, rfl⟩
theorem qext : ∀ x0 x1 x2 x3 x4, Statement (.qext x0 x1 x2 x3 x4) := fun _ _ _ _ _ => ⟨rfl, rfl, rfl, rfl⟩
theorem qclr : ∀ x0 x1, Statement (.qclr x0 x1) := fun _ _ => ⟨rfl, rfl, rfl, rfl⟩
theorem qld : ∀ x0 x1 x2, Statement (.qld x0 x1 x2) := fun _ _ _ => ⟨rfl, rfl, rfl, rfl⟩
theorem qadd : ∀ x0 x1 x2 x3 x4, Statement (.qadd x0 x1 x2 x3 x4) := fun _ _ _ _ _ => ⟨rfl, rfl, rfl, rfl⟩
theorem qsub : ∀ x0 x1 x2 x3 x4, Statement (.qsub x0 x1 x2 x3 x4) := fun _ _ _ _ _ => ⟨rfl, rfl, rfl, rfl⟩
theorem qshl : ∀ x0 x1 x2 x3 x4, Statement (.qshl x0 x1 x2 x3 x4) := fun _ _ _ _ _ => ⟨rfl, rfl, rfl, rfl⟩
theorem qshra : ∀ x0 x1 x2 x3 x4, Statement (.qshra x0 x1 x2 x3 x4) := fun _ _ _ _ _ => ⟨rfl, rfl, rfl, rfl⟩
theorem bset : ∀ x0 x1, Statement (.bset x0 x1) := fun _ _ => ⟨rfl, rfl, rfl, rfl⟩
theorem bclr : ∀ x0 x1, Statement (.bclr x0 x1) := fun _ _ => ⟨rfl, rfl, rfl, rfl⟩
theorem btgl : ∀ x0 x1, Statement (.btgl x0 x1) := fun _ _ => ⟨rfl, rfl, rfl, rfl⟩
theorem btst : ∀ x0 x1 x2, Statement (.btst x0 x1 x2) := fun _ _ _ => ⟨rfl, rfl, rfl, rfl⟩
theorem bmovFromBit : ∀ x0 x1 x2, Statement (.bmovFromBit x0 x1 x2) := fun _ _ _ => ⟨rfl, rfl, rfl, rfl⟩
theorem bmovFromRegister : ∀ x0 x1 x2, Statement (.bmovFromRegister x0 x1 x2) := fun _ _ _ => ⟨rfl, rfl, rfl, rfl⟩
theorem band : ∀ x0 x1 x2 x3, Statement (.band x0 x1 x2 x3) := fun _ _ _ _ => ⟨rfl, rfl, rfl, rfl⟩
theorem bor : ∀ x0 x1 x2 x3, Statement (.bor x0 x1 x2 x3) := fun _ _ _ _ => ⟨rfl, rfl, rfl, rfl⟩
theorem bitTas : ∀ x0 x1 x2, Statement (.bitTas x0 x1 x2) := fun _ _ _ => ⟨rfl, rfl, rfl, rfl⟩
theorem spinIssue : ∀ x0 x1 x2, Statement (.spinIssue x0 x1 x2) := fun _ _ _ => ⟨rfl, rfl, rfl, rfl⟩
theorem spinGet : ∀ x0 x1 x2, Statement (.spinGet x0 x1 x2) := fun _ _ _ => ⟨rfl, rfl, rfl, rfl⟩
theorem spinXg : ∀ x0 x1 x2 x3, Statement (.spinXg x0 x1 x2 x3) := fun _ _ _ _ => ⟨rfl, rfl, rfl, rfl⟩
theorem spinResult : ∀ x0, Statement (.spinResult x0) := fun _ => ⟨rfl, rfl, rfl, rfl⟩
theorem loadResult : ∀ x0, Statement (.loadResult x0) := fun _ => ⟨rfl, rfl, rfl, rfl⟩
theorem illegalWord : ∀ x0, Statement (.illegalWord x0) := fun _ => ⟨rfl, rfl, rfl, rfl⟩
theorem wait : ∀ x0, Statement (.wait x0) := fun _ => ⟨rfl, rfl, rfl, rfl⟩
theorem waitResume : ∀ x0, Statement (.waitResume x0) := fun _ => ⟨rfl, rfl, rfl, rfl⟩
theorem reti : ∀ x0, Statement (.reti x0) := fun _ => ⟨rfl, rfl, rfl, rfl⟩
theorem doLoop : ∀ x0 x1 x2, Statement (.doLoop x0 x1 x2) := fun _ _ _ => ⟨rfl, rfl, rfl, rfl⟩
theorem ldw : ∀ x0 x1 x2, Statement (.ldw x0 x1 x2) := fun _ _ _ => ⟨rfl, rfl, rfl, rfl⟩
theorem stw : ∀ x0 x1 x2, Statement (.stw x0 x1 x2) := fun _ _ _ => ⟨rfl, rfl, rfl, rfl⟩
theorem interruptEntry : ∀ x0, Statement (.interruptEntry x0) := fun _ => ⟨rfl, rfl, rfl, rfl⟩
theorem kickoffMark : ∀ x0 x1, Statement (.kickoffMark x0 x1) := fun _ _ => ⟨rfl, rfl, rfl, rfl⟩
theorem engineKickoff : ∀ x0, Statement (.engineKickoff x0) := fun _ => ⟨rfl, rfl, rfl, rfl⟩
theorem overrunLen : ∀ x0, Statement (.overrunLen x0) := fun _ => ⟨rfl, rfl, rfl, rfl⟩
theorem rallyStart : ∀ x0, Statement (.rallyStart x0) := fun _ => ⟨rfl, rfl, rfl, rfl⟩
theorem frameResolve : ∀ x0 x1, Statement (.frameResolve x0 x1) := fun _ _ => ⟨rfl, rfl, rfl, rfl⟩
theorem sapFrameBoundary : ∀ x0 x1 x2 x3 x4 x5, Statement (.sapFrameBoundary x0 x1 x2 x3 x4 x5) := fun _ _ _ _ _ _ => ⟨rfl, rfl, rfl, rfl⟩
theorem sapRxFrameEnd : ∀ x0 x1 x2, Statement (.sapRxFrameEnd x0 x1 x2) := fun _ _ _ => ⟨rfl, rfl, rfl, rfl⟩
theorem sapClockLoss : ∀ x0, Statement (.sapClockLoss x0) := fun _ => ⟨rfl, rfl, rfl, rfl⟩
theorem asrcLock : ∀ x0 x1, Statement (.asrcLock x0 x1) := fun _ _ => ⟨rfl, rfl, rfl, rfl⟩
theorem asrcUnlock : ∀ x0 x1 x2, Statement (.asrcUnlock x0 x1 x2) := fun _ _ _ => ⟨rfl, rfl, rfl, rfl⟩
theorem whistleAssert : Statement .whistleAssert := ⟨rfl, rfl, rfl, rfl⟩
theorem whistleRelease : Statement .whistleRelease := ⟨rfl, rfl, rfl, rfl⟩
theorem writeRecord : ∀ x0 x1, Statement (.writeRecord x0 x1) := fun _ _ => ⟨rfl, rfl, rfl, rfl⟩
theorem fillRecord : ∀ x0 x1, Statement (.fillRecord x0 x1) := fun _ _ => ⟨rfl, rfl, rfl, rfl⟩
theorem tableRecord : ∀ x0 x1, Statement (.tableRecord x0 x1) := fun _ _ => ⟨rfl, rfl, rfl, rfl⟩
theorem programRecord : ∀ x0 x1, Statement (.programRecord x0 x1) := fun _ _ => ⟨rfl, rfl, rfl, rfl⟩
theorem commitRecord : ∀ x0 x1, Statement (.commitRecord x0 x1) := fun _ _ => ⟨rfl, rfl, rfl, rfl⟩
theorem endRecord : ∀ x0 x1, Statement (.endRecord x0 x1) := fun _ _ => ⟨rfl, rfl, rfl, rfl⟩
theorem regionQuiesced : ∀ x0, Statement (.regionQuiesced x0) := fun _ => ⟨rfl, rfl, rfl, rfl⟩
theorem ldrGo : ∀ x0 x1, Statement (.ldrGo x0 x1) := fun _ _ => ⟨rfl, rfl, rfl, rfl⟩
theorem ldrAbort : ∀ x0 x1, Statement (.ldrAbort x0 x1) := fun _ _ => ⟨rfl, rfl, rfl, rfl⟩
theorem commandedLoadEnd : Statement .commandedLoadEnd := ⟨rfl, rfl, rfl, rfl⟩
theorem queue0GapTimeout : Statement .queue0GapTimeout := ⟨rfl, rfl, rfl, rfl⟩
theorem registerWrite : ∀ x0 x1 x2 x3, Statement (.registerWrite x0 x1 x2 x3) := fun _ _ _ _ => ⟨rfl, rfl, rfl, rfl⟩
theorem readClear : ∀ x0 x1 x2, Statement (.readClear x0 x1 x2) := fun _ _ _ => ⟨rfl, rfl, rfl, rfl⟩
theorem wLowRead : ∀ x0 x1, Statement (.wLowRead x0 x1) := fun _ _ => ⟨rfl, rfl, rfl, rfl⟩
theorem wLowWrite : ∀ x0 x1 x2, Statement (.wLowWrite x0 x1 x2) := fun _ _ _ => ⟨rfl, rfl, rfl, rfl⟩
theorem wHighWrite : ∀ x0 x1 x2, Statement (.wHighWrite x0 x1 x2) := fun _ _ _ => ⟨rfl, rfl, rfl, rfl⟩
theorem mediaWriteComplete : ∀ x0, Statement (.mediaWriteComplete x0) := fun _ => ⟨rfl, rfl, rfl, rfl⟩
theorem aonWriteComplete : ∀ x0, Statement (.aonWriteComplete x0) := fun _ => ⟨rfl, rfl, rfl, rfl⟩
theorem engineRegisterWrite : ∀ x0 x1 x2 x3, Statement (.engineRegisterWrite x0 x1 x2 x3) := fun _ _ _ _ => ⟨rfl, rfl, rfl, rfl⟩
theorem engTagctlWrite : ∀ x0 x1 x2, Statement (.engTagctlWrite x0 x1 x2) := fun _ _ _ => ⟨rfl, rfl, rfl, rfl⟩
theorem localDataHostAccess : ∀ x0 x1 x2 x3 x4, Statement (.localDataHostAccess x0 x1 x2 x3 x4) := fun _ _ _ _ _ => ⟨rfl, rfl, rfl, rfl⟩
theorem programBankHostWrite : ∀ x0 x1 x2 x3 x4 x5, Statement (.programBankHostWrite x0 x1 x2 x3 x4 x5) := fun _ _ _ _ _ _ => ⟨rfl, rfl, rfl, rfl⟩
theorem groupWindowWrite : ∀ x0 x1 x2 x3 x4, Statement (.groupWindowWrite x0 x1 x2 x3 x4) := fun _ _ _ _ _ => ⟨rfl, rfl, rfl, rfl⟩
theorem delayHostAccess : ∀ x0 x1 x2 x3 x4, Statement (.delayHostAccess x0 x1 x2 x3 x4) := fun _ _ _ _ _ => ⟨rfl, rfl, rfl, rfl⟩
theorem aliasAtomicAdd : ∀ x0 x1 x2 x3, Statement (.aliasAtomicAdd x0 x1 x2 x3) := fun _ _ _ _ => ⟨rfl, rfl, rfl, rfl⟩
theorem aliasAtomicSwap : ∀ x0 x1 x2 x3, Statement (.aliasAtomicSwap x0 x1 x2 x3) := fun _ _ _ _ => ⟨rfl, rfl, rfl, rfl⟩
theorem aliasBitSet : ∀ x0 x1 x2 x3, Statement (.aliasBitSet x0 x1 x2 x3) := fun _ _ _ _ => ⟨rfl, rfl, rfl, rfl⟩
theorem aliasBitClear : ∀ x0 x1 x2 x3, Statement (.aliasBitClear x0 x1 x2 x3) := fun _ _ _ _ => ⟨rfl, rfl, rfl, rfl⟩
theorem tagViewWrite : ∀ x0 x1 x2 x3, Statement (.tagViewWrite x0 x1 x2 x3) := fun _ _ _ _ => ⟨rfl, rfl, rfl, rfl⟩
theorem dlyBankpwrWrite : ∀ x0 x1 x2, Statement (.dlyBankpwrWrite x0 x1 x2) := fun _ _ _ => ⟨rfl, rfl, rfl, rfl⟩
theorem bankTransitionDone : ∀ x0 x1, Statement (.bankTransitionDone x0 x1) := fun _ _ => ⟨rfl, rfl, rfl, rfl⟩
theorem bankSweepDone : ∀ x0, Statement (.bankSweepDone x0) := fun _ => ⟨rfl, rfl, rfl, rfl⟩
theorem routeChgWrite : ∀ x0 x1, Statement (.routeChgWrite x0 x1) := fun _ _ => ⟨rfl, rfl, rfl, rfl⟩
theorem routeGo : ∀ x0 x1, Statement (.routeGo x0 x1) := fun _ _ => ⟨rfl, rfl, rfl, rfl⟩
theorem routeDiscard : ∀ x0 x1, Statement (.routeDiscard x0 x1) := fun _ _ => ⟨rfl, rfl, rfl, rfl⟩
theorem routeBypselWrite : ∀ x0 x1, Statement (.routeBypselWrite x0 x1) := fun _ _ => ⟨rfl, rfl, rfl, rfl⟩
theorem genSineWrite : ∀ x0 x1 x2, Statement (.genSineWrite x0 x1 x2) := fun _ _ _ => ⟨rfl, rfl, rfl, rfl⟩
theorem genNoiseWrite : ∀ x0 x1 x2, Statement (.genNoiseWrite x0 x1 x2) := fun _ _ _ => ⟨rfl, rfl, rfl, rfl⟩
theorem mixXpcmdWrite : ∀ x0 x1 x2, Statement (.mixXpcmdWrite x0 x1 x2) := fun _ _ _ => ⟨rfl, rfl, rfl, rfl⟩
theorem mixGo : ∀ x0 x1 x2, Statement (.mixGo x0 x1 x2) := fun _ _ _ => ⟨rfl, rfl, rfl, rfl⟩
theorem mixDiscard : ∀ x0 x1 x2, Statement (.mixDiscard x0 x1 x2) := fun _ _ _ => ⟨rfl, rfl, rfl, rfl⟩
theorem sapUnmute : ∀ x0 x1, Statement (.sapUnmute x0 x1) := fun _ _ => ⟨rfl, rfl, rfl, rfl⟩
theorem guardRtWrite : ∀ x0 x1 x2, Statement (.guardRtWrite x0 x1 x2) := fun _ _ _ => ⟨rfl, rfl, rfl, rfl⟩
theorem guardWdrel : ∀ x0, Statement (.guardWdrel x0) := fun _ => ⟨rfl, rfl, rfl, rfl⟩
theorem wdogKickWrite : ∀ x0 x1, Statement (.wdogKickWrite x0 x1) := fun _ _ => ⟨rfl, rfl, rfl, rfl⟩
theorem wdogCtlWrite : ∀ x0 x1, Statement (.wdogCtlWrite x0 x1) := fun _ _ => ⟨rfl, rfl, rfl, rfl⟩
theorem watchdogExpiry : Statement .watchdogExpiry := ⟨rfl, rfl, rfl, rfl⟩
theorem ccRun : ∀ x0 x1, Statement (.ccRun x0 x1) := fun _ _ => ⟨rfl, rfl, rfl, rfl⟩
theorem ccReset : ∀ x0 x1, Statement (.ccReset x0 x1) := fun _ _ => ⟨rfl, rfl, rfl, rfl⟩
theorem evtSwtrigWrite : ∀ x0 x1, Statement (.evtSwtrigWrite x0 x1) := fun _ _ => ⟨rfl, rfl, rfl, rfl⟩
theorem evtRouteWrite : ∀ x0 x1 x2, Statement (.evtRouteWrite x0 x1 x2) := fun _ _ _ => ⟨rfl, rfl, rfl, rfl⟩
theorem evtMsixackWrite : ∀ x0 x1, Statement (.evtMsixackWrite x0 x1) := fun _ _ => ⟨rfl, rfl, rfl, rfl⟩
theorem eventDelivery : ∀ x0, Statement (.eventDelivery x0) := fun _ => ⟨rfl, rfl, rfl, rfl⟩
theorem quePortRead : ∀ x0 x1, Statement (.quePortRead x0 x1) := fun _ _ => ⟨rfl, rfl, rfl, rfl⟩
theorem quePortWrite : ∀ x0 x1 x2, Statement (.quePortWrite x0 x1 x2) := fun _ _ _ => ⟨rfl, rfl, rfl, rfl⟩
theorem quePushWrite : ∀ x0 x1 x2, Statement (.quePushWrite x0 x1 x2) := fun _ _ _ => ⟨rfl, rfl, rfl, rfl⟩
theorem queFlush : ∀ x0 x1, Statement (.queFlush x0 x1) := fun _ _ => ⟨rfl, rfl, rfl, rfl⟩
theorem queueCrossingEntry : ∀ x0, Statement (.queueCrossingEntry x0) := fun _ => ⟨rfl, rfl, rfl, rfl⟩
theorem clkMtgtWrite : ∀ x0 x1 x2, Statement (.clkMtgtWrite x0 x1 x2) := fun _ _ _ => ⟨rfl, rfl, rfl, rfl⟩
theorem clkMctlWrite : ∀ x0 x1 x2, Statement (.clkMctlWrite x0 x1 x2) := fun _ _ _ => ⟨rfl, rfl, rfl, rfl⟩
theorem handoverArm : ∀ x0 x1 x2, Statement (.handoverArm x0 x1 x2) := fun _ _ _ => ⟨rfl, rfl, rfl, rfl⟩
theorem pllLock : ∀ x0, Statement (.pllLock x0) := fun _ => ⟨rfl, rfl, rfl, rfl⟩
theorem pllLockTimeout : ∀ x0, Statement (.pllLockTimeout x0) := fun _ => ⟨rfl, rfl, rfl, rfl⟩
theorem pllLossOfLock : ∀ x0, Statement (.pllLossOfLock x0) := fun _ => ⟨rfl, rfl, rfl, rfl⟩
theorem timeStepWrite : ∀ x0 x1, Statement (.timeStepWrite x0 x1) := fun _ _ => ⟨rfl, rfl, rfl, rfl⟩
theorem timeCtlWrite : ∀ x0 x1, Statement (.timeCtlWrite x0 x1) := fun _ _ => ⟨rfl, rfl, rfl, rfl⟩
theorem timeFreqWrite : ∀ x0 x1, Statement (.timeFreqWrite x0 x1) := fun _ _ => ⟨rfl, rfl, rfl, rfl⟩
theorem ppsInEdge : ∀ x0, Statement (.ppsInEdge x0) := fun _ => ⟨rfl, rfl, rfl, rfl⟩
theorem wclkInEdge : ∀ x0 x1, Statement (.wclkInEdge x0 x1) := fun _ _ => ⟨rfl, rfl, rfl, rfl⟩
theorem holdoverTimeout : Statement .holdoverTimeout := ⟨rfl, rfl, rfl, rfl⟩
theorem aonCalibrationWindow : Statement .aonCalibrationWindow := ⟨rfl, rfl, rfl, rfl⟩
theorem ppsOutPulse : Statement .ppsOutPulse := ⟨rfl, rfl, rfl, rfl⟩
theorem linkSignalDetect : ∀ x0, Statement (.linkSignalDetect x0) := fun _ => ⟨rfl, rfl, rfl, rfl⟩
theorem cdrLock : ∀ x0, Statement (.cdrLock x0) := fun _ => ⟨rfl, rfl, rfl, rfl⟩
theorem blockLock : ∀ x0, Statement (.blockLock x0) := fun _ => ⟨rfl, rfl, rfl, rfl⟩
theorem trainingSetRx : ∀ x0 x1 x2 x3, Statement (.trainingSetRx x0 x1 x2 x3) := fun _ _ _ _ => ⟨rfl, rfl, rfl, rfl⟩
theorem rateChangeDone : ∀ x0, Statement (.rateChangeDone x0) := fun _ => ⟨rfl, rfl, rfl, rfl⟩
theorem rateFallback : ∀ x0, Statement (.rateFallback x0) := fun _ => ⟨rfl, rfl, rfl, rfl⟩
theorem linkTrainTimeout : ∀ x0, Statement (.linkTrainTimeout x0) := fun _ => ⟨rfl, rfl, rfl, rfl⟩
theorem linkHiber : ∀ x0 x1, Statement (.linkHiber x0 x1) := fun _ _ => ⟨rfl, rfl, rfl, rfl⟩
theorem linkRetrain : ∀ x0 x1 x2, Statement (.linkRetrain x0 x1 x2) := fun _ _ _ => ⟨rfl, rfl, rfl, rfl⟩
theorem lyathFrameRx : ∀ x0 x1 x2, Statement (.lyathFrameRx x0 x1 x2) := fun _ _ _ => ⟨rfl, rfl, rfl, rfl⟩
theorem linkMapdataWrite : ∀ x0 x1 x2, Statement (.linkMapdataWrite x0 x1 x2) := fun _ _ _ => ⟨rfl, rfl, rfl, rfl⟩
theorem hello : ∀ x0, Statement (.hello x0) := fun _ => ⟨rfl, rfl, rfl, rfl⟩
theorem lsa : ∀ x0, Statement (.lsa x0) := fun _ => ⟨rfl, rfl, rfl, rfl⟩
theorem captain : ∀ x0, Statement (.captain x0) := fun _ => ⟨rfl, rfl, rfl, rfl⟩
theorem grant : ∀ x0, Statement (.grant x0) := fun _ => ⟨rfl, rfl, rfl, rfl⟩
theorem runReq : ∀ x0, Statement (.runReq x0) := fun _ => ⟨rfl, rfl, rfl, rfl⟩
theorem runAck : ∀ x0, Statement (.runAck x0) := fun _ => ⟨rfl, rfl, rfl, rfl⟩
theorem runNak : ∀ x0, Statement (.runNak x0) := fun _ => ⟨rfl, rfl, rfl, rfl⟩
theorem runTear : ∀ x0, Statement (.runTear x0) := fun _ => ⟨rfl, rfl, rfl, rfl⟩
theorem user : ∀ x0, Statement (.user x0) := fun _ => ⟨rfl, rfl, rfl, rfl⟩
theorem fabRejoin : ∀ x0 x1, Statement (.fabRejoin x0 x1) := fun _ _ => ⟨rfl, rfl, rfl, rfl⟩
theorem isolatedRejoin : Statement .isolatedRejoin := ⟨rfl, rfl, rfl, rfl⟩
theorem adjacencyDead : ∀ x0, Statement (.adjacencyDead x0) := fun _ => ⟨rfl, rfl, rfl, rfl⟩
theorem helloKeepalive : ∀ x0, Statement (.helloKeepalive x0) := fun _ => ⟨rfl, rfl, rfl, rfl⟩
theorem endOfQuiet : Statement .endOfQuiet := ⟨rfl, rfl, rfl, rfl⟩
theorem grantDeadline : Statement .grantDeadline := ⟨rfl, rfl, rfl, rfl⟩
theorem tombstoneCreate : ∀ x0, Statement (.tombstoneCreate x0) := fun _ => ⟨rfl, rfl, rfl, rfl⟩
theorem tombstoneExpiry : ∀ x0, Statement (.tombstoneExpiry x0) := fun _ => ⟨rfl, rfl, rfl, rfl⟩
theorem lsaReflood : Statement .lsaReflood := ⟨rfl, rfl, rfl, rfl⟩
theorem runSetup : ∀ x0 x1, Statement (.runSetup x0 x1) := fun _ _ => ⟨rfl, rfl, rfl, rfl⟩
theorem runTeardown : ∀ x0 x1, Statement (.runTeardown x0 x1) := fun _ _ => ⟨rfl, rfl, rfl, rfl⟩
theorem runTimeout : ∀ x0, Statement (.runTimeout x0) := fun _ => ⟨rfl, rfl, rfl, rfl⟩
theorem fabricGateOpen : Statement .fabricGateOpen := ⟨rfl, rfl, rfl, rfl⟩
theorem coachDecision : ∀ x0 x1, Statement (.coachDecision x0 x1) := fun _ _ => ⟨rfl, rfl, rfl, rfl⟩
theorem thermalSensorConversion : ∀ x0, Statement (.thermalSensorConversion x0) := fun _ => ⟨rfl, rfl, rfl, rfl⟩
theorem dvfsOppRequest : ∀ x0 x1, Statement (.dvfsOppRequest x0 x1) := fun _ _ => ⟨rfl, rfl, rfl, rfl⟩
theorem dvfsVoltageRequest : ∀ x0 x1, Statement (.dvfsVoltageRequest x0 x1) := fun _ _ => ⟨rfl, rfl, rfl, rfl⟩
theorem dvfsFrequencyRequest : ∀ x0 x1, Statement (.dvfsFrequencyRequest x0 x1) := fun _ _ => ⟨rfl, rfl, rfl, rfl⟩
theorem voltageConfirm : ∀ x0, Statement (.voltageConfirm x0) := fun _ => ⟨rfl, rfl, rfl, rfl⟩
theorem voltageStepFail : ∀ x0 x1, Statement (.voltageStepFail x0 x1) := fun _ _ => ⟨rfl, rfl, rfl, rfl⟩
theorem pwrModeWrite : ∀ x0 x1, Statement (.pwrModeWrite x0 x1) := fun _ _ => ⟨rfl, rfl, rfl, rfl⟩
theorem pwrVoteWrite : ∀ x0 x1 x2, Statement (.pwrVoteWrite x0 x1 x2) := fun _ _ _ => ⟨rfl, rfl, rfl, rfl⟩
theorem domainIdleTimeout : ∀ x0, Statement (.domainIdleTimeout x0) := fun _ => ⟨rfl, rfl, rfl, rfl⟩
theorem domainDownTimeout : ∀ x0, Statement (.domainDownTimeout x0) := fun _ => ⟨rfl, rfl, rfl, rfl⟩
theorem domainWakeDone : ∀ x0, Statement (.domainWakeDone x0) := fun _ => ⟨rfl, rfl, rfl, rfl⟩
theorem pwrEnter : ∀ x0 x1, Statement (.pwrEnter x0 x1) := fun _ _ => ⟨rfl, rfl, rfl, rfl⟩
theorem deviceTimerExpiry : Statement .deviceTimerExpiry := ⟨rfl, rfl, rfl, rfl⟩
theorem entryCommitPoint : ∀ x0, Statement (.entryCommitPoint x0) := fun _ => ⟨rfl, rfl, rfl, rfl⟩
theorem wakeNAssert : Statement .wakeNAssert := ⟨rfl, rfl, rfl, rfl⟩
theorem senseCrossing : ∀ x0 x1, Statement (.senseCrossing x0 x1) := fun _ _ => ⟨rfl, rfl, rfl, rfl⟩
theorem linkSquelchWake : ∀ x0, Statement (.linkSquelchWake x0) := fun _ => ⟨rfl, rfl, rfl, rfl⟩
theorem hspiCsWake : Statement .hspiCsWake := ⟨rfl, rfl, rfl, rfl⟩
theorem pcieL1Exit : Statement .pcieL1Exit := ⟨rfl, rfl, rfl, rfl⟩
theorem perstNRise : Statement .perstNRise := ⟨rfl, rfl, rfl, rfl⟩
theorem perstNFall : Statement .perstNFall := ⟨rfl, rfl, rfl, rfl⟩
theorem aonAlarm : Statement .aonAlarm := ⟨rfl, rfl, rfl, rfl⟩
theorem pmbAlert : ∀ x0, Statement (.pmbAlert x0) := fun _ => ⟨rfl, rfl, rfl, rfl⟩
theorem exitComplete : ∀ x0 x1, Statement (.exitComplete x0 x1) := fun _ _ => ⟨rfl, rfl, rfl, rfl⟩
theorem offWakeBoot : ∀ x0 x1, Statement (.offWakeBoot x0 x1) := fun _ _ => ⟨rfl, rfl, rfl, rfl⟩
theorem padRelease : ∀ x0 x1, Statement (.padRelease x0 x1) := fun _ _ => ⟨rfl, rfl, rfl, rfl⟩
theorem vddAonPowerOn : ∀ x0 x1, Statement (.vddAonPowerOn x0 x1) := fun _ _ => ⟨rfl, rfl, rfl, rfl⟩
theorem resetNAssert : Statement .resetNAssert := ⟨rfl, rfl, rfl, rfl⟩
theorem resetNRise : ∀ x0, Statement (.resetNRise x0) := fun _ => ⟨rfl, rfl, rfl, rfl⟩
theorem loadBegin : Statement .loadBegin := ⟨rfl, rfl, rfl, rfl⟩
theorem slotHeaderRead : ∀ x0 x1, Statement (.slotHeaderRead x0 x1) := fun _ _ => ⟨rfl, rfl, rfl, rfl⟩
theorem blockReadDone : ∀ x0 x1, Statement (.blockReadDone x0 x1) := fun _ _ => ⟨rfl, rfl, rfl, rfl⟩
theorem recordsBlock : Statement .recordsBlock := ⟨rfl, rfl, rfl, rfl⟩
theorem memoryBlock : Statement .memoryBlock := ⟨rfl, rfl, rfl, rfl⟩
theorem startBlock : Statement .startBlock := ⟨rfl, rfl, rfl, rfl⟩
theorem loaderGateOpen : Statement .loaderGateOpen := ⟨rfl, rfl, rfl, rfl⟩
theorem hostPushTimeout : Statement .hostPushTimeout := ⟨rfl, rfl, rfl, rfl⟩
theorem subArm : ∀ x0 x1, Statement (.subArm x0 x1) := fun _ _ => ⟨rfl, rfl, rfl, rfl⟩
theorem subCopyDone : Statement .subCopyDone := ⟨rfl, rfl, rfl, rfl⟩
theorem subAbort : ∀ x0 x1, Statement (.subAbort x0 x1) := fun _ _ => ⟨rfl, rfl, rfl, rfl⟩
theorem subReadmit : ∀ x0 x1, Statement (.subReadmit x0 x1) := fun _ _ => ⟨rfl, rfl, rfl, rfl⟩
theorem fspiXcmdGo : ∀ x0 x1, Statement (.fspiXcmdGo x0 x1) := fun _ _ => ⟨rfl, rfl, rfl, rfl⟩
theorem fspiCommandDone : ∀ x0, Statement (.fspiCommandDone x0) := fun _ => ⟨rfl, rfl, rfl, rfl⟩
theorem bootActGo : ∀ x0 x1, Statement (.bootActGo x0 x1) := fun _ _ => ⟨rfl, rfl, rfl, rfl⟩
theorem partitionWrite : ∀ x0 x1 x2, Statement (.partitionWrite x0 x1 x2) := fun _ _ _ => ⟨rfl, rfl, rfl, rfl⟩
theorem lcAdvanceWrite : ∀ x0 x1, Statement (.lcAdvanceWrite x0 x1) := fun _ _ => ⟨rfl, rfl, rfl, rfl⟩
theorem tamperAssert : Statement .tamperAssert := ⟨rfl, rfl, rfl, rfl⟩
theorem partitionWipeDone : Statement .partitionWipeDone := ⟨rfl, rfl, rfl, rfl⟩
theorem hspiWrite : ∀ x0 x1 x2, Statement (.hspiWrite x0 x1 x2) := fun _ _ _ => ⟨rfl, rfl, rfl, rfl⟩
theorem hspiRead : ∀ x0 x1 x2, Statement (.hspiRead x0 x1 x2) := fun _ _ _ => ⟨rfl, rfl, rfl, rfl⟩
theorem hspiStatus : ∀ x0 x1, Statement (.hspiStatus x0 x1) := fun _ _ => ⟨rfl, rfl, rfl, rfl⟩
theorem hspiQread : ∀ x0 x1, Statement (.hspiQread x0 x1) := fun _ _ => ⟨rfl, rfl, rfl, rfl⟩
theorem hspiFetch : ∀ x0 x1, Statement (.hspiFetch x0 x1) := fun _ _ => ⟨rfl, rfl, rfl, rfl⟩
theorem hspiReservedFrame : ∀ x0 x1, Statement (.hspiReservedFrame x0 x1) := fun _ _ => ⟨rfl, rfl, rfl, rfl⟩
theorem hspiPostedAccess : Statement .hspiPostedAccess := ⟨rfl, rfl, rfl, rfl⟩
theorem cspiGo : ∀ x0 x1, Statement (.cspiGo x0 x1) := fun _ _ => ⟨rfl, rfl, rfl, rfl⟩
theorem cspiDone : ∀ x0, Statement (.cspiDone x0) := fun _ => ⟨rfl, rfl, rfl, rfl⟩
theorem cspiTxWrite : ∀ x0 x1, Statement (.cspiTxWrite x0 x1) := fun _ _ => ⟨rfl, rfl, rfl, rfl⟩
theorem cspiRxRead : ∀ x0, Statement (.cspiRxRead x0) := fun _ => ⟨rfl, rfl, rfl, rfl⟩
theorem pcieMemoryWrite : ∀ x0 x1, Statement (.pcieMemoryWrite x0 x1) := fun _ _ => ⟨rfl, rfl, rfl, rfl⟩
theorem pcieMemoryRead : ∀ x0 x1, Statement (.pcieMemoryRead x0 x1) := fun _ _ => ⟨rfl, rfl, rfl, rfl⟩
theorem pcieUnsupportedRequest : Statement .pcieUnsupportedRequest := ⟨rfl, rfl, rfl, rfl⟩
theorem pciePoisonedWrite : Statement .pciePoisonedWrite := ⟨rfl, rfl, rfl, rfl⟩
theorem pcieLinkChange : ∀ x0 x1 x2 x3, Statement (.pcieLinkChange x0 x1 x2 x3) := fun _ _ _ _ => ⟨rfl, rfl, rfl, rfl⟩
theorem pcieConfigurationRequest : ∀ x0, Statement (.pcieConfigurationRequest x0) := fun _ => ⟨rfl, rfl, rfl, rfl⟩
theorem membusyNPulseEnd : Statement .membusyNPulseEnd := ⟨rfl, rfl, rfl, rfl⟩
theorem ppsOutFall : Statement .ppsOutFall := ⟨rfl, rfl, rfl, rfl⟩
theorem gpioInputChange : ∀ x0 x1, Statement (.gpioInputChange x0 x1) := fun _ _ => ⟨rfl, rfl, rfl, rfl⟩
theorem ts2Sent : ∀ x0, Statement (.ts2Sent x0) := fun _ => ⟨rfl, rfl, rfl, rfl⟩
theorem vddAonRemoval : Statement .vddAonRemoval := ⟨rfl, rfl, rfl, rfl⟩

end Sys2Proof.Laws.Classes
end

