-- ==== Sys2Proof/Machine/Pins.lean ====
section
/-! DEFINITION. What the pins carry in every power state (R50 to R57, the table of pin states, R324, R400, R496, R507). -/

namespace Sys2Proof.Machine

/-- A pin of the device, numbered where it is one of several; `sapDout n k` is SAPn_DOUT during slot k. -/
inductive Pin where
  | sapBclk (n : Fin 32)
  | sapFsync (n : Fin 32)
  | sapDin (n : Fin 32)
  | sapDout (n : Fin 32) (k : Fin 32)
  | gpio (k : Fin 32)
  | fc (k : Fin 8)
  | wclkOut (w : Fin 4)
  | ppsOut
  | wclkIn (w : Fin 2)
  | ppsIn
  | refIn
  | linkTx (n : Fin 8)
  | linkRx (n : Fin 8)
  | pcieTx
  | pcieRx
  | perstN
  | fspiCsN
  | fspiSclk
  | fspiDq
  | hspiIn
  | hspiMiso
  | cspiCsN (s : Fin 8)
  | cspiSclk
  | cspiMosi
  | cspiMiso
  | attnN
  | membusyN
  | faultN
  | pmb
  | pmbAlertN
  | sense (k : Fin 4)
  | wakeN
  | tamperN
  | resetN
  | whistleN
  | bootsel
  deriving DecidableEq, Repr

/-- What a pin does: floats (high impedance, no pull, no termination); is an input, or one whose buffer is disabled; drives a level, a
word of serial data or the clocks or transfers of its interface; stays at the level it was latched at; is released or driven
low as an open drain; for a lane, what it transmits, its termination, its squelch detector or electrical idle. -/
inductive Pad where
  | floats
  | input
  | inputOff
  | drives (level : Bool)
  | data (w : Word)
  | toggles
  | latched
  | openDrain (low : Bool)
  | lane (o : LinkOut)
  | terminated
  | detector
  | elecIdle
  deriving DecidableEq, Repr

/-- Whether the package bonds a pin out (R36). -/
def pinBonded (d : Device) (p : Pin) : Bool :=
  match p with
  | .sapBclk n | .sapFsync n | .sapDin n | .sapDout n _ => decide (n.val < sapCount d)
  | .wclkOut w => hasPcie d || decide (w.val < 2)
  | .wclkIn w => hasPcie d || decide (w.val < 1)
  | .linkTx n | .linkRx n => decide (n.val < linkCount d)
  | .pcieTx | .pcieRx | .perstN => hasPcie d
  | _ => true

/-- The pins while RESET_N is low. -/
def pinReset (p : Pin) : Pad :=
  match p with
  | .sapDout _ _ | .fc _ | .wclkOut _ | .ppsOut | .fspiSclk | .cspiSclk | .cspiMosi => .drives false
  | .fspiCsN | .cspiCsN _ => .drives true
  | .linkTx _ | .linkRx _ | .pcieTx | .pcieRx | .hspiMiso => .floats
  | .attnN | .membusyN | .faultN | .pmb => .openDrain false
  | _ => .input

/-- The pins in OFF (R55): what stays active on VDD_AON, and nothing else. -/
def pinOff (p : Pin) : Pad :=
  match p with
  | .wakeN | .tamperN | .resetN => .input
  | _ => .floats

/-- A clock pin of a port (R52): latched as an output or as a disabled input while it is held; an output of a running master. -/
def sapClockPad (d : Device) (n : Fin 32) : Pad :=
  if padHeld d n ∧ d.padMaster.getLsbD n.val then .latched
  else if padInOff d n then .inputOff
  else if laneOn d n && laneMaster d n then .toggles else .input

/-- SAPn_DOUT during a slot (R52, R267): a slot that is not enabled follows TXIDLE. -/
def doutPad (d : Device) (n k : Fin 32) : Pad :=
  if padHeld d n then .latched
  else if laneOn d n && laneTx d n k.val then .data (sparseGet wordZero d.dout (slotKey n k.val))
  else if lane d n 0x50 10 1 = 1 then .floats else .drives false

/-- A GPIO pad (R52, R507). -/
def gpioPad (d : Device) (k : Nat) : Pad :=
  if gpioHeld d k then (if d.padOe.getLsbD k then .drives (d.padOut.getLsbD k) else .inputOff)
  else if (reg d Adr.GPIO_OE).getLsbD k then .drives ((reg d Adr.GPIO_OUT).getLsbD k) else .input

/-- A select of CSPI is low during its command, and while it is kept (R496, R497). -/
def cspiLow (d : Device) (s : Nat) : Bool :=
  (d.cspiRun.map (·.1) == some s) || (getB d F.CSPI_STAT.KEPT && decide (getF d F.CSPI_STAT.KSEL = s))

/-- The idle level of CSPI_SCLK: CPOL of the latest select (R494). -/
def cspiIdle (d : Device) : Bool := getB d (F.CSPI_CFG.CPOL (getF d F.CSPI_CMD.SEL))

/-- The bits of a CSPI word in the order they are sent (R494). -/
def cspiBits (d : Device) (s : Nat) (w : Word) : List Bool :=
  let n := getF d (F.CSPI_CFG.WLEN s)
  let msb := (List.range n).map (fun i => w.getLsbD (n - 1 - i))
  if getB d (F.CSPI_CFG.LSBF s) then msb.reverse else msb

/-- The pins in SLEEP and DEEP. -/
def pinSleep (d : Device) (p : Pin) : Pad :=
  match p with
  | .sapBclk n | .sapFsync n => sapClockPad d n
  | .sapDin n => if padInOff d n then .inputOff else .input
  | .sapDout n k => doutPad d n k
  | .gpio k => gpioPad d k.val
  | .fc k => .drives (decide (fcPads d / 2 ^ k.val % 2 = 1))
  | .faultN => .openDrain (faultPad d)
  | .wclkOut _ | .ppsOut | .fspiSclk | .cspiMosi => .drives false
  | .fspiCsN | .cspiCsN _ => .drives true
  | .cspiSclk => .drives (cspiIdle d)
  | .linkRx n => if linkField d n.val 0x40 3 1 = 1 then .detector else .floats
  | .linkTx _ | .fspiDq | .hspiMiso => .floats
  | .pcieTx => if d.pstate = .sleep then .elecIdle else .floats
  | .pcieRx => if d.pstate = .sleep then .detector else .floats
  | .attnN | .membusyN | .pmb => .openDrain false
  | _ => .input

/-- The pins in RUN and IDLE. HSPI_CS_N is high between frames, and the flash, CSPI and PMBus pins rest between transfers. -/
def pinRun (d : Device) (p : Pin) : Pad :=
  match p with
  | .sapBclk n | .sapFsync n => sapClockPad d n
  | .sapDin n => if padInOff d n then .inputOff else .input
  | .sapDout n k => doutPad d n k
  | .gpio k => gpioPad d k.val
  | .fc k => .drives (decide (fcPads d / 2 ^ k.val % 2 = 1))
  | .faultN => .openDrain (faultPad d)
  | .wclkOut w => .drives (wclkPin d w)
  | .ppsOut => .drives (ppsPin d)
  | .linkTx n => if linkState d n = 0 then .floats else .lane (linkOut d n)
  | .linkRx n => if linkState d n = 0 then .floats else .terminated
  | .pcieTx => if getB d F.PCIE_STAT.LINKUP then .toggles else .elecIdle
  | .pcieRx => .terminated
  | .fspiCsN => .drives true
  | .fspiSclk => .drives false
  | .fspiDq => .floats
  | .hspiMiso => .floats
  | .cspiCsN s => .drives (!cspiLow d s.val)
  | .cspiSclk => if d.cspiRun.isSome then .toggles else .drives (cspiIdle d)
  | .cspiMosi => if d.cspiRun.isSome then .toggles else .drives false
  | .attnN => .openDrain (attnDriven d)
  | .membusyN => .openDrain d.memBusy
  | .pmb => .openDrain false
  | _ => .input

/-- What a pin carries; none where the package does not bond it out. -/
def pinPad (d : Device) (p : Pin) : Option Pad :=
  if ¬ pinBonded d p then none
  else some (
    if ¬ d.powered then .floats
    else if d.rstLow then pinReset p
    else
      match d.pstate with
      | .off => pinOff p
      | .sleep => pinSleep d p
      | .deep => pinSleep d p
      | _ => pinRun d p)

end Sys2Proof.Machine
end

