-- ==== Sys2Proof/Tests/Slice0.lean ====
section
/-! SUPPORT. The model's own tests: ill-formed commands are refused, the spec's worked examples come out, and every statement
has states and operands that meet its hypotheses. -/

namespace Sys2Proof.Tests

open Sys2Proof Sys2Proof.Machine

-- One theorem after another: checked side by side, these evaluations each hold a thread while they wait.
set_option Elab.async false

/-! ### Ill-formed commands, one for each check of WellFormed.lean -/

/-- A long word, an X and a Y operation of engine 0, and a word of control core 0. -/
def el : Issue := ⟨0, .long⟩
def ex : Issue := ⟨0, .x⟩
def ey : Issue := ⟨0, .y⟩
def cl : Issue := ⟨64, .long⟩

/-- The access through A0 with no update. -/
def m0 : Ma := ⟨0, 0, .plain⟩

theorem test_wf_refuses_flow : ([.done ex, .done cl, .br ex 0, .br el 8192, .brz ex (.d 0) 0, .brnz el (.d 0) 8192, .brlc ex 0,
    .call el 8192, .callz ex (.d 0) 0, .callnz ex (.d 0) 0, .ret ex, .rep ex 0, .tmark ex 1 0, .tmark cl 1 0, .tmark el 0 0,
    .tmark el 4 0, .tmark el 1 8192, .doLoop 0 (.imm 0) (2 ^ 32)] : List Instr).all (fun c => !c.wf) = true := by decide

theorem test_wf_refuses_moves : ([.mov ex (.m 0) (.d 0), .mov ex (.d 0) (.m 0), .movi ex (.m 0) .int 0, .movi ex (.d 0) .sample 0,
    .movi ex (.d 0) .int 0x8000, .movcRead ex (.d 0) 0, .movcRead el (.d 0) 9, .movcRead cl (.d 0) 12, .movcWrite el (.d 0) 9,
    .tagxR ex (.d 0) (.d 0), .tagxW ex (.d 0) (.d 0) 0, .tagxS ex (.d 0) (.d 0) (.d 0), .ld ex (.d 0) m0 (some (.d 1, m0)),
    .st ex (.d 0) m0 (some (.d 1, m0)), .ldst ex (.d 0) m0 (.d 1) m0, .tas ex (.d 0) m0, .ldrv ex (.d 0) m0,
    .stcn ex (.d 0) m0 (.d 1)] : List Instr).all (fun c => !c.wf) = true := by decide

theorem test_wf_refuses_arithmetic : ([.add ex false (.a 0) (.d 0) (.reg (.d 0)), .sub ex false (.d 0) (.a 0) (.reg (.d 0)),
    .min ex (.d 0) (.d 0) (.reg (.l 0)), .max ex (.d 0) (.d 0) (.imm .int 0), .neg ex false (.ql 0) (.d 0),
    .abs ex false (.d 0) (.e 0), .cmplt ex (.d 0) (.d 0) (.imm .int 0), .cmple ex (.d 0) (.d 0) (.reg (.d 0)),
    .cmpeq ex (.a 0) (.d 0) (.reg (.d 0)), .addi el false 0 0 0, .and ex (.a 0) (.d 0) (.d 0), .or ex (.d 0) (.a 0) (.d 0),
    .xor ex (.d 0) (.d 0) (.a 0), .not ex (.d 0) (.d 0), .shl ex false (.d 0) (.d 0) (.reg (.d 0)),
    .shra ex false (.a 0) (.d 0) (.imm 0), .shrl ex (.d 0) (.a 0) (.imm 0), .mul ex false (.d 0) (.d 0) (.a 0),
    .muli ex false (.d 0) (.d 0) (.d 0), .div ex false (.d 0) (.d 0) (.d 0), .divi ey false (.d 0) (.d 0) (.d 0)]
    : List Instr).all (fun c => !c.wf) = true := by decide

theorem test_wf_refuses_quads_and_bits : ([.maxi ex 0 0 1, .mini ex 0 0 1, .qmac ex false m0 0 none, .qmac el false m0 13 none,
    .qmacRt el false m0 13 none, .qmsb el false m0 13 none, .qmsbRt el false m0 15 none, .qext ex false (.d 0) 0 0, .qclr ex 0,
    .qld ex 0 (.d 0), .qadd ex false 0 0 0, .qsub ex false 0 0 0, .qshl ex false 0 0 0, .qshra ex false 0 0 0,
    .bset ex ⟨0, some 0⟩, .bclr ex ⟨0, some 0⟩, .btgl ex ⟨0, some 0⟩, .btst ex (.d 0) ⟨0, some 0⟩, .btst ex (.a 0) ⟨0, none⟩,
    .bmovFromBit ex ⟨0, none⟩ 0, .bmovFromRegister ex ⟨0, none⟩ (.d 0), .band ex (.d 0) ⟨0, none⟩ 0, .bor ex (.d 0) ⟨0, none⟩ 0,
    .bitTas ex (.d 0) ⟨0, none⟩, .spinIssue ex (.d 0) 0, .spinGet cl (.d 0) 0, .spinXg cl (.d 0) (.d 0) 0]
    : List Instr).all (fun c => !c.wf) = true := by decide

theorem test_wf_refuses_accesses : ([.ldrGo .loader 0, .registerWrite .loader 0x1C000000 .w32 0,
    .registerWrite .hspi 0x1C000002 .w32 0, .registerWrite .pcie 0x1C000001 .w16 0, .readClear .hspi 0x1C000004 .w64,
    .wLowRead .hspi 0x1C000004, .wLowWrite .hspi 0x1C000004 0, .wHighWrite .hspi 0x1C000008 0,
    .engineRegisterWrite .hspi 0 2 0, .localDataHostAccess .hspi 0 0x3C000 .w32 none,
    .localDataHostAccess .hspi 0 2 .w32 none, .programBankHostWrite .hspi 0 false 6 .w32 0, .groupWindowWrite .hspi 0 1 .w16 0,
    .delayHostAccess .hspi 0x4000000 .w32 (some 0) .idle, .delayHostAccess .hspi 0xC000000 .w32 none .idle,
    .delayHostAccess .hspi 4 .w64 none .idle, .aliasAtomicAdd .hspi 0 .w64 0, .aliasAtomicSwap .hspi 1 .w32 0,
    .aliasBitSet .hspi 0 .w64 0, .aliasBitClear .hspi 2 .w32 0, .tagViewWrite .hspi 0 .w64 0, .guardRtWrite .hspi 0x1C070002 0,
    .guardRtWrite .hspi 0x1C080000 0, .partitionWrite .hspi 2 0, .thermalSensorConversion [0], .slotHeaderRead 0 [0],
    .pcieMemoryWrite 0 (List.replicate 65 (0, 15)), .pcieMemoryRead 0 0, .pcieMemoryRead 0 4097, .routeGo .loader 0,
    .cspiRxRead .loader] : List Instr).all (fun c => !c.wf) = true := by decide

/-! ### The spec's own examples and corners -/

/-- R129: MUL of −0.5 by 2^−31 truncates to −2^−31. -/
theorem test_mul_floors : narrow 32 false ((0xC0000000 : Word).toInt * (1 : Word).toInt / 2 ^ 31) = ⟨-1, false, false⟩ := by decide

/-- R130: −1.0 × −1.0 is beyond full scale. -/
theorem test_mul_saturates : narrow 32 true ((0x80000000 : Word).toInt * (0x80000000 : Word).toInt / 2 ^ 31)
    = ⟨0x7FFFFFFF, false, true⟩ := by decide

theorem test_mul_wraps : narrow 32 false ((0x80000000 : Word).toInt * (0x80000000 : Word).toInt / 2 ^ 31)
    = ⟨-0x80000000, true, false⟩ := by decide

/-- R146: DIVI of 7 by −2 gives −4. -/
theorem test_divi_floors : divide false false 7 (-2) = ⟨⟨-4, false, false⟩, false⟩ := by decide

/-- R146: DIV of 0.5 by −0.5 gives −1.0, which fits. -/
theorem test_div_of_half : divide true false 0x40000000 (-0x40000000) = ⟨⟨-2 ^ 31, false, false⟩, false⟩ := by decide

theorem test_div_by_zero : divide true true (-5) 0 = ⟨⟨-2 ^ 31, false, false⟩, true⟩ := by decide

/-- R155: a shift by −128 moves the other way by 128 places. -/
theorem test_shl_by_minus_128 : shlSigned 32 true (-5) (-128) = ⟨-1, false, false⟩ := by decide

theorem test_shl_overflows : shlSigned 32 false 3 31 = ⟨-0x80000000, true, false⟩ := by decide

theorem test_shrl_left : shrlSigned 0x80000001 (-1) = 2 := by decide

/-- R133: SUB of two addresses is an integer, ADD of them fails. -/
theorem test_sub_of_addresses : tag2 true .sub .addr .addr = (.int, false) ∧ tag2 true .add .addr .addr = (.poison, true) := by decide

theorem test_worst_tag : tag2 true .mul .held .invalid = (.invalid, false) := by decide

/-- R134: an address outside its buffer comes back into it. -/
theorem test_circular_update : updated { Work.reset with
    a := Vector.replicate 8 99, e := Vector.replicate 8 100, l := Vector.replicate 8 10 } 0 0 = 109 := by decide

/-- R96: HELD clears the poison bit, SAMPLE sets it under CHK. -/
theorem test_pointer_poison : (writeG true Work.reset (.a 1) ⟨4, .sample⟩).ap[(1 : Fin 8)] = true ∧
    (writeG true Work.reset (.a 1) ⟨4, .held⟩).ap[(1 : Fin 8)] = false := by decide

/-! ### States that meet the hypotheses of the statements -/

/-- The device right after reset with engine 0 in its rally, and with its record changed. -/
def engDev (f : Engine → Engine) : Device :=
  setAg State.reset.dev 0 (f { ag State.reset.dev 0 with phase := .rallying, limit := 100 })

/-- Engine 0 in its rally, between the halves of a paired word, and control core 0 running. -/
def rally : State := ⟨[], engDev id⟩
def inPair : State := ⟨[], engDev (fun e => { e with pair := some ⟨e.w, e.flags, [], [], ⟨false, false, false, false, false, false, [], none⟩⟩ })⟩
def core (f : CoreX → CoreX) : State :=
  ⟨[], { setAg State.reset.dev 64 { ag State.reset.dev 64 with npc := 0x3000000 } with
    ccx := State.reset.dev.ccx.set 0 (f { CoreX.reset with run := true }) }⟩

theorem witness_places : mayIssue rally.dev el true = true ∧ mayIssue rally.dev el false = true ∧ mayIssue rally.dev ex true = true ∧
    mayIssue inPair.dev ey true = true ∧ mayIssue (core id).dev cl true = true ∧ mayIssue (core id).dev cl false = true ∧
    isCc el.who = false ∧ isCc cl.who = true := by decide +kernel

theorem witness_MovesComplete : mayIssue rally.dev ex true = true ∧ (Instr.mov ex (.d 0) (.d 15)).wf = true ∧
    (Instr.movi ex (.d 0) .int 0x7FFF).wf = true ∧ (Instr.movi el (.qg 3) .coef 0x80000000).wf = true ∧ el.slot = .long ∧
    (Instr.movcRead el (.d 0) 8).wf = true ∧ (Instr.movcRead cl (.d 0) 11).wf = true := by decide +kernel

theorem witness_ArithmeticAndComparisonsComplete : mayIssue rally.dev ex true = true ∧
    ([.add ex true (.d 0) (.d 15) (.reg (.d 1)), .sub el false (.a 0) (.qh 3) (.imm .coef 0x80000000), .neg ex true (.d 0) (.d 0),
      .abs el false (.m 7) (.l 0), .min ex (.d 0) (.d 1) (.reg (.d 2)), .max el (.e 0) (.d 1) (.imm .int 5),
      .cmplt ex (.d 0) (.d 1) (.reg (.d 2)), .cmple el (.d 0) (.d 1) (.reg (.d 2)), .cmpeq ey (.d 0) (.d 1) (.reg (.d 2))]
      : List Instr).all Instr.wf = true ∧ ex.slot ≠ .long := by decide +kernel

theorem witness_LogicAndShiftsComplete : mayIssue rally.dev ex true = true ∧
    ([.and ex (.d 0) (.d 1) (.d 2), .or el (.a 0) (.d 1) (.qg 2), .xor ey (.d 0) (.d 1) (.d 15), .not el (.d 0) (.d 1),
      .shl ex true (.d 0) (.d 1) (.imm 0x80), .shra el false (.d 0) (.d 1) (.reg (.d 2)), .shrl ey (.d 0) (.d 1) (.imm 0x7F)]
      : List Instr).all Instr.wf = true := by decide +kernel

theorem witness_ProductsAndDivisionsComplete : mayIssue rally.dev ex true = true ∧ mayIssue rally.dev el false = true ∧
    el.slot = .long ∧ ([.mul ex true (.d 0) (.d 1) (.d 2), .muli el false (.d 0) (.a 1) (.qh 2)] : List Instr).all Instr.wf = true := by
  decide +kernel

theorem witness_AccumulatorWordsComplete : mayIssue rally.dev el true = true ∧ el.slot = .long := by decide +kernel

theorem witness_QuadWordsComplete : mayIssue rally.dev el true = true ∧ el.slot = .long ∧ (12 : Fin 16).val ≤ 12 := by decide +kernel

theorem witness_FlowCompletes : mayIssue rally.dev el false = true ∧ (Instr.br el 8191).wf = true ∧ (Instr.br cl 0xFFFFFFFF).wf = true ∧
    ¬ (rsTraps (issued (engDev (fun e => { e with rsDepth := 1 })) el) 0 = true ∧
      (ag (issued (engDev (fun e => { e with rsDepth := 1 })) el) 0).rsDepth = 0) ∧
    (ag (engDev (fun e => { e with npc := 8190 })) 0).npc < 8191 ∧ unrepeatable false (progHigh rally.dev 0 1) = false ∧
    (Instr.tmark el 3 8191).wf = true ∧ (ag (issued rally.dev el) 0).curt < 3 := by decide +kernel

theorem witness_ReturnStackRule : (ag rally.dev 0).rsTop < 8 ∧ (ag rally.dev 0).rsDepth = 0 ∧ rsTraps rally.dev 0 = true ∧
    rsTraps (issued rally.dev el) 0 = true ∧ (ag (issued rally.dev el) 0).rsDepth = 0 ∧ mayIssue rally.dev el false = true ∧
    el.slot = .long ∧ (ag (engDev (fun e => { e with pc := 8190 })) 0).pc + 1 < 8192 ∧ isCc cl.who = true ∧
    ¬ (rsTraps rally.dev 0 = true ∧ 8 ≤ (ag rally.dev 0).rsDepth) ∧
    ¬ (rsTraps (issued (engDev (fun e => { e with rsDepth := 1 })) el) 0 = true ∧
      (ag (issued (engDev (fun e => { e with rsDepth := 1 })) el) 0).rsDepth = 0) ∧
    8 ≤ (ag (engDev (fun e => { e with rsDepth := 8, rsTop := 7 })) 0).rsDepth := by decide +kernel

theorem witness_UndefinedFormsFault : (Instr.addi el true 0 0 0).word = some el ∧ (Instr.addi el true 0 0 0).wf = false ∧
    (Instr.qmac cl true m0 13 none).word = some cl ∧ (Instr.qmac cl true m0 13 none).wf = false ∧
    mayIssue rally.dev el false = true ∧ mayIssue (core id).dev cl false = true := by decide +kernel

theorem witness_IssueAdvancesTheEngine : isCc 63 = false ∧ isCc 0 = false ∧
    (ag (engDev (fun e => { e with pend := [⟨.d 3, ⟨7, .int⟩, e.cyc⟩] })) 0).pend =
      [⟨.d 3, ⟨7, .int⟩, (ag (engDev (fun e => { e with pend := [⟨.d 3, ⟨7, .int⟩, e.cyc⟩] })) 0).cyc⟩] ∧
    (ag rally.dev 0).div = none ∧ 1 < (ag (engDev (fun e => { e with repLeft := 2 })) 0).repLeft := by decide +kernel

theorem witness_RegisterReadsAsWritten : (GReg.qh 2 ≠ .ql 2 ∧ partOfQ 2 (.qh 2) = true ∧ partOfQ 2 (.ql 2) = true) ∧
    GReg.d 0 ≠ .qg 3 ∧ ∀ n, ¬ (partOfQ n (.d 0) = true ∧ partOfQ n (.qg 3) = true) := by decide

theorem witness_NarrowingFollowsTheWidth : (0 : Nat) < 80 ∧ (-(2 ^ 79) : Int) ≤ -(2 ^ 79) ∧ (-(2 ^ 79) : Int) ≤ 2 ^ 79 - 1 ∧
    (2 ^ 31 - 1 : Int) < 2 ^ 31 ∧ (-(2 ^ 31) - 1 : Int) < -(2 ^ 31) := by decide

theorem witness_TagFollowsRankAndKind : 0 < Tag.held.rank ∧ Tag.sample.rank = 0 ∧ kindOf .mul .sample .coef = some .sample ∧
    kindOf .add .addr .addr = none ∧ Tag.coef ≠ .addr := by decide

theorem witness_AddressUpdateIsCircular : Work.reset.l[(0 : Fin 8)] = 0 ∧
    ({ Work.reset with l := Vector.replicate 8 1 } : Work).l[(7 : Fin 8)] ≠ 0 := by decide

theorem witness_QuotientsAndShiftsAtTheirEnds : (-1 : Int) ≠ 0 ∧ (-1 : Int) < 0 ∧ (0 : Int) < 2 ∧ (0 : Nat) < 32 ∧ (-128 : Int) < 0 ∧
    ((32 : Nat) : Int) ≤ 127 ∧ ((32 : Nat) : Int) ≤ 32 ∧ (0 : Int) ≤ 31 ∧ (31 : Int) < ((32 : Nat) : Int) ∧
    (-(2 ^ 31) : Int) ≤ -(2 ^ 31) := by decide

theorem witness_MemoryWordsComplete : mayIssue rally.dev el true = true ∧ el.slot = .long ∧ mayIssue rally.dev ex true = true := by
  decide +kernel

/-- The last word of local data; a word whose parity fails; a word that the engine has reserved. -/
theorem witness_LocalDataAccesses : 0xBFFF < 0xC000 ∧ 0xBFFE ≠ 0xBFFF ∧ (ag rally.dev 0).own ≠ .fenced ∧
    (localCell (engDev (fun e => { e with loc := [(5, ⟨⟨1, .sample⟩, true⟩)] })) 0 5).bad = true ∧
    (ag (engDev (fun e => { e with resv := some (.localData 0 5) })) 0).resv = some (.localData 0 5) ∧
    (ag rally.dev 0).resv ≠ some (.localData 0 5) := by decide +kernel

theorem witness_UnmappedAndPoisonedAccesses : engTarget 0xC000 = .unmapped ∧
    maPoison { Work.reset with ap := Vector.replicate 8 true } ⟨3, 1, .post⟩ = true ∧
    maUpdate { Work.reset with ap := Vector.replicate 8 true } ⟨3, 1, .post⟩ = some 0 := by decide +kernel
/-- A device with regions running and with fields changed. -/
def running (rs : List Nat) (d : Device) : Device := rs.foldl (fun d r => setRgn d r { rgn d r with st := .running }) d
def put (fs : List (Fld × Nat)) (d : Device) : Device := fs.foldl (fun d x => setF d x.1 x.2) d
def base : Device := State.reset.dev
def banksOn (d : Device) : Device := { d with banks := Vector.replicate 128 .on }

/-- Every bank ready, group 0 in service, and its bank 0 given to role 0 through port 0. -/
def slotDev : Device := put [(F.S_DLY.CTL.PERIOD 0x40, 1), (⟨Adr.S_DLY.SLOT 0x40 0, 0, 8⟩, 0x80)] (running [0x40] (banksOn (engDev id)))

theorem witness_DelayStoresWriteOneWord : engTarget 0x01000000 = .delay 0 ∧ delayWay slotDev 0 0 0 = .performed ∧
    engTarget 0x01FFFFFF = .delay 0xFFFFFF ∧ delayWay slotDev 0 1 0 ≠ .performed := by decide +kernel

theorem witness_LandingsComplete : held rally.dev = false ∧
    (ag (engDev (fun e => { e with pend := [⟨.d 0, ⟨1, .int⟩, 0⟩] })) 0).pend = ⟨.d 0, ⟨1, .int⟩, 0⟩ :: [] ∧
    (0 : Nat) ≤ (ag rally.dev 0).cyc ∧ (ag base 1).phase ≠ .rallying ∧
    (ag (engDev (fun e => { e with div := some ⟨.d 0, ⟨1, .int⟩, false, false, false, false, 17⟩ })) 0).div =
      some ⟨.d 0, ⟨1, .int⟩, false, false, false, false, 17⟩ ∧ 17 < (ag rally.dev 0).limit := by decide +kernel

theorem witness_BitWordsComplete : mayIssue rally.dev ex true = true ∧ (Instr.bset ex ⟨0xFFF, none⟩).wf = true ∧
    (Instr.bset el ⟨0xC00, some 7⟩).wf = true ∧ (Instr.btst ex (.d 15) ⟨0x800, none⟩).wf = true ∧ el.slot = .long := by decide +kernel

theorem witness_BitsAreKept : isCc 63 = false ∧ (0x7FF : Nat) < 0x800 ∧ (0x7FE : Nat) ≠ 0x7FF ∧ (1 : Fin 68) ≠ 0 ∧ (0x800 : Nat) ≤ 0xBFF ∧
    (0xBFF : Nat) < 0xC00 ∧ (0xFFF : Nat) < 0x1000 ∧ (ag base 0).own = .owner ∧
    (ag (engDev (fun e => { e with own := .mirror })) 0).own = .mirror ∧ (ag (engDev (fun e => { e with own := .fenced })) 0).own = .fenced := by
  decide +kernel

theorem witness_SpinCompletes : mayIssue rally.dev el true = true ∧ el.slot = .long ∧ isCc el.who = false ∧
    takeDue (spinDue base) [⟨0, 0, ⟨1, .sample⟩, false, false, [0], 5⟩] = some (⟨0, 0, ⟨1, .sample⟩, false, false, [0], 5⟩, []) ∧
    (ag rally.dev 0).own = .owner ∧ Regions.live (running [0x90] rally.dev).regions (spinRegion (spinUnitOf rally.dev 0)) = true ∧
    (ag rally.dev 0).cur % 4 = (spinSlotOf rally.dev 0).val := by decide +kernel

theorem witness_ControlCoreWordsComplete : mayIssue (core id).dev (ccIssue 0) false = true ∧ mayIssue (core id).dev (ccIssue 0) true = true ∧
    (issued (core (fun x => { x with istk := [(5, 1, true)] })).dev (ccIssue 0)).ccx[(0 : Fin 4)].istk = [(5, 1, true)] ∧
    (ag (core id).dev (ccProc 0)).npc + 1 ≤ 0xFFFFFFFF ∧
    pairWay (srcWork (issued (core id).dev (ccIssue 0)) (ccIssue 0)) m0 =
      .at_ (maAddr (srcWork (issued (core id).dev (ccIssue 0)) (ccIssue 0)) m0) ∧
    held base = false ∧
    (core (fun x => { x with wait := true, ie := true })).dev.ccx[(0 : Fin 4)].wait = true ∧
    (takeable (put [(⟨Adr.EVT_LATCH 15, 31, 1⟩, 1), (F.EVT_ROUTE.EN 511 0, 1)]
      (core (fun x => { x with wait := true, ie := true })).dev) 0).isSome = true := by decide +kernel

theorem witness_InterruptEntryCompletes :
    let d := put [(⟨Adr.EVT_LATCH 15, 31, 1⟩, 1), (F.EVT_ROUTE.EN 511 0, 1), (F.EVT_ROUTE.LEV 511 0, 7)]
      (core (fun x => { x with ie := true, act := true, curLev := 6 })).dev
    held d = false ∧ d.ccx[(0 : Fin 4)].run = true ∧ d.ccx[(0 : Fin 4)].halt = false ∧ awake d = true ∧ (ag d (ccProc 0)).repLeft = 0 ∧
      (ag d (ccProc 0)).pair = none ∧ takeable d 0 = some (511, 7) := by decide +kernel

theorem witness_EveryStepKeepsMemoryCanonical : Memory.wf base = true ∧ (∃ t, step ⟨[], base⟩ = .next t) ∧
    ∃ t, step ⟨[.nop el], rally.dev⟩ = .next t := ⟨by decide +kernel, ⟨_, rfl⟩, _, rfl⟩

theorem witness_HeldAndStoppedDevicesKeepEverything : held { base with rstLow := true } = true ∧ (Instr.nop el).pin = false ∧
    awake { base with pstate := .sleep } = false ∧ Instr.hspiPostedAccess.running = true ∧ (Instr.ldrGo .hspi 1).access = true ∧
    held { base with pstate := .sleep } = false ∧ held { base with pstate := .off } = false ∧ awake base = true := by decide +kernel

theorem witness_RegisterWordFrame : (Instr.add ex true (.d 0) (.d 1) (.reg (.d 2))).wf = true ∧ mayIssue rally.dev ex true = true ∧
    (ag rally.dev 0).pend = [] ∧ (ag rally.dev 0).div = none ∧ isCc ex.who = false := by decide +kernel

theorem witness_BranchAndAccumulatorFrame : mayIssue rally.dev el (decide (Instr.br el 8191 = .nop el)) = true ∧ (Instr.br el 8191).wf = true ∧
    mayIssue rally.dev el true = true ∧ (Instr.qshl el true 0 3 0x80).wf = true ∧ partOfQ 0 (.qg 3) = false := by decide +kernel

theorem witness_NonStoringCommandsKeepMemory : (Instr.nop el).access = false ∧ (Instr.nop el).mayWrite = false ∧
    ∃ t, exec (.nop el) rally = .next t := ⟨by decide +kernel, by decide +kernel, _, rfl⟩

theorem witness_StepTakesTheFront : ∃ e, step ⟨[.nop el], rally.dev⟩ = .next ⟨[], e⟩ := ⟨_, rfl⟩

/-- A device whose region words in effect are as listed. -/
def effs (xs : List (Nat × Word)) (d : Device) : Device := { d with eff := xs }

/-- Rate domain 0 configured at 48 kHz and producing; queries of a device out of reset. -/
def clkDev : Device := effs [(0x1F0A2078, 1), (0x1F0A207C, 48000)] (put [(F.CLK_PLLSTAT.MUTED 2, 0), (F.CLK_PLLSTAT.LOCK 3, 1)]
  (running [0xA2] base))
def shadow : Handover := ⟨⟨some 5, false⟩, 1, 8, 64, 48000, 0⟩

theorem witness_KickoffsComplete : held clkDev = false ∧ produces clkDev 0 = true ∧ mayMark clkDev 0 (nextCount clkDev 0) = true ∧
    ({ base with ho := base.ho.set 0 (some shadow) }).ho[(0 : Fin 4)] = some shadow ∧
    getB clkDev (F.CLK_PLLSTAT.LOCK (2 + shadow.pll)) = true ∧ shadow.aligned < 63 ∧
    ¬ (domConfigured clkDev 1 ∧ awake clkDev ∧ mediaMuted clkDev (ratePll clkDev 1)) ∧
    ({ base with marked := base.marked.set 0 [0] }).marked[(0 : Fin 4)] = 0 :: [] ∧
    (ag (engDev (fun e => { e with cyc := 100 })) (engProc 0)).phase = .rallying ∧
    (ag (engDev (fun e => { e with cyc := 100 })) (engProc 0)).limit ≤ (ag (engDev (fun e => { e with cyc := 100 })) (engProc 0)).cyc ∧
    ({ base with resolve := base.resolve.set 0 (some 0) }).resolve[(0 : Fin 4)] = some 0 := by decide +kernel

theorem witness_AudioRowsComplete : laneOn (running [0x6F] base) 31 = true ∧ laneMode (running [0x6F] base) 31 = 0 ∧
    mayBound (running [0x6F] base) 31 = true ∧ padInOff (running [0x6F] base) 31 = false ∧
    (laneOn base 31 && laneMaster base 31) = false ∧ Regions.live (running [0xA4] base).regions 0xA4 = true ∧
    getB base (F.ASRC_STAT.LOCK 7) = false ∧ getB (put [(F.ASRC_STAT.LOCK 7, 1)] base) (F.ASRC_STAT.LOCK 7) = true ∧
    base.whistle = false ∧ base.pstate ≠ .off ∧ ({ base with pstate := .off }).pstate = .off ∧
    (let d := { put [(F.WDOG_CTL.EN, 1), (F.WDOG_CTL.LIMIT, 3)] base with wdCycles := 3072000 }
     getB d F.WDOG_CTL.EN = true ∧ getF d F.WDOG_CTL.LIMIT ≤ wdCount d) := by decide +kernel

/-- Media PLL 0 with a target, enabled and muted. -/
def pllDev : Device := effs [(0x1F0A2004, 2000000000)] (put [(F.CLK_MCTL.EN 0, 1), (F.CLK_MTGT.FHZ 0, 2000000000)] (running [0xA2] base))

theorem witness_ClockRowsComplete : pllRuns base 0 = true ∧ getB base (F.CLK_PLLSTAT.NOBAND 0) = false ∧
    getB (put [(F.CLK_PLLSTAT.LOCK 0, 0)] base) (F.CLK_PLLSTAT.LOCK 0) = false ∧
    pllRuns (put [(F.CLK_PLLSTAT.LOCK 2, 0)] pllDev) 2 = true ∧
    getB (put [(F.CLK_PLLSTAT.LOCK 5, 1)] base) (F.CLK_PLLSTAT.LOCK (5 : Fin 6).val) = true ∧
    getF (put [(F.TIME_CTL.REFSEL, 3)] base) F.TIME_CTL.REFSEL = 3 ∧ (nearest (10 ^ 9 - 1 : Nat) (10 ^ 9)).2 = false ∧
    getF (put [(F.TIME_CTL.REFSEL, 2)] base) F.TIME_CTL.REFSEL = 1 + (1 : Fin 2).val ∧ hasPcie base = true ∧
    (let a := clkDev.anchors[(0 : Fin 4)]
     (nearest ((((20833 : Nat) : Int) * a.den - a.num) * rateFs clkDev 0) (10 ^ 9 * a.den)).2 = false) ∧
    (let d := { put [(F.TIME_STAT.STATE, 2), (F.TIME_CTL.REFSEL, 3)] base with refNs := 1500000000 }
     getF d F.TIME_STAT.STATE = 2 ∧ 3 * refInterval d ≤ 2 * d.refNs) ∧ ({ base with winBad := false }).winBad = false ∧
    (let d := { put [(F.CLK_PPSOUT.EN, 1), (F.TIME_STAT.LOCKED, 1)] base with ppsDue := true, gated := false, ppsLeft := 0 }
     d.ppsDue = true ∧ getB d F.CLK_PPSOUT.EN = true ∧ getB d F.TIME_STAT.LOCKED = true ∧ d.gated = false ∧ d.ppsLeft = 0) ∧
    (let d := winBegin (setF { (put [(F.CLK_PLLSTAT.LOCK (2 + timeSrc base), 1)] base) with winBad := false } F.TIME_AON.COUNT 0xFFFF0000)
     timeSrcLocked d = true ∧ awake d = true) := by decide +kernel

/-- A record of the stream: region, offset, class and payload under their CRC. -/
def recordOf (t r off sel : Nat) (pay : List Word) : List Word :=
  let ws := [BitVec.ofNat 32 (t + 256 * r), BitVec.ofNat 32 (off + sel * 2 ^ 20), BitVec.ofNat 32 pay.length] ++ pay
  ws ++ [crcOf ws]

/-- A commanded load with 64 words to come, and what a record of it becomes. -/
def ldDev : Device := { base with cmdLeft := some 64 }
def heldMeets (t : Nat) (ws : List Word) : Prop :=
  let h := headerAt ldDev 1 ws
  let g := gather (headerTaken ldDev 1 ws) 1 (h.len + 4)
  recordBegins ldDev 1 ws t ∧ recordWhole g 1 h ∧ heldCode g.1 1 h ((payloadIn (path g.1 1) h).map (·.toNat)) = none ∧
    (rgn g.1 h.r).st ≠ .quiescing ∧ ¬ ((rgn g.1 h.r).st = .running ∧ h.q = true)
def streamMeets (t : Nat) (ws : List Word) : Prop :=
  let h := headerAt ldDev 1 ws
  let k := setPath (headerTaken ldDev 1 ws) 1 { path (headerTaken ldDev 1 ws) 1 with judged := some 0 }
  let f := gather k 1 (h.len + 4)
  let shadow := (headTarget f.1 h).any (·.shadow)
  let w := putTables f.1 h h.off (payloadIn (path f.1 1) h)
  let w := if shadow ∧ ¬ (path f.1 1).shadows.contains (h.r, markKey h) then
    setPath w 1 { path w 1 with shadows := (h.r, markKey h) :: (path f.1 1).shadows } else w
  recordBegins ldDev 1 ws t ∧ firstFailed (headChecks (headerTaken ldDev 1 ws) h h.len) = none ∧
    (rgn (headerTaken ldDev 1 ws) h.r).st ≠ .quiescing ∧ ¬ ((rgn (headerTaken ldDev 1 ws) h.r).st = .running ∧ h.q = true) ∧
    recordWhole f 1 h ∧ payloadIn (path f.1 1) h ≠ [] ∧ path w 1 = { path f.1 1 with shadows := (path w 1).shadows } ∧
    payloadOk w h h.len = true

theorem witness_records_held : heldMeets 1 (recordOf 1 0 0x1F 0 [0]) ∧ heldMeets 2 (recordOf 2 0x40 0xFFFFF 1 [0, 1]) ∧
    heldMeets 5 (recordOf 5 0xFF 0 0 [0x100, 0, 0]) ∧ heldMeets 6 (recordOf 6 0xFF 0 0 [0]) := by
  unfold heldMeets recordBegins recordWhole
  and_intros <;> decide +kernel
theorem witness_records_streamed : streamMeets 3 (recordOf 3 0 0xBFFF 1 [5]) ∧ streamMeets 4 (recordOf 4 0 16382 1 [5, 6]) := by
  unfold streamMeets recordBegins recordWhole
  and_intros <;> decide +kernel
theorem witness_RecordsAndLoadEndsComplete :
    (let ws := recordOf 6 0xFF 0 0 [0]
     let e := (gather (headerTaken ldDev 1 ws) 1 5).1
     ((payloadIn (path e 1) (headerAt ldDev 1 ws)).map (·.toNat)).getD 0 0 = (~~~ (path e 1).crc).toNat) ∧
    (rgn (setRgn base 0xA3 { rgn base 0xA3 with st := .quiescing }) 0xA3).st = .quiescing ∧
    stillFading (setRgn base 0xA3 { rgn base 0xA3 with st := .quiescing }) 0xA3 = false ∧
    (let d := setPath { base with cmdLeft := some 0 } 1 { LdrPath.reset with passed := true }
     d.cmdLeft = some 0 ∧ (path d 1).got = [] ∧ d.live = none ∧ getF d F.LDR_POS.WORDS = 0) ∧
    (let d := setPath (put [(F.LDR_POS.WORDS, 4)] { base with cmdLeft := some 0 }) 1 { LdrPath.reset with passed := true }
     d.cmdLeft = some 0 ∧ (path d 1).got = [] ∧ d.live = none ∧ (path d 1).batch = false ∧ (path d 1).passed = true ∧
       getF d F.LDR_POS.WORDS ≠ 0) ∧
    (path (setPath base 1 { LdrPath.reset with batch := true }) 1).batch = true ∧
    (let d := setPath (put [(F.LDR_Q0TIMEOUT.US, 1)] base) 2 { LdrPath.reset with got := [1, 2] }
     let d := { d with q0Ns := 1001 }
     (path d 2).got ≠ [] ∧ (path d 2).got.length < 3 ∧ getF d F.LDR_Q0TIMEOUT.US ≠ 0 ∧
       getF d F.LDR_Q0TIMEOUT.US * 1000 < d.q0Ns ∧ getF d F.BOOT_STAT.PHASE ≠ 1 ∧
       getF (abortRecord d 2 Rej.stream).1 F.BOOT_STAT.PHASE ≠ 1) := by decide +kernel

/-- A slot header of one block for this variant, with its CRC; a slot read; blocks of the three kinds. -/
def hdrWords : List Word :=
  let ws : List Word := [0x54534F52, 1, 7, 1, 84, 0, BitVec.ofNat 32 (variantCounts base), 0, 0, 0, 0, 0, 0, 0, 0]
  ws ++ [crcOf ws]
def blockOf (kind dest : Nat) (pay : List Word) : List Word :=
  let ws := [BitVec.ofNat 32 kind, BitVec.ofNat 32 pay.length, BitVec.ofNat 32 dest, 0] ++ pay
  ws ++ [crcOf ws]
def bootDev (bufs : List (List Word)) : Device :=
  put [(F.BOOT_STAT.PHASE, 1), (F.SYS_READY.VERIFIED, 1), (F.SYS_READY.GUARD, 1)]
    { base with boot := some { SlotRd.start 0 ⟨7, 1, 84, 0⟩ with bufs := bufs } }

theorem witness_BootRowsComplete :
    (let d := put [(F.SYS_READY.FUSE, 1), (F.SYS_READY.CLOCKS, 1), (F.SYS_READY.SECURE, 1), (F.SYS_READY.GUARD, 1), (F.SYS_READY.DELAY, 1)] base
     getF d F.BOOT_STAT.PHASE = 0 ∧ sequenceDone d = true ∧ d.exiting = false ∧ d.variant.fuseErr = false ∧
       flashWaits { d with bootNs := 20000000 } = false ∧ getF d F.BOOT_STAT.SRC ≠ 3) ∧
    (let d := put [(F.BOOT_STAT.PHASE, 1)] base
     d.live = none ∧ d.boot = none ∧ getF d F.BOOT_STAT.SRC ≠ 2 ∧ d.hdrs[(1 : Fin 2)] = none ∧ d.hdrs[(0 : Fin 2)] = none ∧
       slotHeader hdrWords = some ⟨7, 1, 84, 0⟩ ∧ (hdrWords.getD 6 0).toNat % 2 ^ 16 = variantCounts d) ∧
    (let x := SlotRd.start 0 ⟨7, 1, 84, 0⟩
     let ws := blockOf 2 0x181FFFC0 [1]
     (bootDev []).boot = some x ∧ x.next < x.nblk ∧ x.bufs.length < 2 ∧ readFails x ws false = false ∧ blockBad x ws = false ∧
       blkKind ws = 2 ∧ (bootDev [ws]).boot = some { x with bufs := [ws] }) ∧
    (let b := blockOf 1 0 (recordOf 1 0 0x1F 0 [0])
     blkKind b = 1 ∧ (applyRecords (bootDev [b]) 0 (SlotRd.start 0 ⟨7, 1, 84, 0⟩) b).2 = .done false) ∧
    (let b := blockOf 3 0 [8]
     blkKind b = 3 ∧ Nat.land (startMask b) 7 = 0) ∧
    (let d := { bootDev [] with gated := true }
     d.gated = true ∧ getF d F.BOOT_STAT.PHASE = 1 ∧ getB d F.SYS_READY.VERIFIED = true ∧ getB d F.SYS_READY.GUARD = true) ∧
    (let d := { bootDev [] with pushWait := true, pushNs := 5, bootNs := 1000 * 2 ^ 24 + 5 }
     d.pushWait = true ∧ getF d F.BOOT_STAT.PHASE = 1 ∧ d.pushNs + 1000 * 2 ^ 24 ≤ d.bootNs) := by decide +kernel

theorem witness_ResetRowsComplete : base.powered = true ∧ ({ base with powered := false }).powered = false ∧ base.rstLow = false ∧
    ({ base with rstLow := true }).rstLow = true ∧ held { base with exiting := true, pstate := .off } = false := by decide +kernel

def linkAt (st : Nat) : Device := setLinkState base 7 st
def frameOk : LyFrame := ⟨true, 0, 1, 1, 0, 0, 0, 0, 0, 0, 0, false, [], [], 0⟩

theorem witness_LinkRowsComplete : held (linkAt 1) = false ∧ (∀ st ∈ [1, 2, 3, 4, 5, 6, 7], linkState (linkAt st) 7 = st) ∧
    getB (linkAt 3) (F.LINK_STAT.RATE (7 : Fin 8).val) = false ∧ linkField (effs [(0x1F077040, 4)] (linkAt 3)) 7 0x40 2 1 = 1 ∧
    (lk (linkAt 3) 7).reached = false ∧ (3 : BitVec 8).toNat ≤ 3 ∧
    (lk (setLk (linkAt 4) 7 { lk (linkAt 4) 7 with lastSet := some (0xA1, 3, 0) }) 7).lastSet =
      some (0xA1, (3 : BitVec 8).toNat, (0 : BitVec 8).toNat) ∧
    (0xA0 : BitVec 8) ≠ 0xA1 ∧ (0xA0 : BitVec 8) ≠ 0xA2 ∧ 3 < (4 : BitVec 8).toNat ∧
    (lk (linkAt 7) 7).rxOpen = none ∧ frameOk.fver % 256 = 1 ∧
    (let nc := cellsAt (rateFs (linkAt 7) (dom (linkField (linkAt 7) 7 0x40 4 2)))
     (frameData nc frameOk).length < 2 ^ 16 ∧
       (frameData nc { frameOk with slots := List.replicate (localDblk (linkAt 7) 7 * 2) 0 }).length < 2 ^ 16) := by decide +kernel

/-- A cell received on link 7; the fabric's record changed. -/
def cellOfType (t : Nat) : LyCell := ⟨t, 0x3FF, 5, 1, 0, 0, 1, List.replicate 16 0⟩
def cellDev (t : Nat) : Device :=
  setLk { base with fab := { base.fab with choice := some 0 } } 7 { lk base 7 with rxCells := [cellOfType t] }
def fabDev (f : FabNode → FabNode) : Device := { base with fab := f base.fab }

theorem witness_FabricCellsComplete : held (cellDev 3) = false ∧ (lk (cellDev 3) 7).rxCells = cellOfType 3 :: [] ∧
    (cellOfType 3).ctype = 3 ∧
    (let d := setLk (cellDev 3) 7 { lk (cellDev 3) 7 with rxCells := [] }
     reqBefore (cellDev 5) 7 = false ∧ cellTomb d (cellOfType 3) = none ∧ cellNew d (cellOfType 3) = true ∧ cellNew d (cellOfType 2) = true ∧
       cellNew d (cellOfType 4) = true ∧ d.fab.choice = some (leGet (cellOfType 3).pay 0 8)) := by decide +kernel

def adjOne : Adj := { base.fab.adj[(0 : Fin 8)] with full := true, accAt := 0, helloAt := 0 }
def lostOne : DbNode := ⟨9, 0, none, [], some 0⟩

theorem witness_FabricTimersComplete :
    (let d := fabDev (fun f => { f with held := true, rejoined := false, frame := 100000 })
     anyFull d = false ∧ d.fab.held = true ∧ d.fab.rejoined = false ∧ d.fab.aloneAt + deadInt d ≤ d.fab.frame) ∧
    (let d := fabDev (fun f => { f with adj := f.adj.set 7 adjOne, quiet := false, frame := 100000 })
     adjFull d 7 = true ∧ (adj d 7).accAt + deadInt d ≤ d.fab.frame ∧
       (adj d 7).helloAt + getF d (F.S_FAB.TIMERS.HELLOINT 0xFF) ≤ d.fab.frame ∧ anyFull d = true ∧ d.fab.quiet = false ∧
       d.fab.dbAt + 8 ≤ d.fab.frame) ∧
    (let d := fabDev (fun f => { f with genAt := some 36, frame := 100 }); d.fab.genAt = some 36 ∧ 36 + 64 ≤ d.fab.frame) ∧
    (let d := fabDev (fun f => { f with db := [lostOne], frame := 100000 })
     d.fab.db.find? (fun y => decide (y.uid = (9 : BitVec 64).toNat)) = some lostOne ∧ lostOne.lost = some 0 ∧
       0 + deadInt d ≤ d.fab.frame) ∧
    (let d := fabDev (fun f => { f with tombs := [⟨9, 0, 0, 5⟩], frame := 100000 })
     tombOf d (9 : BitVec 64).toNat = some ⟨9, 0, 0, 5⟩ ∧ 0 + getF d (F.S_FAB.TOMB.FRAMES 0xFF) ≤ d.fab.frame) ∧
    (let d := fabDev (fun f => { f with frame := 65536 }); d.fab.refloodAt + 65536 ≤ d.fab.frame) ∧
    (let d := fabDev (fun f => { f with runs := [(255, { runIdle 0 with st := 1 })], frame := 1024 })
     (ownRun d (255 : BitVec 8).toNat).st = 1 ∧ (ownRun d (255 : BitVec 8).toNat).at_ + 1024 ≤ d.fab.frame) ∧
    (let d := put [(F.FAB_STAT.GATED, 1), (F.TIME_STAT.LOCKED, 1)] (fabDev (fun f => { f with tup := some 0 }))
     getB d F.FAB_STAT.GATED = true ∧ getB d F.TIME_STAT.LOCKED = true ∧ d.fab.tup.isSome = true) := by decide +kernel

/-- Domain 0 produces, and the Coach's set is at its end; the device with nothing holding it awake. -/
def coachDev (m : Nat) : Device :=
  put [(F.S_COACH.CTL.SETLEN 0xA3, 1), (F.COACH_CTL.MODE, m), (F.COACH_TCRIT.C, 100)] { running [0xA3] clkDev with counting := true, decided := false }
def quietDev : Device :=
  put ((List.range 6).map (fun k => (F.PWR_VOTE.MASK k, 0)))
    { base with banks := Vector.replicate 128 .on }
def entering (t : Nat) : Device := { quietDev with entry := some t, wakePend := none, hspiOps := [] }

theorem witness_PowerRowsComplete :
    decisionDue (coachDev 0) = true ∧ decisionDue (coachDev 1) = true ∧ getF (coachDev 0) F.COACH_CTL.MODE ≠ 1 ∧
    getF (coachDev 1) F.COACH_CTL.MODE = 1 ∧
    (hottest { coachDev 1 with decided := true }).1 < 16 * ((getF (coachDev 1) F.COACH_TCRIT.C : Nat) : Int) ∧
    (let d := setF { base with dvfs := [.volt 3] } F.PWR_PMBSTAT.VOUT (getF base (F.PWR_VOPP.MV 3) + getF base F.PWR_PMBCFG.TOL)
     d.dvfs = .volt 3 :: [] ∧ getF base (F.PWR_VOPP.MV 3) + getF base F.PWR_PMBCFG.TOL ≤ getF d (F.PWR_VOPP.MV 3) + getF d F.PWR_PMBCFG.TOL ∧
       getF d (F.PWR_VOPP.MV 3) ≤ getF base (F.PWR_VOPP.MV 3) + getF base F.PWR_PMBCFG.TOL + getF d F.PWR_PMBCFG.TOL) ∧
    awake quietDev = true ∧
    (let d := put [(F.PWR_DOMCFG.IDLEUS 0, 5)] quietDev
     let d := { d with domNs := Vector.replicate 13 5000 }
     domState d 0 = 0 ∧ domHeld d 0 = false ∧ getF d (F.PWR_DOMCFG.IDLEUS 0) ≠ 0 ∧
       getF d (F.PWR_DOMCFG.IDLEUS 0) * 1000 ≤ domTimer d 0) ∧
    (let d := put [(F.PWR_DOMCFG.DOWNEN 10, 1), (F.PWR_DOMCFG.IDLEUS 10, 5), (F.PWR_DOMCFG.DOWNUS 10, 7)] (setDomain quietDev 10 1)
     let d := { d with domNs := Vector.replicate 13 12000 }
     getF d (F.PWR_DOMCFG.IDLEUS 10) ≠ 0 ∧
       (getF d (F.PWR_DOMCFG.IDLEUS 10) + getF d (F.PWR_DOMCFG.DOWNUS 10)) * 1000 ≤ domTimer d 10 ∧ domState d 10 = 1 ∧ domHeld d 10 = false ∧ getB d (F.PWR_DOMCFG.DOWNEN 10) = true ∧ downAllowed d 10 = true) ∧
    (let d := { put [(F.PWR_CTL.TARGET, 3), (F.PWR_CTL.MS, 9)] quietDev with devNs := 9000000 }
     getF d F.PWR_CTL.MS * 1000000 ≤ d.devNs ∧ getF d F.PWR_CTL.TARGET ≠ 0 ∧ getF d F.PWR_CTL.MS ≠ 0 ∧ d.entry = none ∧ d.exiting = false ∧ holdersOf d (entryMask 3) = []) ∧
    (let d := setDomain (put [(F.PWR_VOTE.MASK 0, 1)] quietDev) 0 2; domState d 0 = 2 ∧ domHeld d 0 = true) ∧
    (∀ t ∈ [1, 2, 3], (entering t).entry = some t ∧ (entering t).hspiOps = [] ∧ holdersOf (entering t) (entryMask t) = [] ∧
      kickoffsEnded (entering t) = true ∧ (entering t).wakePend = none) := by decide +kernel

/-- The device asleep with every wake source enabled. -/
def asleep : Device :=
  effs [(0x1F077040, 8)] (put [(⟨Adr.PWR_WAKECFG, 0, 9⟩, 0x1FF), (F.PWR_ALARM.EN, 1)] { base with pstate := .sleep })

theorem witness_WakesComplete : held asleep = false ∧ asleep.exiting = false ∧ asleep.entry = none ∧ asleep.pstate = .sleep ∧
    (∀ i ∈ List.range 9, getF asleep ⟨Adr.PWR_WAKECFG, i, 1⟩ ≠ 0) ∧ (7 : Fin 8).val < linkCount asleep ∧
    linkField asleep 7 0x40 3 1 = 1 ∧ hasPcie asleep = true ∧ getF asleep F.PWR_ALARM.EN = 1 ∧
    (let d := put [(F.PWR_ALARM.EN, 1), (F.PWR_ALARM.AT, 65535)] base
     d.exiting = false ∧ d.entry = none ∧ d.pstate = .run ∧ getF d F.PWR_ALARM.EN = 1 ∧
       getF d F.PWR_ALARM.AT < getF d F.TIME_AON.COUNT + 65536) ∧
    (let d := put [(F.PWR_SENSE.POL 3, 1), (F.PWR_SENSE.DEB 3, 2)] { asleep with senseRun := asleep.senseRun.set 3 2 }
     senseOut d 3 5000 = true ∧ d.senseRun[(3 : Fin 4)] = getF d (F.PWR_SENSE.DEB 3) ∧
       getF (setB { d with senseRun := d.senseRun.set 3 3 } (F.PWR_SENSE.OUT 3) true) ⟨Adr.PWR_WAKECFG, 3, 1⟩ ≠ 0 ∧
       senseOut d 3 0 = false) ∧ ({ base with pstate := .off }).pstate = .off ∧ base.pstate ≠ .off ∧
    getF (raiseEv (setF asleep F.PWR_ALARM.EN 0) 0x1C4) ⟨Adr.PWR_WAKECFG, 7, 1⟩ ≠ 0 ∧
    getF (setF asleep F.PWR_PMBSTAT.ALERT 1) ⟨Adr.PWR_WAKECFG, 8, 1⟩ ≠ 0 ∧
    (∀ deep : Bool, let d : Device := { base with exiting := true, pstate := if deep then .deep else .sleep, pmbDue := none }
      let e := settlePstate { d with
        pstate := .run, exiting := false, halted := Vector.replicate 4 false
        sap := d.sap.map (fun x => { x with frame := none, fresh := true, due := none }) }
      let e := setF e F.PWR_STAT.STATE 0
      let e := if d.pstate = .deep then (List.finRange 128).foldl (deepLeave [(127, 3, Cell.mk ⟨5, .int⟩ true)]) e else e
      let e := guardWake (restartDomains (freeLocked (timeBegin (pllsLock e) 5)) (fun _ => true))
      (raiseEv (join ((List.finRange 8).foldl linkRetrain e)) 0x1C0).pmbDue = none) := by
  decide +kernel

def substOne : Subst := ⟨0, 1, engProc 0, engProc 1, ⟨some 5, false⟩, true, 0, 0, false, false⟩

theorem witness_ServiceRowsComplete : ({ base with sub := some substOne }).sub = some substOne ∧ substOne.copied = false ∧
    getB (put [(F.FSPI_XSTAT.BUSY, 1), (F.FSPI_XCMD.DIR, 1)] base) F.FSPI_XSTAT.BUSY = true ∧
    getB (put [(F.FSPI_XSTAT.BUSY, 1), (F.FSPI_XCMD.DIR, 1)] base) F.FSPI_XCMD.DIR = true ∧
    getB base F.FSPI_XCMD.DIR = false := by decide +kernel

/-- HSPI with its buffer holding one completed word; a frame of one WRITE word has 72 bits. -/
def hspiDev : Device := { put [(F.SYS_READY.FUSE, 1)] base with hspiBuf := [some 7] }

theorem witness_HspiRowsComplete :
    (let d := hspiBegin hspiDev
     let bits := 40 + hspiWlen d
     let rbits := hspiHead d true + hspiWlen d
     held hspiDev = false ∧ hspiOn hspiDev = true ∧ hspiShapeBad d false bits = false ∧ bits ≠ 0 ∧
     hspiPostCode d (hspiAddr 0xFFFFFFFF) (hspiWhole d false bits) false = none ∧
     hspiPostCode d (hspiAddr 0xFFFFFFFF) (hspiWhole d false bits) true = none ∧
     hspiBegun d false bits = 1 ∧ hspiWhole d false bits = 1 ∧ d.hspiBuf[0]? = some (some 7) ∧
     hspiShapeBad d true rbits = false ∧ hspiBegun d true rbits = 1 ∧ awake hspiDev = true ∧ hspiDev.hspiOps = [] ∧
     hspiShapeBad (busPeek d .hspi (hspiAddr 0x1C000000 % 2 ^ 32) (decide (0 < hspiWhole d true rbits))).1 true rbits = false ∧
     (busPeek d .hspi (hspiAddr 0x1C000000 % 2 ^ 32) (decide (0 < hspiWhole d true rbits))).1.hspiOut = []) ∧
    ({ hspiDev with hspiOps := [.write 4 5 true] }).hspiOps = .write 4 5 true :: [] := by decide +kernel

def pcieDev : Device := { base with perst := true }

theorem witness_PortRowsComplete : awake pcieDev = true ∧ ({ pcieDev with cspiRun := some (0, 64, true) }).cspiRun = some (0, 64, true) ∧
    pcieOn pcieDev = true ∧ getB pcieDev F.PCIE_STAT.D3 = false ∧ (0x1FFFFFFC : Word).toNat < 0x20000000 ∧
    (0x1FFFFFFC : Word).toNat % 4 = 0 ∧ Adr.CLK_HO 0 % 8 = 0 ∧ coversWide pcieDev (Adr.CLK_HO 0) = true ∧
    (busGet (touch { pcieDev with pcieCpl := [] } 0x1FFFFFFC) .pcie 0x1FFFFFFC 4).1.pcieCpl = [] ∧
    (4 * 4 : Nat) / 4 = 4 := by decide +kernel

theorem witness_RegisterAccessesComplete :
    mayReach base = true ∧ areaOf (BitVec.ofNat 32 Adr.WDOG_CTL).toNat = .regs ∧ subAbsent base Adr.WDOG_CTL = false ∧
    (∃ r, regRow Adr.WDOG_CTL = some (r, false) ∧ r.wide = false) ∧ mediaReg Adr.WDOG_CTL = false ∧ aonReg Adr.WDOG_CTL = false ∧
    (∃ r, regRow (Adr.GEN_SINE 0) = some (r, false) ∧ r.wide = true) ∧
    (∃ r, regRow (Adr.GEN_SINE 0 + 4) = some (r, true) ∧ r.wide = true) ∧ areaOf (Adr.GEN_SINE 0) = .regs ∧
    mediaReg (Adr.GEN_SINE 0) = false ∧ aonReg (Adr.GEN_SINE 0) = false ∧ subAbsent base (Adr.GEN_SINE 0) = false ∧
    (let m : PendWr := ⟨7, Adr.TIME_CTL, .hspi⟩
     let d := { base with handshake := [(Adr.TIME_CTL, some m), (Adr.PWR_WAKECFG, some m)] }
     sparseGet noPend d.handshake Adr.TIME_CTL = some m ∧ mediaReg Adr.TIME_CTL = true ∧ awake d = true ∧
       sparseGet noPend d.handshake Adr.PWR_WAKECFG = some m ∧ aonReg Adr.PWR_WAKECFG = true) := by
  refine ⟨by decide +kernel, by decide +kernel, by decide +kernel, ⟨_, rfl, rfl⟩, by decide +kernel, by decide +kernel, ⟨_, rfl, rfl⟩,
    ⟨_, rfl, rfl⟩, ?_⟩
  decide +kernel

theorem witness_WindowAccessesComplete : mayReach base = true ∧ (63 : Fin 64).val < engCount base ∧ (0x5FF : BitVec 11).toNat < 0x600 ∧
    engRefusal (found base (engWindow 63 + 0x605FC)) (engProc 63) 0x605FC = none ∧
    engRefusal (found base (engWindow 63 + 0x60214)) (engProc 63) 0x60214 = none ∧
    (0x2FFFC : BitVec 18).toNat % 4 = 0 ∧ (0x2FFFC : BitVec 18).toNat < 0x30000 ∧
    copyTarget (found base (engWindow 63 + 0x2FFFC)) (engProc 63) = false ∧ (0xFFFC : BitVec 16).toNat % 4 = 0 ∧
    engRefusal (found base (engWindow 63 + 0x8FFFC)) (engProc 63) 0x8FFFC = none ∧
    engRefusal (found base (engWindow 63 + 0x9FFFC)) (engProc 63) 0x9FFFC = none ∧
    Width.w32 ≠ .w64 ∧ members (found base (0x14000000 + 0x100000 * 5)) 5 = [] ∧ members (found base 0x14080000) 0 ≠ [] ∧ (∀ m ∈ members (found base 0x14080000) 0, engRefusal (found base 0x14080000) m 0x80000 = none) := by
  decide +kernel

/-- Every cycle of bank 0 is role 0's, and its holder is in its rally. -/
def busyDev : Device :=
  let d := put [(F.S_DLY.CTL.PERIOD 0x40, 1), (⟨Adr.S_DLY.SLOT 0x40 0, 0, 8⟩, 0x80)] (running [0, 0x40] (banksOn clkDev))
  setAg d 0 { ag d 0 with phase := .rallying, limit := 100 }

theorem witness_DelayAccessesComplete : mayReach (banksOn base) = true ∧ (0x3FFFFFC : BitVec 28).toNat < 0x4000000 ∧
    bankPresent (found (banksOn base) 0x3FFFFFC) 0xFFFFFF = true ∧
    bankReady (found (banksOn base) 0x3FFFFFC) (bankOf 0xFFFFFF) = true ∧
    (delayCell (found (banksOn base) 0x3FFFFFC) 0xFFFFFF).bad = false ∧ (0x3FFFFFC : BitVec 26).toNat % 4 = 0 ∧
    (∀ a ∈ [0x7FFFFFC, 0xBFFFFFC, 0xCFFFFFF], bankReady (found (banksOn base) a) (bankOf 0xFFFFFF) = true) ∧
    getB (found (banksOn base) 0x7FFFFFC) (F.S_DLY.CTL.ALIAS (groupRegion (bankOf 0xFFFFFF))) = false ∧
    getB (found (put [(F.S_DLY.CTL.ALIAS (groupRegion (bankOf 0xFFFFFF)), 1)] (banksOn base)) 0x7FFFFFC)
      (F.S_DLY.CTL.ALIAS (groupRegion (bankOf 0xFFFFFF))) = true ∧
    (banksOn base).waits = [] ∧ (∀ y : Bool, placing (touch (banksOn base) 0x3FFFFFC) (some .idle) 0x3FFFFFC 4 y = .perform ∧
      placing (touch busyDev 0) (some .idle) 0 4 y = .again) ∧ bankIdle (touch busyDev 0) (bankOf 0) = false ∧
    mayReach busyDev = true ∧ busyDev.waits = [] ∧ bankPresent (found busyDev 0) 0 = true ∧ bankReady (found busyDev 0) (bankOf 0) = true ∧
    canariesOk (retain base 127) 127 = true ∧ canariesOk (putCanary 127 (retain base 127) (2, Cell.mk ⟨5, .int⟩ true)) 127 = false ∧
    (setBank base 127 .waking).banks[(127 : Fin 128)] = .waking ∧ (setBank base 127 .starting).banks[(127 : Fin 128)] = .starting ∧
    base.banks[(127 : Fin 128)] = .sweeping ∧ (127 : Fin 128).val < bankCount base := by decide +kernel

/-- Rate domain 0 with one change staged for its route, its mix unit 0 with one crosspoint staged. -/
def audioDev : Device :=
  put [(F.S_MIX.CTL.NIN 0x80, 4), (F.S_MIX.CTL.NOUT 0x80, 4)] { clkDev with
    rtStage := clkDev.rtStage.set 0 [⟨0x1000, 0, 0, 0⟩]
    mix := clkDev.mix.set 0 { clkDev.mix[(0 : Fin 16)] with staged := [⟨0, 0, 1, 0⟩] } }

theorem witness_AudioRegistersComplete : mayReach audioDev = true ∧
    (let d := found audioDev Adr.ROUTE_CHG
     sinkDom d 0x1003 = some 0 ∧ sinkBypassed d 0x1003 = false ∧ routeLegal d 0 0x1003 0 = true ∧ changeFits d 0 0x1003 0 = true ∧
       d.rtStage[(0 : Fin 4)].length < 1024) ∧
    (let e := routeCtlTaken (found audioDev Adr.ROUTE_CTL) 8
     domConfigured (found audioDev Adr.ROUTE_CTL) (dom 8) = true ∧ e.rtStage[dom 8] ≠ [] ∧ e.rtArmed[dom 8] = none ∧
       domConfigured (found audioDev Adr.ROUTE_CTL) (dom 16) = true ∧ (8 : Word).getLsbD 3 = true ∧ (16 : Word).getLsbD 4 = true ∧ (16 : Word).getLsbD 3 = false) ∧
    (let d := found audioDev Adr.ROUTE_BYPSEL
     getF d F.ROUTE_BYPIDX.ENTRY / 64 < engCount d ∧ routeLegal d (rgnDomain d 0) 0 0 = true) ∧
    (let d := foundPair audioDev .hspi (Adr.MIX_XPCMD 0) 0x303
     3 < mixNin d 0 ∧ 3 < mixNout d 0 ∧ (mixUnit d 0).staged.length < 1024) ∧
    (let e := mixCtlTaken (found audioDev (Adr.MIX_CTL 0)) 0 1
     domConfigured (found audioDev (Adr.MIX_CTL 0)) (mixDom (found audioDev (Adr.MIX_CTL 0)) 0) = true ∧ (mixUnit e 0).staged ≠ [] ∧
       (mixUnit e 0).armed = none ∧ (1 : Word).getLsbD 0 = true ∧ (4 : Word).getLsbD 2 = true ∧ (4 : Word).getLsbD 0 = false) ∧
    (let d := found (put [(F.SAP_STAT.MUTED 31, 1)] audioDev) (Adr.SAP_CTL 31)
     31 < sapCount d ∧ getB d (F.SAP_STAT.MUTED 31) = true) ∧
    (let d := found (put [(F.GUARD_CEIL.CEIL 1023, 5)] audioDev) (Adr.GUARD_CEIL 1023)
     1023 / 32 < sapCount d ∧ (5 : Word).toNat ≤ getF d (F.GUARD_CEIL.CEIL 1023) ∧
       getF d (F.GUARD_CEIL.CEIL 1023) < (6 : Word).toNat) ∧
    (let d := found (put [(F.WDOG_CTL.EN, 1)] { audioDev with wdHold := some (0, 0), wdRestarted := true }) Adr.GUARD_CTL
     d.wdHold ≠ none ∧ getB d F.WDOG_CTL.EN = true ∧ d.wdRestarted = true) := by decide +kernel

/-- Media PLL 1 at 2.4576 GHz and locked; rate domain 0 driven by media PLL 0. -/
def hoDev : Device := put [(F.CLK_MTGT.FHZ 1, 2457600000)] clkDev
def hoWord : BitVec 64 := BitVec.ofNat 64 (2 ^ 63 + 48000 * 2 ^ 32 + 2048 * 2 ^ 16 + 25 * 2 ^ 8 + 1)

theorem witness_LoadClockAndLinkRegistersComplete : mayReach base = true ∧
    (let e := setB (setB (found base Adr.LDR_CTL) F.LDR_CTL.SRC false) F.LDR_CTL.Q0EN false
     getB e F.LDR_STAT.BUSY = false ∧ getF e F.BOOT_STAT.PHASE ≠ 1 ∧ e.live = none ∧
       loadLimit (getB e F.LDR_CTL.SRC) (getF e F.LDR_SRC.ADDR / 4 * 4) = some 0x2000000 ∧
       getF e F.LDR_SRC.ADDR / 4 * 4 + 4 * getF e F.LDR_LEN.WORDS ≤ 0x2000000) ∧
    (setB (setB (found ldDev Adr.LDR_CTL) F.LDR_CTL.SRC false) F.LDR_CTL.Q0EN false).cmdLeft.isSome = true ∧
    pllIdle (found base (Adr.CLK_MTGT 3)) 3 = true ∧ pllIdle (found base (Adr.CLK_MCTL 3)) 3 = true ∧
    (4000000000 : Word).toNat ≤ 4000000000 ∧ 2000000000 ≤ (2000000000 : Word).toNat ∧
    (let a := Adr.CLK_HO 0
     let e := crossed (written (awaitWrite (foundPair hoDev .hspi a hoWord.toNat) .hspi a (lastAt .hspi a) hoWord.toNat) .hspi (lastAt .hspi a)) a
     hoWord.getLsbD 63 = true ∧ domConfigured e 0 = true ∧ hoFields e 0 (hoAsk hoWord.toNat) = true ∧ e.ho[(0 : Fin 4)] = none ∧
       hoBears e 0 (hoAsk hoWord.toNat) = true) ∧
    (let e := crossed (written (awaitWrite (found base Adr.TIME_CTL) .hspi Adr.TIME_CTL Adr.TIME_CTL 0) .hspi Adr.TIME_CTL) Adr.TIME_CTL
     namesNoDomain (found base Adr.TIME_CTL) Adr.TIME_CTL 0 = false ∧ (0 : Word).toNat % 8 = 0 ∧
       getB (setF (setF (setF e F.TIME_CTL.WDOM 0) F.TIME_CTL.KP 0) F.TIME_CTL.KI 0) (F.S_FAB.NODE.TFOLLOW 0xFF) = false) ∧
    getF (crossed (written (awaitWrite (found base Adr.TIME_FREQ) .hspi Adr.TIME_FREQ Adr.TIME_FREQ 9) .hspi Adr.TIME_FREQ) Adr.TIME_FREQ)
      F.TIME_STAT.STATE = 0 ∧
    7 < linkCount (found (linkAt 7) (Adr.LINK_CTL 7)) ∧ linkState (found (linkAt 7) (Adr.LINK_CTL 7)) 7 ≠ 0 ∧
    getF (found base (Adr.LINK_MAPDATA 7)) (F.LINK_MAPIDX.MAP 7) ≠ 1 ∧ (0xBFFFF : Word).toNat / 2 ^ 18 % 4 ≠ 3 ∧
    (let y : BitVec 64 := BitVec.ofNat 64 (2 ^ 56 + 256 * 2 ^ 46 + 16128 * 2 ^ 32 + 16128 * 2 ^ 18 + 0x3FD * 2 ^ 8 + 255)
     let d := foundPair (put [(F.FAB_STAT.ADDR, 5)] base) .hspi Adr.FAB_RUNCMD y.toNat
     bitsOf y.toNat 56 2 = 1 ∧ 0 < bitsOf y.toNat 46 9 ∧ bitsOf y.toNat 46 9 ≤ 256 ∧ bitsOf y.toNat 8 10 ≠ ownAddr d ∧
       bitsOf y.toNat 8 10 < 0x3FE ∧ bitsOf y.toNat 18 14 + bitsOf y.toNat 46 9 ≤ 16384 ∧
       bitsOf y.toNat 32 14 + bitsOf y.toNat 46 9 ≤ 16384 ∧ runHolds (ownRun d 255) = false ∧ ownAddr d ≠ 0x3FF ∧
       chanBusy d 255 16128 256 = false) ∧
    (let y : BitVec 64 := BitVec.ofNat 64 (2 * 2 ^ 56 + 255)
     let d := foundPair (fabDev (fun f => { f with runs := [(255, { runIdle 0 with st := 2 })] })) .hspi Adr.FAB_RUNCMD y.toNat
     bitsOf y.toNat 56 2 = 2 ∧ runHolds (ownRun d (bitsOf y.toNat 0 8)) = true) := by decide +kernel

/-- Queue 5 created with its map running, holding one word whose parity fails. -/
def queDev : Device :=
  let d := setReg (running [0xA1] base) (0x1F0A1080 + 8 * 5) 0x10000
  setQue d 5 { que d 5 with words := [⟨⟨7, .sample⟩, true⟩] }

theorem witness_EventAndQueueRowsComplete : mayReach queDev = true ∧
    wdCount (found base Adr.WDOG_CTL) < getF (setF (setB (found base Adr.WDOG_CTL) F.WDOG_CTL.EN true) F.WDOG_CTL.LIMIT 1) F.WDOG_CTL.LIMIT ∧
    (found base (Adr.CC_CTL 3)).ccx[(3 : Fin 4)].run = false ∧ evPresent (found base (Adr.EVT_ROUTE 511)) 511 = true ∧
    queCreated (found queDev (Adr.QUE_PORT 5 + 4)) 5 = true ∧ queTakes (found queDev (Adr.QUE_PORT 5 + 4)) 5 = true ∧
    queCreated (found queDev (Adr.QUE_PUSH 5)) 5 = true ∧ queTakes (found queDev (Adr.QUE_PUSH 5)) 5 = true ∧
    (0x105 : Word).getLsbD 8 = true ∧ queNo (0x105 : Word).toNat ≠ 0 ∧
    queCreated (found queDev Adr.QUE_CTL) (queNo (0x105 : Word).toNat) = true ∧ held queDev = false ∧
    sparseGet natZero { base with evPend := [(511, 3)] }.evPend 511 ≠ 0 ∧
    (que (setQue base 5 { que base 5 with crossing := [[⟨1, .int⟩]] }) 5).crossing = [⟨1, .int⟩] :: [] := by decide +kernel

/-- Role 1 is the group's bench, role 0 and it run; nothing is armed. -/
def benchDev : Device := put [(F.S_ENG.CTL.BENCH 1, 1)] (running [0, 1] quietDev)
def fencedDev : Device :=
  put [(F.ENG_HOLDER.VACANT 1, 1)] (setAg benchDev 63 { ag benchDev 63 with fenced := true })

theorem witness_PowerServiceAndPortRegistersComplete : mayReach quietDev = true ∧
    (∀ kind, kind < 3 →
      let d := setF (setF (found quietDev Adr.PWR_DVFSREQ) F.PWR_DVFSREQ.LEVEL (3 + 16 * kind + 256)) F.PWR_DVFSREQ.KIND
        ((3 + 16 * kind + 256) / 16)
      Regions.eff d.regions 0xA3 ≠ .running ∧ getF d F.PWR_DVFSREQ.KIND = kind ∧ dvfsCode d kind 3 = none) ∧
    (let d := setF (setF (found quietDev Adr.PWR_CTL) F.PWR_CTL.TARGET 7) F.PWR_CTL.MS 0
     (7 : Word).getLsbD 2 = true ∧ getF d F.PWR_CTL.TARGET ≠ 0 ∧ d.entry = none ∧ d.exiting = false ∧ awake d = true ∧
       holdersOf d (entryMask (getF d F.PWR_CTL.TARGET)) = []) ∧
    (let y : BitVec 64 := 0x100
     subCode (foundPair benchDev .hspi Adr.SUB_CMD y.toNat) (y.toNat % 2 ^ 6) (y.toNat / 2 ^ 8 % 2 ^ 6) = none) ∧
    (setF (setF (found { benchDev with sub := some substOne } Adr.SUB_CTL) F.SUB_CTL.PHYS 0) F.SUB_CTL.BROLE 0).sub = some substOne ∧
    (let v : Word := 0x13F02
     let d := setF (setF (found fencedDev Adr.SUB_CTL) F.SUB_CTL.PHYS (v.toNat / 2 ^ 8)) F.SUB_CTL.BROLE (v.toNat / 2 ^ 16)
     v.getLsbD 1 = true ∧ v.getLsbD 0 = false ∧ v.toNat / 2 ^ 8 % 64 = 63 ∧ (ag d 63).fenced = true ∧
       getB d (F.ENG_HOLDER.VACANT (v.toNat / 2 ^ 16 % 64)) = true ∧ getB d (F.S_ENG.CTL.BENCH (v.toNat / 2 ^ 16 % 64)) = true) ∧
    (0x80000000 : Word).getLsbD 31 = true ∧ fspiCode (found base Adr.FSPI_XCMD) (0x80000000 : Word).toNat = none ∧
    (let d := found (put [(F.BOOT_STAT.PHASE, 2)] base) Adr.BOOT_ACT
     getB d F.LDR_STAT.BUSY = false ∧ 2 ≤ getF d F.BOOT_STAT.PHASE ∧ d.live = none) ∧
    (let d := found { base with lc := 1, wiping := false } 0x1E00A00C
     d.wiping = false ∧ d.lc = 1 ∧ partListed (0xA00F / 4 * 4) = true) ∧
    (∀ n ∈ [0, 1, 2], let d := found { base with lc := n, wiping := false } Adr.LC_ADVANCE
     let v := BitVec.ofNat 32 (0x4C430000 + n + 1)
     d.wiping = false ∧ v.toNat / 2 ^ 16 = 0x4C43 ∧ v.toNat % 2 ^ 16 = d.lc + 1 ∧ v.toNat % 2 ^ 16 ≤ 3) ∧
    (let d := found { base with cspiTx := List.replicate 64 0 } Adr.CSPI_CMD
     let v : Word := 0x4010
     v.getLsbD 4 = true ∧ d.cspiRun = none ∧ v.toNat / 2 ^ 8 % 128 = 64 ∧ 64 ≤ d.cspiTx.length ∧ 64 + d.cspiRx.length ≤ 64) ∧
    (found { base with cspiTx := List.replicate 63 0 } Adr.CSPI_TX).cspiTx.length < 64 ∧
    (touch { base with cspiRx := [5] } Adr.CSPI_RX).cspiRx = 5 :: [] := by decide +kernel

/-- A register with a bit of each access code; one with none that may be written. -/
def mixedRow : RegRow := ⟨0, 0, 0, 0, 0, false, 0, 0x80000001, 0, 2, 4, 0, 0⟩
theorem witness_AccessCodesGovernWrites : mixedRow.rw < 2 ^ 32 ∧ mixedRow.w1c < 2 ^ 32 ∧ mixedRow.w1s < 2 ^ 32 ∧
    Nat.land mixedRow.rw mixedRow.w1c = 0 ∧ Nat.land mixedRow.rw mixedRow.w1s = 0 ∧ Nat.land mixedRow.w1c mixedRow.w1s = 0 ∧
    mixedRow.rw.testBit 31 = true ∧ mixedRow.w1c.testBit 1 = true ∧ mixedRow.w1s.testBit 2 = true ∧
    mixedRow.rw.testBit 30 = false ∧ mixedRow.w1c.testBit 30 = false ∧ mixedRow.w1s.testBit 30 = false := by decide +kernel

theorem witness_EventsLatchAndCount : evPresent base 511 = true ∧ evPresent base 0x1BF = false ∧ (0 : Nat) ≠ 511 := by decide +kernel

theorem witness_QueuesAreFirstInFirstOut : queTakes queDev 5 = true ∧ queTakes base 5 = false ∧ (que queDev 5).pushSkip = 0 ∧
    (que queDev 5).words.length < queCap queDev 5 ∧ (que queDev 5).words.length + [(⟨0, .int⟩ : TWord)].length ≤ queCap queDev 5 ∧
    queCap queDev 5 < (que queDev 5).words.length + [(⟨0, .int⟩ : TWord), ⟨1, .int⟩].length ∧
    (let d := setQue queDev 5 { que queDev 5 with words := List.replicate 2 (cellOf ⟨1, .int⟩) }
     queCap d 5 ≤ (que d 5).words.length) ∧
    (que queDev 5).popSkip = 0 ∧ (que (setQue queDev 5 { que queDev 5 with words := [] }) 5).words = [] ∧
    (que queDev 5).words = ⟨⟨7, .sample⟩, true⟩ :: [] ∧ (4 : Fin 256) ≠ 5 := by decide +kernel

theorem witness_FailedParityIsDeliveredOnce : queTakes queDev 5 = true ∧ (que queDev 5).popSkip = 0 ∧
    (que queDev 5).words = ⟨⟨7, .sample⟩, true⟩ :: [] := by decide +kernel

end Sys2Proof.Tests
end

section
/-! PROOFS. The access codes (R5, R7): what a register without rules of its own holds after a write, bit by bit. -/

namespace Sys2Proof.Machine

/-- R7: a register with no writable bit takes no write. -/
theorem plainWrite_unwritable (d : Device) (a : Nat) {r : RegRow} (v : Word) (h : r.rw = 0 ∧ r.wo = 0 ∧ r.w1c = 0 ∧ r.w1s = 0) :
    plainWrite d a r v = ignored d := by
  unfold plainWrite
  rw [if_pos h]

theorem reg_ignored (d : Device) (b : Nat) : reg (ignored d) b = reg d b := rfl

/-- A write under the access codes reaches its own register alone. -/
theorem reg_plainWrite_other (d : Device) {a b : Nat} (r : RegRow) (v : Word) (h : b ≠ a) :
    reg (plainWrite d a r v) b = reg d b := by
  unfold plainWrite
  split
  · exact reg_ignored d b
  · exact reg_setReg_other d _ h

/-- R5 for one bit: the RW code takes what was written, then W1C clears and W1S sets where a 1 was written. -/
theorem getLsbD_plainWrite (d : Device) (a : Nat) (r : RegRow) (v : Word) {i : Nat} (hi : i < 32) :
    (reg (plainWrite d a r v) a).getLsbD i =
      ((if r.rw.testBit i then v.getLsbD i else (reg d a).getLsbD i) && !(v.getLsbD i && r.w1c.testBit i)
        || v.getLsbD i && r.w1s.testBit i) := by
  by_cases h : r.rw = 0 ∧ r.wo = 0 ∧ r.w1c = 0 ∧ r.w1s = 0
  · rw [plainWrite_unwritable d a v h, reg_ignored]
    obtain ⟨hrw, -, hw1c, hw1s⟩ := h
    simp [hrw, hw1c, hw1s]
  · unfold plainWrite
    rw [if_neg h]
    dsimp only
    rw [reg_setReg_same]
    simp only [BitVec.getLsbD_or, BitVec.getLsbD_and, BitVec.getLsbD_not, BitVec.getLsbD_ofNat, hi, decide_true, Bool.true_and]
    cases r.rw.testBit i <;> simp

/-- Masks with no bit in common do not share bit `i`. -/
theorem testBit_of_land_zero {x y i : Nat} (h : Nat.land x y = 0) (hx : x.testBit i = true) : y.testBit i = false := by
  have hb : (x &&& y).testBit i = false := by rw [show x &&& y = 0 from h, Nat.zero_testBit]
  rwa [Nat.testBit_and, hx, Bool.true_and] at hb

/-- Settles O57: each access code is the bit rule of `getLsbD_plainWrite` with the other masks, which are disjoint, clear. -/
theorem accessCodesGovernWrites : Obligations.AccessCodesGovernWrites := by
  unfold Obligations.AccessCodesGovernWrites
  intro d a r v i _ _ _ hrc hrs hcs hi
  have bit := getLsbD_plainWrite d a r v hi
  refine ⟨fun hrw => ?rw, fun hc => ?w1c, fun hs => ?w1s, fun hrw hc hs => ?unwritable, fun b hb => ?frame, fun hrw ho hc hs => ?noEffect⟩
  case rw => simp [bit, hrw, testBit_of_land_zero hrc hrw, testBit_of_land_zero hrs hrw]
  case w1c =>
    have hrw : r.rw.testBit i = false := testBit_of_land_zero ((Nat.land_comm _ _).trans hrc) hc
    simp [bit, hrw, hc, testBit_of_land_zero hcs hc]
  case w1s =>
    have hrw : r.rw.testBit i = false := testBit_of_land_zero ((Nat.land_comm _ _).trans hrs) hs
    have hc : r.w1c.testBit i = false := testBit_of_land_zero ((Nat.land_comm _ _).trans hcs) hs
    simp [bit, hrw, hc, hs]
  case unwritable => simp [bit, hrw, hc, hs]
  case frame => exact reg_plainWrite_other d r v hb
  case noEffect => exact plainWrite_unwritable d a v ⟨hrw, ho, hc, hs⟩

end Sys2Proof.Machine
end

section
/-! PROOFS. Accesses of 32-bit registers and of the halves of W registers, and completed handshakes (R5, R19, R29 to R32). -/

namespace Sys2Proof.Machine

/-! ### A command that makes one access -/

theorem access_awake {d : Device} (h : awake d = true) (op : BusOp) : access d op = carryOut d op := by
  unfold access
  rw [if_pos h]

/-- A command that makes one access completes with that access carried out, in a device that requesters reach (R411). -/
theorem completes_access {c : Instr} {s : State} {op : BusOp} {d : Device} (h : mayReach s.dev = true)
    (hx : exec c s = onAccess s op) (hd : carryOut s.dev op = d) : completes c s d := by
  simp only [mayReach, Bool.and_eq_true, Bool.not_eq_true'] at h
  obtain ⟨hheld, hawake⟩ := h
  unfold completes
  rw [hx]
  exact comp_dev hheld ((access_awake hawake op).trans hd)

/-! ### Reads of registers -/

/-- A 32-bit register reads as its live word, or as what the register file holds, and its read takes what it clears (R5). -/
theorem readReg_plain (d : Device) (q : Req) {a : Nat} {r : RegRow} (hr : regRow a = some (r, false)) (hw : r.wide = false) :
    readReg d q a = (readTakes d a, (liveWord d q a).getD (reg d a).toNat) := by
  have hp : peekReg d q a = (d, (liveWord d q a).getD (reg d a).toNat) := by
    unfold peekReg
    rw [hr]
    simp [hw]
  unfold readReg
  rw [hr, hp]

/-- The low half of a W register reads as the low half of its value (R29). -/
theorem readReg_low (d : Device) (q : Req) {a : Nat} {r : RegRow} (hr : regRow a = some (r, false)) (hw : r.wide = true) :
    readReg d q a = (readTakes (peekReg d q a).1 a, wideValue d a % 2 ^ 32) := by
  have hp : (peekReg d q a).2 = wideValue d a % 2 ^ 32 := by
    unfold peekReg
    rw [hr]
    simp [hw]
  unfold readReg
  rw [hr]
  dsimp only
  rw [hp]

/-- A read of the low half leaves the high half in its requester's read-holding register (R30). -/
theorem readHold_peekReg_low (d : Device) (q : Req) {a : Nat} {r : RegRow} (hr : regRow a = some (r, false))
    (hw : r.wide = true) :
    sparseGet wordZero (peekReg d q a).1.readHold (holdKey q a) = BitVec.ofNat 32 (wideValue d a / 2 ^ 32) := by
  have hp : (peekReg d q a).1.readHold =
      sparsePut wordZero d.readHold (holdKey q a) (BitVec.ofNat 32 (wideValue d a / 2 ^ 32)) := by
    unfold peekReg
    rw [hr]
    by_cases ht : a = Adr.TIME_TOD <;> simp [hw, ht]
  rw [hp, sparseGet_put, if_pos rfl]

/-- A word of the register blocks read by one access, in terms of the register's own read. -/
theorem busRead_reg {d e : Device} {q : Req} {a v : Nat} (ha : areaOf a = .regs) (h4 : a % 4 = 0) (hs : subAbsent d a = false)
    (hv : readReg (touch d a) q a = (e, v)) : busRead d q a 4 = answered e q (v % 2 ^ 32) .int := by
  rw [busRead_eq, busGet_reg ha h4 ((subAbsent_variant (touch_variant d a) a).trans hs), hv]

/-! ### Writes of the halves of a W register -/

/-- The low half written waits for the high half (R32). -/
theorem writeReg_low (d : Device) (q : Req) {a : Nat} (v : Word) {r : RegRow} (hr : regRow a = some (r, false))
    (hw : r.wide = true) :
    writeReg d q a v = { d with writeHold := sparsePut wordZero d.writeHold (holdKey q a) v } := by
  unfold writeReg
  rw [hr]
  simp [hw]

/-- The high half written stores both halves (R32). -/
theorem writeReg_high (d : Device) (q : Req) {a : Nat} (v : Word) {r : RegRow} (hr : regRow a = some (r, true))
    (hw : r.wide = true) (hm : mediaReg (a - 4) = false) (hn : aonReg (a - 4) = false) :
    writeReg d q a v = applyWide d q (a - 4) a r
      (v.toNat * 2 ^ 32 + (sparseGet wordZero d.writeHold (holdKey q (a - 4))).toNat) := by
  unfold writeReg
  rw [hr]
  simp [hw, hm, hn]

/-- A word of the register blocks written by one access, in terms of the register's own write. -/
theorem busWrite_word {d : Device} {q : Req} {a : Nat} (v : Word) (ha : areaOf a = .regs) (hs : subAbsent d a = false) :
    busWrite d q a 4 v.toNat = written (writeReg (found d a) q a v) q a := by
  rw [busWrite_eq, busPut_reg ha ((subAbsent_variant (found_variant d a) a).trans hs), BitVec.ofNat_toNat, BitVec.setWidth_eq]

/-! ### Completed handshakes -/

/-- A completed handshake does what the write that waited for it asked for (R19). -/
theorem handshakeDone_waiting (f : Device → Nat → PendWr → Device) {d : Device} {a : Nat} {m : PendWr}
    (h : sparseGet noPend d.handshake a = some m) : handshakeDone f d a = f (crossed d a) a m := by
  unfold handshakeDone
  rw [h]
  rfl

theorem mediaDone_waiting {d : Device} {a : Nat} {m : PendWr} (hm : mediaReg a = true)
    (h : sparseGet noPend d.handshake a = some m) : mediaDone d a = mediaApply (crossed d a) a m := by
  unfold mediaDone
  rw [if_pos hm, handshakeDone_waiting mediaApply h]

theorem aonDone_waiting {d : Device} {a : Nat} {m : PendWr} (hm : aonReg a = true)
    (h : sparseGet noPend d.handshake a = some m) : aonDone d a = aonApply (crossed d a) a m := by
  unfold aonDone
  rw [if_pos hm, handshakeDone_waiting aonApply h]

/-! ### The commands -/

section
variable {s : State} {q : Req} {addr v : Word} {r : RegRow}

theorem registerWrite_completes {x : BitVec 64} (h : mayReach s.dev = true) (ha : areaOf addr.toNat = .regs)
    (hs : subAbsent s.dev addr.toNat = false) (hr : regRow addr.toNat = some (r, false)) (hw : r.wide = false)
    (hm : mediaReg addr.toNat = false) (hn : aonReg addr.toNat = false) :
    completes (.registerWrite q addr .w32 x) s
      (written (applyReg (found s.dev addr.toNat) q addr.toNat r (BitVec.ofNat 32 x.toNat)) q addr.toNat) :=
  completes_access (op := .write q addr.toNat 4 x.toNat) h rfl (busWrite_reg ha hs hr hw hm hn)

/-- A command that reads one word of the register blocks completes with what the register's own read gives. -/
theorem read_completes {c : Instr} {e : Device} {n : Nat} (hx : exec c s = onAccess s (.read q addr.toNat 4))
    (h : mayReach s.dev = true) (ha : areaOf addr.toNat = .regs) (h4 : addr.toNat % 4 = 0)
    (hs : subAbsent s.dev addr.toNat = false) (hv : readReg (touch s.dev addr.toNat) q addr.toNat = (e, n)) :
    completes c s (answered e q (n % 2 ^ 32) .int) :=
  completes_access h hx (busRead_reg ha h4 hs hv)

/-- A command that writes one word of the register blocks completes with what the register's own write leaves. -/
theorem write_completes {c : Instr} {e : Device} (hx : exec c s = onAccess s (.write q addr.toNat 4 v.toNat))
    (h : mayReach s.dev = true) (ha : areaOf addr.toNat = .regs) (hs : subAbsent s.dev addr.toNat = false)
    (he : writeReg (found s.dev addr.toNat) q addr.toNat v = e) : completes c s (written e q addr.toNat) :=
  completes_access h hx ((busWrite_word v ha hs).trans (by rw [he]))

end

/-- Settles O50, a clause per command: the register's own read or write, through one access of its requester. -/
theorem registerAccessesComplete : Obligations.RegisterAccessesComplete := by
  unfold Obligations.RegisterAccessesComplete
  intro s q addr v x r m
  refine ⟨?accesses, ?handshakes⟩
  case accesses =>
    intro h ha a d t hs
    refine ⟨fun h4 hr => ⟨fun hw => ⟨fun hm hn => ?write, ?readClear⟩, fun hw => ⟨?lowRead, ?hold, ?lowWrite⟩⟩,
      fun _ hr hw hm hn => ?highWrite⟩
    case write => exact registerWrite_completes h ha hs hr hw hm hn
    case readClear => exact read_completes rfl h ha h4 hs (readReg_plain t q hr hw)
    case lowRead =>
      have hc := read_completes (c := .wLowRead q addr) rfl h ha h4 hs (readReg_low t q hr hw)
      rwa [Nat.mod_mod] at hc
    case hold => exact readHold_peekReg_low t q hr hw
    case lowWrite => exact write_completes rfl h ha hs (writeReg_low d q v hr hw)
    case highWrite => exact write_completes rfl h ha hs (writeReg_high d q v hr hw hm hn)
  case handshakes =>
    intro hheld hp d
    refine ⟨fun hawake hm => ?media, fun hm => ?aon⟩
    case media => exact comp_bus (by simp [mayReach, hheld, hawake]) (mediaDone_waiting hm hp)
    case aon => exact comp_dev hheld (aonDone_waiting hm hp)

end Sys2Proof.Machine
end

section
/-! PROOFS. How a command reaches the device (R53, R411, R514), and the order of the accesses of one cycle (R26). -/

namespace Sys2Proof.Machine

/-! ### The forms of a command's meaning -/

/-- Every command answers a next state, and leaves the queue of commands to the step. -/
theorem exec_next (c : Instr) (s : State) : ∃ e, exec c s = .next { s with dev := e } := by
  cases c <;> exact ⟨_, rfl⟩

/-- An access of a requester has the meaning of one bus operation, which the operands of the command fix. -/
theorem exec_access {c : Instr} (h : c.access = true) : ∃ op : BusOp, ∀ s, exec c s = onAccess s op := by
  unfold exec
  cases c <;> cases h <;> exact ⟨_, fun _ => rfl⟩

/-- The end of an operation under way acts on the device while it runs. -/
theorem exec_running {c : Instr} (h : c.running = true) : ∃ f : Device → Device, ∀ s, exec c s = onBus s f := by
  unfold exec
  cases c <;> cases h <;> exact ⟨_, fun _ => rfl⟩

/-- Every command beside the pins, the accesses and the ends of operations acts on a device that is not held. -/
theorem exec_device {c : Instr} (hp : c.pin = false) (hr : c.running = false) (ha : c.access = false) :
    ∃ f : Device → Device, ∀ s, exec c s = onDev s f := by
  unfold exec
  cases c <;> cases hp <;> cases hr <;> cases ha <;> exact ⟨_, fun _ => rfl⟩

/-- R53, R514: beside its pins, resets and supply a held device follows no command. -/
theorem exec_held {c : Instr} {s : State} (h : held s.dev = true) (hp : c.pin = false) : exec c s = .next s := by
  cases hr : c.running with
  | true =>
    obtain ⟨f, hf⟩ := exec_running hr
    exact (hf s).trans (onDev_held h)
  | false =>
    cases ha : c.access with
    | true =>
      obtain ⟨op, hop⟩ := exec_access ha
      exact (hop s).trans (onDev_held h)
    | false =>
      obtain ⟨f, hf⟩ := exec_device hp hr ha
      exact (hf s).trans (onDev_held h)

/-- R411: an operation under way does not end while the device does not run. -/
theorem exec_running_asleep {c : Instr} {s : State} (w : awake s.dev = false) (hr : c.running = true) :
    exec c s = .next s := by
  obtain ⟨f, hf⟩ := exec_running hr
  rw [hf, onBus_asleep w]

/-- Settles O27: the step on a queue with a front command is that command's meaning, and `exec_next` gives its outcome. -/
theorem stepTakesTheFront : Obligations.StepTakesTheFront := by
  unfold Obligations.StepTakesTheFront
  exact fun c cs d => ⟨rfl, exec_next c ⟨cs, d⟩⟩

/-! ### An access in each power state -/

/-- R411: in SLEEP an access stalls behind those that stall already. -/
theorem access_sleep {d : Device} (h : d.pstate = .sleep) (op : BusOp) :
    access d op = { d with stalled := d.stalled ++ [op] } := by
  simp [access, awake, h]

/-- R411: in DEEP and OFF no requester reaches the device. -/
theorem access_deep_off {d : Device} (h : d.pstate = .deep ∨ d.pstate = .off) (op : BusOp) : access d op = d := by
  rcases h with h | h <;> simp [access, awake, h]

/-! ### The order of one cycle -/

section
variable {α : Type} (rank : α → Nat) (l : List α)

/-- The elements of a list by ascending rank below `n`, those of one rank in the order of the list. -/
def byRank (n : Nat) : List α := (List.range n).flatMap (fun r => l.filter (fun x => decide (rank x = r)))

theorem byRank_succ (n : Nat) : byRank rank l (n + 1) = byRank rank l n ++ l.filter (fun x => decide (rank x = n)) := by
  simp [byRank, List.range_succ]

theorem byRank_perm_filter (n : Nat) : (byRank rank l n).Perm (l.filter (fun x => decide (rank x < n))) := by
  induction n with
  | zero => simp [byRank]
  | succ n ih =>
    have hlow : (l.filter (fun x => decide (rank x < n + 1))).filter (fun x => decide (rank x < n)) =
        l.filter (fun x => decide (rank x < n)) := by
      rw [List.filter_filter]
      exact List.filter_congr (fun x _ => by rw [Bool.eq_iff_iff]; simp; omega)
    have htop : (l.filter (fun x => decide (rank x < n + 1))).filter (fun x => !decide (rank x < n)) =
        l.filter (fun x => decide (rank x = n)) := by
      rw [List.filter_filter]
      exact List.filter_congr (fun x _ => by rw [Bool.eq_iff_iff]; simp; omega)
    rw [byRank_succ]
    refine (ih.append_right _).trans ?_
    rw [← hlow, ← htop]
    exact List.filter_append_perm _ _

theorem byRank_perm {n : Nat} (h : ∀ x, rank x < n) : (byRank rank l n).Perm l := by
  have hp := byRank_perm_filter rank l n
  rwa [List.filter_eq_self.2 (fun x _ => by simp [h x])] at hp

theorem byRank_pairwise (n : Nat) : (byRank rank l n).Pairwise (fun x y => rank x ≤ rank y) := by
  have rank_eq : ∀ {r x}, x ∈ l.filter (fun x => decide (rank x = r)) → rank x = r :=
    fun hx => of_decide_eq_true (List.mem_filter.1 hx).2
  refine List.pairwise_flatMap.2 ⟨fun r _ => ?_, List.pairwise_lt_range.imp (fun hlt x hx y hy => ?_)⟩
  · exact List.pairwise_of_forall_mem_list (fun x hx y hy => by rw [rank_eq hx, rank_eq hy])
  · rw [rank_eq hx, rank_eq hy]
    exact hlt.le

/-- What has one rank below `n` keeps its order. -/
theorem byRank_filter {p : α → Bool} {k : Nat} (hp : ∀ x, p x = true → rank x = k) (n : Nat) :
    (byRank rank l n).filter p = if k < n then l.filter p else [] := by
  induction n with
  | zero => simp [byRank]
  | succ n ih =>
    have htop : (l.filter (fun x => decide (rank x = n))).filter p = if k = n then l.filter p else [] := by
      rw [List.filter_filter]
      split
      · next hk => exact List.filter_congr (fun x _ => by cases hx : p x <;> simp [hx, ← hk, hp x])
      · next hk => exact List.filter_eq_nil_iff.2 (fun x _ hx => by simp at hx; exact hk ((hp x hx.1).symm.trans hx.2))
    rw [byRank_succ, List.filter_append, ih, htop]
    grind

end

theorem reqRank_lt (q : Req) : reqRank q < 7 := by
  cases q with
  | cc c => exact Nat.lt_of_lt_of_le (Nat.add_lt_add_left c.isLt 1) (by decide)
  | loader | pcie | hspi => decide

theorem inOrder_eq (ops : List BusOp) : inOrder ops = byRank (fun o => reqRank o.req) ops 7 := rfl

theorem inOrder_perm (ops : List BusOp) : (inOrder ops).Perm ops := byRank_perm _ ops (fun o => reqRank_lt o.req)

theorem inOrder_pairwise (ops : List BusOp) :
    (inOrder ops).Pairwise (fun x y => reqRank x.req ≤ reqRank y.req) := byRank_pairwise _ ops 7

/-- R26: those of one requester take effect in the order it made them. -/
theorem inOrder_filter_req (ops : List BusOp) (q : Req) :
    (inOrder ops).filter (fun o => decide (o.req = q)) = ops.filter (fun o => decide (o.req = q)) := by
  rw [inOrder_eq, byRank_filter _ ops (k := reqRank q) (fun o ho => by rw [of_decide_eq_true ho]), if_pos (reqRank_lt q)]

/-- Settles O32: the form of the command's meaning decides what a held or stopped device does; the order of one cycle is a
stable sort by the rank of the requester. -/
theorem heldAndStoppedDevicesKeepEverything : Obligations.HeldAndStoppedDevicesKeepEverything := by
  unfold Obligations.HeldAndStoppedDevicesKeepEverything
  intro c s
  refine ⟨exec_held, exec_running_asleep, fun ha => ?access, fun hw => if_pos hw, fun ops =>
    ⟨rfl, inOrder_perm ops, inOrder_pairwise ops, inOrder_filter_req ops⟩⟩
  case access =>
    obtain ⟨op, hop⟩ := exec_access ha
    refine ⟨op, fun t ht => ?_⟩
    have hc : ∀ {d}, access t.dev op = d → completes c t d := fun hd => (hop t).trans (comp_dev ht hd)
    exact ⟨fun hw => hc (access_awake hw op), fun hs => hc (access_sleep hs op), fun hd => hc (access_deep_off hd op)⟩

end Sys2Proof.Machine
end

section
/-! PROOFS. Events at the Scoreboard: latches, counts and what waits in a source domain (R18, R383 to R386). -/

namespace Sys2Proof.Machine

/-! ### What the messages of MSI-X vectors leave as it is -/

theorem kept_evCnt : BusKept (fun b => b.evCnt) := ⟨fun _ _ => rfl, fun _ _ => rfl, fun _ _ => rfl⟩

/-- What no message changes and no mark of the pending vectors changes, the settling of the latches leaves as it is. -/
theorem evtSettle_keep {β : Type} (p : Device → β) (hm : ∀ d x, p (sendMsix d x) = p d)
    (hp : ∀ (d : Device) m, p { d with msixPend := m } = p d) (d : Device) : p (evtSettle d) = p d := by
  unfold evtSettle
  refine (foldl_keep p _ (fun e x => ?_) _ _).trans (hp d _)
  split
  · exact hm e x
  · rfl

theorem evCnt_sendMsix (d : Device) (x : Nat) : (sendMsix d x).evCnt = d.evCnt := by
  unfold sendMsix
  split
  · exact kept_setF kept_evCnt d _ _
  · rfl

theorem evCnt_evtSettle (d : Device) : (evtSettle d).evCnt = d.evCnt :=
  evtSettle_keep (fun d => d.evCnt) evCnt_sendMsix (fun _ _ => rfl) d

/-! ### Latches -/

theorem fldWords_latchF (v : Nat) : fldWords (latchF v) = [Adr.EVT_LATCH (v / 32)] :=
  if_pos (Nat.mod_lt v (by decide))

/-- The latches of two events share no bit. -/
theorem latchF_apart {u v : Nat} (h : u ≠ v) : fldApart (latchF v) (latchF u) := by
  by_cases hw : u / 32 = v / 32
  · refine Or.inr ⟨by simp [latchF, hw], ?_⟩
    simp only [latchF]
    omega
  · refine Or.inl ?_
    simp only [fldWords_latchF, List.mem_singleton, Adr.EVT_LATCH]
    omega

/-- The pending bit of an MSI-X vector is no latch. -/
theorem pend_apart_latchF (x : Nat) {v : Nat} (h : v < 512) : fldApart (F.PCIE_PBA.PEND x) (latchF v) := by
  refine Or.inl fun a ha => ?_
  have : a = Adr.PCIE_PBA ∨ a = Adr.PCIE_PBA + 4 := by
    unfold fldWords at ha
    split at ha <;> simp_all [F.PCIE_PBA.PEND, Adr.PCIE_PBA]
  simp only [fldWords_latchF, List.mem_singleton, Adr.EVT_LATCH, Adr.PCIE_PBA] at this ⊢
  omega

theorem latchF_fits (v : Nat) : (latchF v).lo + (latchF v).len ≤ 64 :=
  Nat.le_trans (Nat.mod_lt v (by decide)) (by decide)

theorem getB_setB_apart (d : Device) {f g : Fld} (b : Bool) (hg : g.lo + g.len ≤ 64) (h : fldApart f g) :
    getB (setB d f b) g = getB d g := by
  unfold getB setB
  rw [getF_setF_apart d f g _ hg h]

theorem latch_sendMsix (d : Device) (x : Nat) {v : Nat} (h : v < 512) : getB (sendMsix d x) (latchF v) = getB d (latchF v) := by
  unfold sendMsix
  split
  · exact getB_setB_apart d true (latchF_fits v) (pend_apart_latchF x h)
  · rfl

theorem latch_evtSettle (d : Device) {v : Nat} (h : v < 512) : getB (evtSettle d) (latchF v) = getB d (latchF v) :=
  evtSettle_keep (fun d => getB d (latchF v)) (fun d x => latch_sendMsix d x h) (fun _ _ => rfl) d

/-! ### Delivery -/

section
variable (d : Device) {v : Nat} (k : Nat)

theorem deliverEv_absent (h : evPresent d v = false) : deliverEv d v k = d := by simp [deliverEv, h]

theorem raiseEv_absent (h : evPresent d v = false) : raiseEv d v = d := by simp [raiseEv, h]

/-- R384: an event delivered sets its own latch and no other. -/
theorem latch_deliverEv (hp : evPresent d v = true) {u : Nat} (hu : u < 512) :
    getB (deliverEv d v k) (latchF u) = (decide (u = v) || getB d (latchF u)) := by
  unfold deliverEv
  rw [if_pos hp, latch_evtSettle _ hu]
  by_cases h : u = v
  · subst h
    simp [getB_setB_same _ _ _ (latchF_fits u) rfl]
  · rw [getB_setB_apart _ true (latchF_fits u) (latchF_apart h)]
    simp only [h, decide_false, Bool.false_or]
    rfl

/-- R384: an event delivered advances its own count, which saturates, and no other. -/
theorem evCnt_deliverEv (hp : evPresent d v = true) (u : Nat) :
    sparseGet natZero (deliverEv d v k).evCnt u =
      if u = v then Nat.min (sparseGet natZero d.evCnt v + k) 0xFFFF else sparseGet natZero d.evCnt u := by
  unfold deliverEv
  rw [if_pos hp, evCnt_evtSettle, show (setB _ (latchF v) true).evCnt = _ from kept_setF kept_evCnt _ _ _, sparseGet_put]

/-- R18: an event raised outside the CTRL domain waits in its source domain, and no occurrence of another is lost. -/
theorem evPend_raiseEv (hp : evPresent d v = true) (u : Nat) :
    sparseGet natZero (raiseEv d v).evPend u =
      if u = v then sparseGet natZero d.evPend v + 1 else sparseGet natZero d.evPend u := by
  unfold raiseEv
  rw [if_pos hp, sparseGet_put]

theorem latch_raiseEv (v n : Nat) : getB (raiseEv d v) (latchF n) = getB d (latchF n) := by
  unfold raiseEv
  split <;> rfl

end

/-- Settles O58: a delivery reaches one latch and one count, and an event raised elsewhere one count of its source domain. -/
theorem eventsLatchAndCount : Obligations.EventsLatchAndCount := by
  unfold Obligations.EventsLatchAndCount
  intro d v u k hv hu hne
  refine ⟨fun hp => ⟨?latch, ?others, ?count, ?otherCounts, rfl, ?held, ?otherHeld, latch_raiseEv d v⟩,
    fun ha => ⟨deliverEv_absent d k ha, raiseEv_absent d ha⟩⟩
  case latch => simp [latch_deliverEv d k hp hv]
  case others => simp [latch_deliverEv d k hp hu, hne]
  case count => simp [evCnt_deliverEv d k hp]
  case otherCounts => simp [evCnt_deliverEv d k hp, hne]
  case held => simp [evPend_raiseEv d hp]
  case otherHeld => simp [evPend_raiseEv d hp, hne]

end Sys2Proof.Machine
end

section
/-! PROOFS. The device that reset leaves (R9, R22, R103, R165, R376, R384, R402). -/

namespace Sys2Proof.Machine

theorem ag_reset (n : Fin 68) : ag Device.reset n = Engine.reset n.val := by
  simp [ag, Device.reset]

theorem reg_reset (a : Nat) : reg Device.reset a = regReset a := rfl

/-- R103: no working register holds a payload but 0. -/
theorem payload_workReset (g : GReg) : (readG Work.reset g).p = 0 := by
  cases g <;> simp [readG, Work.reset, TWord.zero]

/-- R103: Dn come with tag UNINIT. -/
theorem tag_workReset_d (i : Fin 16) : (readG Work.reset (.d i)).t = .uninit := by
  simp [readG, Work.reset, TWord.zero]

/-- R103: Qn come with tag UNINIT. -/
theorem tag_workReset_ql (m : Fin 4) : (readG Work.reset (.ql m)).t = .uninit := by
  simp [readG, Work.reset]

/-- R165: the words of the exchange buffer are INVALID, every other word of local data UNINIT. -/
theorem localCell_reset (n : Fin 68) (a : Nat) : (localCell Device.reset n a).w =
    ⟨0, if ioBase Device.reset n ≤ a ∧ a < ioBase Device.reset n + 128 then .invalid else .uninit⟩ := by
  unfold localCell
  simp only [ag_reset]
  split <;> rfl

theorem bitAt_nil (b : Nat) : bitAt [] b = false := BitVec.getLsbD_zero

/-- R384: the latch words hold 0. -/
theorem regReset_EVT_LATCH : ∀ k, k < 16 → regReset (Adr.EVT_LATCH k) = 0 := by decide

theorem latch_reset {v : Nat} (h : v < 512) : getB Device.reset (latchF v) = false := by
  have hw : reg Device.reset (Adr.EVT_LATCH (v / 32)) = 0 := (reg_reset _).trans (regReset_EVT_LATCH _ (by omega))
  have hf : (latchF v).lo + (latchF v).len ≤ 32 := Nat.mod_lt v (by decide)
  unfold getB getF
  rw [if_pos hf]
  simp [latchF, hw, bitsOf]

/-- Settles O29, a clause per part of the device. -/
theorem resetLeavesTheMachineEmpty : Obligations.ResetLeavesTheMachineEmpty := by
  unfold Obligations.ResetLeavesTheMachineEmpty
  simp only [State.reset]
  refine ⟨trivial, rfl, fun n => ?processors, fun w => ⟨rfl, rfl⟩, fun v hv => latch_reset hv, fun q => ?queues,
    fun c => ?cores, fun k => ?kickoffs⟩
  case processors =>
    rw [ag_reset]
    exact ⟨rfl, rfl, payload_workReset, tag_workReset_d, tag_workReset_ql, localCell_reset n, fun b _ => bitAt_nil b⟩
  case queues => simp [que, Device.reset, Queue.reset]
  case cores => simp [Device.reset, CoreX.reset]
  case kickoffs => simp [Device.reset]

end Sys2Proof.Machine
end

section
/-! PROOFS. The rows of the watchdog, the control cores, the Scoreboard and the queues (R18, R21, R376, R382 to R402). -/

namespace Sys2Proof.Machine

/-! ### Rows of the register tables -/

section
variable {r : RegRow} {rs : List RegRow} {a : Nat}

/-- A row with one stride does not cover an address below its base or past its last register. -/
theorem rowOf_skip (h : r.base ≤ a → r.n1 ≤ (a - r.base) / r.s1) : rowOf (r :: rs) a = rowOf rs a := by
  rw [rowOf]
  exact if_neg (fun ⟨hb, hn, _⟩ => absurd (h hb) (Nat.not_le.2 hn))

/-- The address of the k-th register of a row with one stride lies in the row. -/
theorem rowOf_member {k : Nat} (hk : k < r.n1) (h1 : 0 < r.s1) (h2 : 0 < r.n2) (ha : a = r.base + r.s1 * k) :
    rowOf (r :: rs) a = some (r, false) := by
  subst ha
  simp [rowOf, hk, h1, h2]

/-- The second word of the k-th W register of a row lies in the row, as a high half. -/
theorem rowOf_member_high {k : Nat} (hk : k < r.n1) (h1 : 4 < r.s1) (h2 : 0 < r.n2) (hs : 4 < r.s2) (hw : r.wide = true)
    (ha : a = r.base + (r.s1 * k + 4)) : rowOf (r :: rs) a = some (r, true) := by
  subst ha
  simp [rowOf, Nat.mul_add_div (by omega : 0 < r.s1), Nat.div_eq_of_lt h1, Nat.mod_eq_of_lt h1, Nat.mod_eq_of_lt hs,
    Nat.div_eq_of_lt hs, hk, h2, hw]

end

theorem regRow_EVT {a : Nat} (hb : a / 0x10000 = 0x1C04) : regRow a = rowOf rowsEVT a := by
  simp only [regRow, blockRows, hb]

theorem regRow_QUE {a : Nat} (hb : a / 0x10000 = 0x1C08) : regRow a = rowOf rowsQUE a := by
  simp only [regRow, blockRows, hb]

theorem block_EVT_ROUTE (e : Fin 512) : Adr.EVT_ROUTE e.val / 0x10000 = 0x1C04 := by
  unfold Adr.EVT_ROUTE
  omega

theorem block_CC_CTL (c : Fin 4) : Adr.CC_CTL c.val / 0x10000 = 0x1C04 := by
  unfold Adr.CC_CTL
  omega

theorem block_QUE_PORT (k : Fin 256) : Adr.QUE_PORT k.val / 0x10000 = 0x1C08 := by
  unfold Adr.QUE_PORT
  omega

theorem block_QUE_PORT_high (k : Fin 256) : (Adr.QUE_PORT k.val + 4) / 0x10000 = 0x1C08 := by
  unfold Adr.QUE_PORT
  omega

theorem block_QUE_PUSH (k : Fin 256) : Adr.QUE_PUSH k.val / 0x10000 = 0x1C08 := by
  unfold Adr.QUE_PUSH
  omega

theorem queNo_QUE_PORT (k : Fin 256) : queNo ((Adr.QUE_PORT k.val - 0x1C080000) / 8) = k := by
  apply Fin.ext
  simp only [queNo, Adr.QUE_PORT]
  omega

theorem row_EVT_ROUTE (e : Fin 512) : ∃ r, regRow (Adr.EVT_ROUTE e.val) = some (r, false) ∧ r.wide = false := by
  rw [regRow_EVT (block_EVT_ROUTE e)]
  unfold rowsEVT Adr.EVT_ROUTE
  iterate 5 rw [rowOf_skip (by dsimp only; omega)]
  exact ⟨_, rowOf_member e.isLt (by decide) (by decide) rfl, rfl⟩

theorem row_CC_CTL (c : Fin 4) : ∃ r, regRow (Adr.CC_CTL c.val) = some (r, false) ∧ r.wide = false := by
  rw [regRow_EVT (block_CC_CTL c)]
  unfold rowsEVT Adr.CC_CTL
  iterate 6 rw [rowOf_skip (by dsimp only; omega)]
  exact ⟨_, rowOf_member c.isLt (by decide) (by decide) rfl, rfl⟩

theorem row_QUE_PUSH (k : Fin 256) : ∃ r, regRow (Adr.QUE_PUSH k.val) = some (r, false) ∧ r.wide = false := by
  rw [regRow_QUE (block_QUE_PUSH k)]
  unfold rowsQUE Adr.QUE_PUSH
  rw [rowOf_skip (by dsimp only; omega)]
  exact ⟨_, rowOf_member k.isLt (by decide) (by decide) rfl, rfl⟩

theorem row_QUE_PORT (k : Fin 256) : ∃ r, regRow (Adr.QUE_PORT k.val) = some (r, false) ∧ r.wide = true := by
  rw [regRow_QUE (block_QUE_PORT k)]
  exact ⟨_, rowOf_member k.isLt (by decide) (by decide) rfl, rfl⟩

theorem row_QUE_PORT_high (k : Fin 256) : ∃ r, regRow (Adr.QUE_PORT k.val + 4) = some (r, true) ∧ r.wide = true := by
  rw [regRow_QUE (block_QUE_PORT_high k)]
  exact ⟨_, rowOf_member_high k.isLt (by decide) (by decide) (by decide) rfl (Nat.add_assoc _ _ _), rfl⟩

/-! ### Writes of the blocks EVT and QUE -/

section
variable {c : Instr} {s : State} {q : Req} {v : Word} {a : Nat} {e : Device}

theorem area_EVT (hb : a / 0x10000 = 0x1C04) : areaOf a = .regs := regs_addr (by omega) (by omega)

theorem area_QUE (hb : a / 0x10000 = 0x1C08) : areaOf a = .regs := regs_addr (by omega) (by omega)

theorem present_EVT (d : Device) (hb : a / 0x10000 = 0x1C04) : subAbsent d a = false := by
  simp only [subAbsent, hb]

theorem present_QUE (d : Device) (hb : a / 0x10000 = 0x1C08) : subAbsent d a = false := by
  simp only [subAbsent, hb]

/-- A command that writes one word of a register block by an access completes with what the register's write leaves. -/
theorem wordWrite_completes (hx : exec c s = onAccess s (.write q a 4 v.toNat)) (h : mayReach s.dev = true)
    (ha : areaOf a = .regs) (hs : subAbsent s.dev a = false) (he : writeReg (found s.dev a) q a v = e) :
    completes c s (written e q a) :=
  completes_access h hx ((busWrite_word v ha hs).trans (by rw [he]))

/-- Only CLK and TIME have registers of MEDIA domains. -/
theorem mediaReg_block (h2 : a / 0x10000 ≠ 0x1C02) (hc : a / 0x10000 ≠ 0x1C0C) : mediaReg a = false := by
  unfold mediaReg
  rw [decide_eq_false_iff_not]
  simp only [Adr.TIME_CTL, Adr.TIME_LOCKPAR, Adr.TIME_STEP, Adr.TIME_FREQ, Adr.TIME_REFOFS]
  omega

/-- Only PWR and TIME have registers with AON-domain fields. -/
theorem aonReg_block (h3 : a / 0x10000 ≠ 0x1C03) (hc : a / 0x10000 ≠ 0x1C0C) : aonReg a = false := by
  unfold aonReg
  rw [decide_eq_false_iff_not]
  simp only [Adr.TIME_AONQ]
  omega

theorem writeReg_EVT {d : Device} {r : RegRow} (hb : a / 0x10000 = 0x1C04) (hr : regRow a = some (r, false))
    (hw : r.wide = false) : writeReg d q a v = evtApply d a r v := by
  rw [writeReg_plain hr hw (mediaReg_block (by omega) (by omega)) (aonReg_block (by omega) (by omega))]
  simp only [applyReg, hb]

theorem writeReg_QUE {d : Device} {r : RegRow} (hb : a / 0x10000 = 0x1C08) (hr : regRow a = some (r, false))
    (hw : r.wide = false) : writeReg d q a v = queApply d q a r v := by
  rw [writeReg_plain hr hw (mediaReg_block (by omega) (by omega)) (aonReg_block (by omega) (by omega))]
  simp only [applyReg, hb]

theorem applyWide_QUE {d : Device} {addr : Nat} {r : RegRow} {x : Nat} (hb : a / 0x10000 = 0x1C08) :
    applyWide d q a addr r x =
      hostPush d q addr (queNo ((a - 0x1C080000) / 8)) ⟨BitVec.ofNat 32 x, tagOfCode (x / 2 ^ 32 % 16)⟩ := by
  simp only [applyWide, hb]

/-- The high half of QUE_PORT pushes the word whose payload its low half left (R32, R393). -/
theorem writeReg_QUE_PORT_high (d : Device) (k : Fin 256) :
    writeReg d q (Adr.QUE_PORT k.val + 4) v = hostPush d q (Adr.QUE_PORT k.val + 4) k
      ⟨sparseGet wordZero d.writeHold (holdKey q (Adr.QUE_PORT k.val)), tagOfCode (v.toNat % 16)⟩ := by
  obtain ⟨r, hr, hw⟩ := row_QUE_PORT_high k
  have hb := block_QUE_PORT k
  rw [writeReg_high d q v hr hw (mediaReg_block (by omega) (by omega)) (aonReg_block (by omega) (by omega)),
    Nat.add_sub_cancel, applyWide_QUE hb, queNo_QUE_PORT]
  generalize sparseGet wordZero d.writeHold (holdKey q (Adr.QUE_PORT k.val)) = p
  have hlt := p.isLt
  have hp : BitVec.ofNat 32 (v.toNat * 2 ^ 32 + p.toNat) = p := by
    apply BitVec.eq_of_toNat_eq
    simp only [BitVec.toNat_ofNat]
    omega
  have ht : (v.toNat * 2 ^ 32 + p.toNat) / 2 ^ 32 % 16 = v.toNat % 16 := by omega
  rw [hp, ht]

/-- A write command of the Scoreboard, the cores or the watchdog completes with what the block's rule leaves. -/
theorem evtWrite_completes (hx : exec c s = onAccess s (.write q a 4 v.toNat)) (h : mayReach s.dev = true)
    (hb : a / 0x10000 = 0x1C04) (hr : ∃ r, regRow a = some (r, false) ∧ r.wide = false)
    (he : ∀ r, evtApply (found s.dev a) a r v = e) : completes c s (written e q a) := by
  obtain ⟨r, hr, hw⟩ := hr
  exact wordWrite_completes hx h (area_EVT hb) (present_EVT _ hb) ((writeReg_EVT hb hr hw).trans (he r))

/-- A write command of a queue completes with what the block's rule leaves. -/
theorem queWrite_completes (hx : exec c s = onAccess s (.write q a 4 v.toNat)) (h : mayReach s.dev = true)
    (hb : a / 0x10000 = 0x1C08) (hr : ∃ r, regRow a = some (r, false) ∧ r.wide = false)
    (he : ∀ r, queApply (found s.dev a) q a r v = e) : completes c s (written e q a) := by
  obtain ⟨r, hr, hw⟩ := hr
  exact wordWrite_completes hx h (area_QUE hb) (present_QUE _ hb) ((writeReg_QUE hb hr hw).trans (he r))

end

/-! ### What each register's write does -/

section
variable (d : Device) (q : Req) (r : RegRow) (v : Word)

theorem evtApply_WDOG_KICK : evtApply d Adr.WDOG_KICK r v = wdKick d v.toNat := rfl

theorem evtApply_WDOG_CTL : evtApply d Adr.WDOG_CTL r v = wdCtl d v.toNat := rfl

theorem evtApply_EVT_SWTRIG : evtApply d Adr.EVT_SWTRIG r v = swTrig d v.toNat := rfl

theorem evtApply_EVT_MSIXACK : evtApply d Adr.EVT_MSIXACK r v = msixAck d v.toNat := rfl

theorem evtApply_EVT_ROUTE (e : Fin 512) : evtApply d (Adr.EVT_ROUTE e.val) r v = evtRoute d e.val v.toNat := by
  have ho : Adr.EVT_ROUTE e.val % 0x10000 = 0x800 + 4 * e.val := by unfold Adr.EVT_ROUTE; omega
  have hs : Adr.EVT_ROUTE e.val ≠ Adr.EVT_SWTRIG := by unfold Adr.EVT_ROUTE Adr.EVT_SWTRIG; omega
  have hm : Adr.EVT_ROUTE e.val ≠ Adr.EVT_MSIXACK := by unfold Adr.EVT_ROUTE Adr.EVT_MSIXACK; omega
  have he : (0x800 + 4 * e.val - 0x800) / 4 = e.val := by omega
  unfold evtApply
  simp only [ho, hs, hm, he, if_false]
  rw [if_neg (by omega), if_pos (by omega)]

theorem evtApply_CC_CTL (c : Fin 4) : evtApply d (Adr.CC_CTL c.val) r v = ccCtl d c v.toNat := by
  have ho : Adr.CC_CTL c.val % 0x10000 = 0x2000 + 0x100 * c.val := by unfold Adr.CC_CTL; omega
  have hs : Adr.CC_CTL c.val ≠ Adr.EVT_SWTRIG := by unfold Adr.CC_CTL Adr.EVT_SWTRIG; omega
  have hm : Adr.CC_CTL c.val ≠ Adr.EVT_MSIXACK := by unfold Adr.CC_CTL Adr.EVT_MSIXACK; omega
  have hc : (0x2000 + 0x100 * c.val - 0x2000) / 0x100 % 4 = c.val := by omega
  have hz : (0x2000 + 0x100 * c.val) % 0x100 = 0 := by omega
  unfold evtApply
  simp only [ho, hs, hm, hc, hz, if_false]
  rw [if_neg (by omega), if_neg (by omega), if_pos (by omega)]

theorem queApply_QUE_CTL : queApply d q Adr.QUE_CTL r v =
    onQueue d q Adr.QUE_CTL (queNo v.toNat) (fun d => queCtl d v.toNat) := by
  simp [queApply, Adr.QUE_CTL]

theorem queApply_QUE_PUSH (k : Fin 256) :
    queApply d q (Adr.QUE_PUSH k.val) r v = hostPush d q (Adr.QUE_PUSH k.val) k ⟨v, .sample⟩ := by
  have ho : Adr.QUE_PUSH k.val % 0x10000 = 0x800 + 4 * k.val := by unfold Adr.QUE_PUSH; omega
  have hk : queNo ((0x800 + 4 * k.val - 0x800) / 4) = k := by
    apply Fin.ext
    simp only [queNo]
    omega
  unfold queApply
  dsimp only
  rw [ho, if_pos (by omega), hk]

end

section
variable {d : Device} {v : Nat} {c : Fin 4} {k : Fin 256}

theorem wdKick_key : wdKick d 0xA55A = { setB d F.WDOG_STAT.KICKED true with wdCycles := 0, wdRestarted := true } := rfl

/-- A bit of a word is a digit of its value. -/
theorem getLsbD_iff (v : Word) (i : Nat) : v.getLsbD i = true ↔ v.toNat / 2 ^ i % 2 = 1 := by
  rw [BitVec.getLsbD, Nat.testBit_eq_decide_div_mod_eq, decide_eq_true_eq]

/-- R382: EN is set once, and a LIMIT of 0 is not taken. -/
theorem wdCtl_eq (v : Word) : wdCtl d v.toNat = wdExpire
    (let d := if v.getLsbD 0 = true then setB d F.WDOG_CTL.EN true else d
     if v.toNat / 2 ^ 8 = 0 then d else setF d F.WDOG_CTL.LIMIT (v.toNat / 2 ^ 8)) := by
  have hen : v.getLsbD 0 = true ↔ v.toNat % 2 = 1 := by simpa using getLsbD_iff v 0
  have hlim : v.toNat / 2 ^ 8 % 2 ^ 24 = v.toNat / 2 ^ 8 := by
    have := v.isLt
    omega
  simp only [wdCtl, hen, hlim]

theorem wdExpire_below (h : wdCount d < getF d F.WDOG_CTL.LIMIT) : wdExpire d = d := by
  unfold wdExpire
  exact if_neg (fun ⟨_, hl⟩ => absurd hl (Nat.not_le.2 h))

theorem ccCtl_run (h : (d.ccx[c]).run = false) : ccCtl d c 1 = { ccHold d c with
    ccx := d.ccx.set c { CoreX.reset with run := true }
    ag := d.ag.set (64 + c.val)
      { Engine.reset (64 + c.val) with npc := getF (ccHold d c) (F.CC_RESETVEC.ADDR c.val) / 8 } } := by
  have hs : ccCtl d c 1 = ccStart d c := rfl
  rw [hs]
  unfold ccStart
  rw [if_neg (fun hr => Bool.false_ne_true (h.symm.trans hr))]
  simp [ccHold]

theorem hostPush_taken {q : Req} {a : Nat} {w : TWord} (hc : queCreated d k = true) (ht : queTakes d k = true) :
    hostPush d q a k w = pushDiscard (quePush d k w) k := by
  simp [hostPush, onQueue, hc, ht]

theorem queCtl_flush (hv : v / 2 ^ 8 % 2 = 1) (h0 : queNo v ≠ 0) :
    queCtl d v = queFlush (setF d F.QUE_CTL.QUEUE v) (queNo v) := by
  unfold queCtl queFlushAll
  dsimp only
  rw [if_pos hv, if_neg h0]

theorem eventDelivery_waiting (h : sparseGet natZero d.evPend v ≠ 0) :
    eventDelivery d v = deliverEv { d with evPend := sparsePut natZero d.evPend v 0 } v (sparseGet natZero d.evPend v) :=
  if_neg h

theorem queArrive_waiting {w : List TWord} {ws : List (List TWord)} (h : (que d k).crossing = w :: ws) :
    queArrive d k = quePushItem (setQue d k { que d k with crossing := ws }) k w := by
  unfold queArrive
  dsimp only
  rw [h]

end

/-! ### Reads of QUE_PORT -/

theorem wideValue_QUE_PORT (d : Device) (k : Fin 256) : wideValue d (Adr.QUE_PORT k.val) = wide36 (queHead d k) := by
  unfold wideValue
  rw [if_neg (by unfold Adr.QUE_PORT Adr.SYS_UID; omega), if_neg (by unfold Adr.QUE_PORT; omega),
    if_neg (by unfold Adr.QUE_PORT; omega), if_pos (by unfold Adr.QUE_PORT; omega), queNo_QUE_PORT]

theorem wide36_low (w : TWord) : wide36 w % 2 ^ 32 = w.p.toNat := by
  have := w.p.isLt
  unfold wide36
  omega

theorem wide36_high (w : TWord) : wide36 w / 2 ^ 32 = w.t.code := by
  have := w.p.isLt
  unfold wide36
  omega

/-- A read of the low half of a W register but TIME_TOD leaves the high half in the read-holding register (R30), and
nothing else. -/
theorem peekReg_low (d : Device) (q : Req) {a : Nat} {r : RegRow} (hr : regRow a = some (r, false)) (hw : r.wide = true)
    (ht : a ≠ Adr.TIME_TOD) : (peekReg d q a).1 = { d with
      readHold := sparsePut wordZero d.readHold (holdKey q a) (BitVec.ofNat 32 (wideValue d a / 2 ^ 32)) } := by
  unfold peekReg
  rw [hr]
  simp [hw, ht]

/-- R393: a read of a queue's port takes its head, but for queue 0. -/
theorem readTakes_QUE_PORT (d : Device) (k : Fin 256) :
    readTakes d (Adr.QUE_PORT k.val) = if k = 0 then d else (quePop d k).1 := by
  unfold readTakes
  by_cases h : k = 0
  · rw [if_pos (by subst h; decide), if_pos h]
  · have hv : k.val ≠ 0 := fun hv => h (Fin.ext hv)
    rw [if_neg (by unfold Adr.QUE_PORT; omega), if_pos (by unfold Adr.QUE_PORT; omega), queNo_QUE_PORT, if_neg h]

/-- R393: the low half of QUE_PORT shows the payload of the head, keeps its tag for the high half, and takes the head. -/
theorem readReg_QUE_PORT (d : Device) (q : Req) (k : Fin 256) :
    readReg d q (Adr.QUE_PORT k.val) =
      (let r := { d with
         readHold := sparsePut wordZero d.readHold (holdKey q (Adr.QUE_PORT k.val)) (BitVec.ofNat 32 (queHead d k).t.code) }
       if k = 0 then r else (quePop r k).1, (queHead d k).p.toNat) := by
  obtain ⟨r, hr, hw⟩ := row_QUE_PORT k
  have ht : Adr.QUE_PORT k.val ≠ Adr.TIME_TOD := by unfold Adr.QUE_PORT Adr.TIME_TOD; omega
  rw [readReg_low d q hr hw, peekReg_low d q hr hw ht, wideValue_QUE_PORT, wide36_low, wide36_high, readTakes_QUE_PORT]

/-- Settles O55, a clause per row: the access or the event reaches its register's or its queue's own rule. -/
theorem eventAndQueueRowsComplete : Obligations.EventAndQueueRowsComplete := by
  unfold Obligations.EventAndQueueRowsComplete
  intro s q v c e k w ws
  refine ⟨fun h => ⟨fun hv => ?kick, fun hl => ?limit, ⟨fun hrun => ?run, ?reset⟩, ?swtrig, fun hp => ?route, ?ack,
    ?portRead, fun hc ht => ?portWrite, fun hc ht => ?push, fun hv h0 hc => ?flush⟩,
    fun h => ⟨fun hp => ?delivery, fun hx => ?crossing⟩⟩
  case kick =>
    subst hv
    exact evtWrite_completes rfl h (by decide) ⟨_, rfl, rfl⟩ (fun r => (evtApply_WDOG_KICK _ r _).trans wdKick_key)
  case limit =>
    exact evtWrite_completes rfl h (by decide) ⟨_, rfl, rfl⟩
      (fun r => (evtApply_WDOG_CTL _ r v).trans ((wdCtl_eq v).trans (wdExpire_below hl)))
  case run =>
    exact evtWrite_completes (v := 1) rfl h (block_CC_CTL c) (row_CC_CTL c)
      (fun r => (evtApply_CC_CTL _ r 1 c).trans (ccCtl_run hrun))
  case reset =>
    exact evtWrite_completes (v := 2) rfl h (block_CC_CTL c) (row_CC_CTL c) (fun r => evtApply_CC_CTL _ r 2 c)
  case swtrig => exact evtWrite_completes rfl h (by decide) ⟨_, rfl, rfl⟩ (fun r => evtApply_EVT_SWTRIG _ r v)
  case route =>
    exact evtWrite_completes rfl h (block_EVT_ROUTE e) (row_EVT_ROUTE e)
      (fun r => (evtApply_EVT_ROUTE _ r v e).trans (if_pos hp))
  case ack => exact evtWrite_completes rfl h (by decide) ⟨_, rfl, rfl⟩ (fun r => evtApply_EVT_MSIXACK _ r v)
  case portRead =>
    have h4 : Adr.QUE_PORT k.val % 4 = 0 := by unfold Adr.QUE_PORT; omega
    have hc := completes_access (c := .quePortRead q k) h rfl (busRead_reg (area_QUE (block_QUE_PORT k)) h4
      (present_QUE _ (block_QUE_PORT k)) (readReg_QUE_PORT _ q k))
    rwa [Nat.mod_eq_of_lt (BitVec.isLt _)] at hc
  case portWrite =>
    have hb := block_QUE_PORT_high k
    exact wordWrite_completes rfl h (area_QUE hb) (present_QUE _ hb)
      ((writeReg_QUE_PORT_high _ k).trans (hostPush_taken hc ht))
  case push =>
    exact queWrite_completes rfl h (block_QUE_PUSH k) (row_QUE_PUSH k)
      (fun r => (queApply_QUE_PUSH _ q r v k).trans (hostPush_taken hc ht))
  case flush =>
    have hf := queCtl_flush (d := found s.dev Adr.QUE_CTL) ((getLsbD_iff v 8).1 hv) h0
    exact queWrite_completes rfl h (by decide) ⟨_, rfl, rfl⟩
      (fun r => (queApply_QUE_CTL _ q r v).trans ((if_pos hc).trans hf))
  case delivery => exact comp_dev (f := fun d => eventDelivery d e.val) h (eventDelivery_waiting hp)
  case crossing => exact comp_dev (f := fun d => queArrive d k) h (queArrive_waiting hx)

end Sys2Proof.Machine
end

section
/-! PROOFS. The resets and the supplies (R53, R427, R449, R484, R514). -/

namespace Sys2Proof.Machine

section

variable (s : State)

/-- R53: RESET_N falls; only a device with VDD_AON is reset by it. -/
theorem resetNAssert_completes : completes .resetNAssert s
    (if s.dev.powered then { inReset s.dev .resetN with rstLow := true } else { s.dev with rstLow := true }) := rfl

/-- R449: RESET_N rises; only a device with VDD_AON starts a boot. -/
theorem resetNRise_completes (sel : Fin 4) : completes (.resetNRise sel) s
    (if s.dev.powered then { bootStart s.dev .resetN sel.val 0 with tampered := s.dev.rstLow && s.dev.tampered }
      else { s.dev with rstLow := false }) := rfl

/-- R514: whatever the device did, without VDD_AON it is in reset. -/
theorem vddAonRemoval_completes : completes .vddAonRemoval s
    { inReset s.dev .powerOn with powered := false, rstLow := s.dev.rstLow } := rfl

/-- The device as VDD_AON comes, with the level of RESET_N and what TAMPER_N does (R484, R514). -/
def poweredUp (d : Device) (low tampering : Bool) : Device :=
  let e := { inReset d .powerOn with powered := true, rstLow := low }
  if tampering then tamper e else e

/-- R514: VDD_AON comes; the boot starts at once unless RESET_N is low. -/
theorem vddAonPowerOn_completes (sel : Fin 4) (tampering : Bool) : completes (.vddAonPowerOn sel tampering) s
    (if s.dev.rstLow then poweredUp s.dev s.dev.rstLow tampering
      else { bootStart (poweredUp s.dev s.dev.rstLow tampering) .powerOn sel.val 0 with tampered := tampering }) := rfl

variable {s}

/-- R514: with RESET_N low the device stays in reset as VDD_AON comes. -/
theorem vddAonPowerOn_low (h : s.dev.rstLow = true) (sel : Fin 4) (tampering : Bool) :
    completes (.vddAonPowerOn sel tampering) s (poweredUp s.dev true tampering) := by
  simpa only [h, if_true] using vddAonPowerOn_completes s sel tampering

/-- R449: with RESET_N high a boot starts as VDD_AON comes. -/
theorem vddAonPowerOn_high (h : s.dev.rstLow = false) (sel : Fin 4) (tampering : Bool) :
    completes (.vddAonPowerOn sel tampering) s
      { bootStart (poweredUp s.dev false tampering) .powerOn sel.val 0 with tampered := tampering } := by
  simpa only [h, Bool.false_eq_true, if_false] using vddAonPowerOn_completes s sel tampering

/-- R427: the exit from OFF is a boot. -/
theorem offWakeBoot_completes (h : held s.dev = false) (he : s.dev.exiting = true) (hp : s.dev.pstate = .off)
    (sel : Fin 4) (a1 : Nat) : completes (.offWakeBoot sel a1) s (bootStart s.dev .offWake sel.val a1) :=
  comp_dev h (if_pos ⟨he, hp⟩)

end

/-- Settles O41, a clause per row: the pin RESET_N branches on VDD_AON, and VDD_AON on the level of RESET_N. -/
theorem resetRowsComplete : Obligations.ResetRowsComplete := by
  unfold Obligations.ResetRowsComplete
  intro s sel a1
  refine ⟨fun h => ⟨?fall, ?rise⟩, fun h => ⟨?fallUnpowered, ?riseUnpowered⟩, vddAonRemoval_completes s,
    fun h => vddAonPowerOn_high h sel, fun h => vddAonPowerOn_low h sel false,
    fun h he hp => offWakeBoot_completes h he hp sel a1⟩
  case fall => simpa only [h, if_true] using resetNAssert_completes s
  case rise => simpa only [h, if_true] using resetNRise_completes s sel
  case fallUnpowered => simpa only [h, Bool.false_eq_true, if_false] using resetNAssert_completes s
  case riseUnpowered => simpa only [h, Bool.false_eq_true, if_false] using resetNRise_completes s sel

end Sys2Proof.Machine
end

section
/-! PROOFS. Queues: the words an operation on a queue leaves in it and in every other one (R389, R392, R393, R396, R397, R402). -/

namespace Sys2Proof.Machine

/-! ### The queues after each operation -/

theorem que_setQue_same (d : Device) (q : Fin 256) (x : Queue) : que (setQue d q x) q = x := by
  simp [que, setQue]

theorem que_setQue_other (d : Device) {p q : Fin 256} (x : Queue) (h : p ≠ q) : que (setQue d q x) p = que d p := by
  simp [que, setQue, Fin.val_inj, h.symm]

/-- What leaves the memories of the units leaves the queues. -/
theorem que_of_mem {d e : Device} (h : e.toDevMem = d.toDevMem) (p : Fin 256) : que e p = que d p :=
  congrArg (fun m : DevMem => m.que[p]) h

theorem queEvent_mem (d : Device) (q : Fin 256) (en : Fld) (b : Bool) : (queEvent d q en b).toDevMem = d.toDevMem := by
  unfold queEvent
  split
  · exact raiseEv_mem d _
  · rfl

@[simp] theorem que_queEvent (d : Device) (q : Fin 256) (en : Fld) (b : Bool) (p : Fin 256) :
    que (queEvent d q en b) p = que d p := que_of_mem (queEvent_mem d q en b) p

theorem que_queOverflow (d : Device) (q p : Fin 256) : que (queOverflow d q) p = que d p :=
  que_of_mem ((queEvent_mem _ _ _ _).trans (incF_mem _ _ _)) p

theorem que_queUnder (d : Device) (q p : Fin 256) : que (queUnder d q) p = que d p :=
  que_of_mem ((queEvent_mem _ _ _ _).trans (incF_mem _ _ _)) p

/-- R400: an access settles the watermark state of its queue, and nothing else of the queues. -/
theorem que_queSettle (d : Device) (q : Fin 256) (n : Nat) (p : Fin 256) : que (queSettle d q n) p =
    if p = q then { que d q with wm := wmAfter d q (que d q).wm (que d q).words.length } else que d p := by
  unfold queSettle
  simp only [que_queEvent]
  split
  · next h => rw [h, que_setQue_same]
  · next h => rw [que_setQue_other _ _ h]

theorem words_queSettle (d : Device) (q : Fin 256) (n : Nat) : (que (queSettle d q n) q).words = (que d q).words := by
  rw [que_queSettle, if_pos rfl]

theorem que_queSettle_other (d : Device) {p q : Fin 256} (n : Nat) (h : p ≠ q) : que (queSettle d q n) p = que d p := by
  rw [que_queSettle, if_neg h]

theorem words_queAppend (d : Device) (q : Fin 256) (ws : List TWord) :
    (que (queAppend d q ws) q).words = (que d q).words ++ ws.map cellOf := by
  unfold queAppend
  dsimp only
  rw [words_queSettle, que_setQue_same]

theorem que_queAppend_other (d : Device) {p q : Fin 256} (ws : List TWord) (h : p ≠ q) :
    que (queAppend d q ws) p = que d p := by
  unfold queAppend
  dsimp only
  rw [que_queSettle_other _ _ h, que_setQue_other _ _ h]
  rfl

section
variable {d : Device} {q : Fin 256}

/-- R389, R399: the head is read and leaves its queue; the words behind it stay in their order. -/
theorem queTake_cons {c : Cell} {cs : List Cell} (h : (que d q).words = c :: cs) :
    (queTake d q).2 = cellRead c ∧ (que (queTake d q).1 q).words = cs := by
  unfold queTake
  dsimp only
  rw [h]
  refine ⟨rfl, ?_⟩
  dsimp only
  rw [words_queSettle]
  split
  · rw [que_queEvent, que_of_mem (incF_mem _ _ _), que_setQue_same]
  · rw [que_setQue_same]

theorem que_queTake_other {p : Fin 256} (h : p ≠ q) : que (queTake d q).1 p = que d p := by
  unfold queTake
  dsimp only
  split
  · rfl
  · dsimp only
    rw [que_queSettle_other _ _ h]
    split
    · rw [que_queEvent, que_of_mem (incF_mem _ _ _), que_setQue_other _ _ h]
    · rw [que_setQue_other _ _ h]

/-! ### Pushes -/

theorem quePush_closed (h : queTakes d q = false) (w : TWord) : quePush d q w = d := by simp [quePush, h]

theorem quePushItem_closed (h : queTakes d q = false) (ws : List TWord) : quePushItem d q ws = d := by simp [quePushItem, h]

theorem quePush_room (h : queTakes d q = true) (hs : (que d q).pushSkip = 0) (hr : (que d q).words.length < queCap d q)
    (w : TWord) : quePush d q w = queAppend d q [w] := by
  simp [quePush, h, hs, Nat.not_le.2 hr]

theorem quePush_full (h : queTakes d q = true) (hs : (que d q).pushSkip = 0) (hf : queCap d q ≤ (que d q).words.length)
    (w : TWord) : quePush d q w = queOverflow d q := by
  simp [quePush, h, hs, hf]

theorem quePushItem_room (h : queTakes d q = true) {ws : List TWord} (hr : (que d q).words.length + ws.length ≤ queCap d q) :
    quePushItem d q ws = queAppend d q ws := by
  simp [quePushItem, h, Nat.not_lt.2 hr]

theorem quePushItem_full (h : queTakes d q = true) {ws : List TWord} (hf : queCap d q < (que d q).words.length + ws.length) :
    quePushItem d q ws = queOverflow d q := by
  simp [quePushItem, h, hf]

theorem que_quePush_other {p : Fin 256} (h : p ≠ q) (w : TWord) : que (quePush d q w) p = que d p := by
  unfold quePush
  dsimp only
  split
  · split
    · exact que_setQue_other d _ h
    · split
      · exact que_queOverflow d q p
      · exact que_queAppend_other d _ h
  · rfl

/-! ### Pops -/

theorem quePop_closed (h : queTakes d q = false) : quePop d q = (d, ⟨0, .invalid⟩) := by simp [quePop, h, TWord.zero]

theorem quePop_empty (h : queTakes d q = true) (hs : (que d q).popSkip = 0) (he : (que d q).words = []) :
    quePop d q = (queUnder d q, ⟨0, .invalid⟩) := by
  simp [quePop, h, hs, he, TWord.zero]

theorem quePop_cons (h : queTakes d q = true) (hs : (que d q).popSkip = 0) {c : Cell} {cs : List Cell}
    (hw : (que d q).words = c :: cs) : quePop d q = queTake d q := by
  simp [quePop, h, hs, hw]

theorem que_quePop_other {p : Fin 256} (h : p ≠ q) : que (quePop d q).1 p = que d p := by
  unfold quePop
  dsimp only
  split
  · split
    · rw [que_queUnder, que_setQue_other _ _ h]
    · split
      · exact que_queUnder d q p
      · exact que_queTake_other h
  · rfl

end

/-- Settles O59: a queue that takes words appends, takes its head, or counts; every other queue keeps its record. -/
theorem queuesAreFirstInFirstOut : Obligations.QueuesAreFirstInFirstOut := by
  unfold Obligations.QueuesAreFirstInFirstOut
  intro d q w ws c cs
  refine ⟨fun ht => ⟨fun hs hr => ?push, fun hs hf => ?overflow, fun hr => ?item, quePushItem_full ht, quePop_empty ht,
    fun hs hw => ?pop, fun p hp => ⟨que_quePush_other hp w, que_quePop_other hp⟩⟩,
    fun hc => ⟨quePush_closed hc w, quePushItem_closed hc ws, quePop_closed hc⟩⟩
  case push => rw [quePush_room ht hs hr, words_queAppend, List.map_singleton]
  case overflow => rw [quePush_full ht hs hf]; exact ⟨rfl, que_queOverflow d q q⟩
  case item => rw [quePushItem_room ht hr, words_queAppend]
  case pop => rw [quePop_cons ht hs hw]; exact queTake_cons hw

end Sys2Proof.Machine
end

section
/-! PROOFS. Register writes of the loader, the clocks, the time reference, the links and the fabric (R19, R74, R90, R305, R306,
R313, R315, R316, R327, R341, R350, R361). -/

namespace Sys2Proof.Machine

/-- A bit of a bit vector is a digit of its value. -/
theorem getLsbD_eq_digit {w : Nat} (v : BitVec w) (i : Nat) : v.getLsbD i = decide (v.toNat / 2 ^ i % 2 = 1) := by
  rw [BitVec.getLsbD, Nat.testBit_eq_decide_div_mod_eq]

/-! ### Writes that take effect at once -/

section
variable {c : Instr} {s : State} {q : Req} {v : Word} {a : Nat} {e : Device}

/-- A command that writes one 32-bit register without a handshake completes with what the register's rule leaves. -/
theorem plainReg_completes (hx : exec c s = onAccess s (.write q a 4 v.toNat)) (h : mayReach s.dev = true)
    (ha : areaOf a = .regs) (hs : subAbsent s.dev a = false) (hr : ∃ r, regRow a = some (r, false) ∧ r.wide = false)
    (hm : mediaReg a = false) (hn : aonReg a = false) (he : ∀ r, applyReg (found s.dev a) q a r v = e) :
    completes c s (written e q a) := by
  obtain ⟨r, hr, hw⟩ := hr
  exact wordWrite_completes hx h ha hs ((writeReg_plain hr hw hm hn).trans (he r))

end

/-! ### Writes that wait for their handshake -/

section
variable {d : Device} {q : Req} {a : Nat} {r : RegRow}

/-- A request to write a 32-bit register of a MEDIA domain waits for its handshake (R19). -/
theorem busWrite_media (v : Word) (ha : areaOf a = .regs) (hs : subAbsent d a = false) (hr : regRow a = some (r, false))
    (hw : r.wide = false) (hm : mediaReg a = true) (hd : namesNoDomain (found d a) a v.toNat = false) :
    busWrite d q a 4 v.toNat = written (awaitWrite (found d a) q a a v.toNat) q a := by
  rw [busWrite_word v ha hs]
  unfold writeReg
  rw [hr]
  simp [hw, hd, hm]

/-- The low half that HSPI writes first waits in the holding register (R32, R487). -/
theorem writeHold_foundPair_hspi (v : Nat) (ha : areaOf a = .regs) (hs : subAbsent d a = false)
    (hr : regRow a = some (r, false)) (hw : r.wide = true) :
    sparseGet wordZero (foundPair d .hspi a v).writeHold (holdKey .hspi a) = BitVec.ofNat 32 v := by
  unfold foundPair
  dsimp only
  rw [found_writeHold, busWrite_eq, written_writeHold, busPut_reg ha ((subAbsent_variant (found_variant d a) a).trans hs),
    writeReg_low _ _ _ hr hw]
  dsimp only
  rw [sparseGet_put, if_pos rfl]

theorem variant_foundPair (v : Nat) (ha : areaOf a = .regs) (hs : subAbsent d a = false)
    (hr : regRow a = some (r, false)) (hw : r.wide = true) : (foundPair d q a v).variant = d.variant := by
  cases q with
  | hspi =>
    unfold foundPair
    dsimp only
    rw [found_variant, busWrite_eq, busPut_reg ha ((subAbsent_variant (found_variant d a) a).trans hs), writeReg_low _ _ _ hr hw]
    exact (kept_written kept_variant _ _ _).trans (found_variant d a)
  | loader | pcie | cc => exact found_variant d a

/-- A request to write both halves of a W register of a MEDIA domain waits for its handshake (R19, R32, R487). -/
theorem pairWrite_media {v : Nat} (ha : areaOf a = .regs) (ha4 : areaOf (a + 4) = .regs) (hs : subAbsent d a = false)
    (hs4 : subAbsent d (a + 4) = false) (hr : regRow a = some (r, false)) (hr4 : regRow (a + 4) = some (r, true))
    (hw : r.wide = true) (hm : mediaReg a = true) (hv : v < 2 ^ 64) :
    pairWrite d q a v = written (awaitWrite (foundPair d q a v) q a (lastAt q a) v) q (lastAt q a) := by
  cases q with
  | hspi =>
    have hvar := variant_foundPair (q := .hspi) v ha hs hr hw
    have hhold := writeHold_foundPair_hspi v ha hs hr hw
    have hval : (BitVec.ofNat 32 (v / 2 ^ 32)).toNat * 2 ^ 32 + (BitVec.ofNat 32 v).toNat = v := by
      simp only [BitVec.toNat_ofNat]
      omega
    have hpair : pairWrite d .hspi a v =
        written (busPut (foundPair d .hspi a v) .hspi (a + 4) 4 (v / 2 ^ 32) .sample) .hspi (a + 4) := rfl
    rw [hpair, busPut_reg ha4 ((subAbsent_variant hvar _).trans hs4)]
    unfold writeReg
    rw [hr4]
    simp only [hw, hm, Nat.add_sub_cancel, hhold, hval, if_true, true_or]
    rfl
  | loader | pcie | cc =>
    unfold pairWrite foundPair lastAt
    dsimp only
    rw [busWrite_eq, busPut_wide ha ((subAbsent_variant (found_variant d a) a).trans hs) hr hw]
    unfold writeWide
    rw [hr]
    simp [hm]

end

/-- The handshake of a write just requested completes with what the write does in the MEDIA domain (R19). -/
theorem mediaDone_awaited {d : Device} {q : Req} {a b addr v : Nat} (hm : mediaReg a = true) :
    mediaDone (written (awaitWrite d q a addr v) q b) a =
      mediaApply (crossed (written (awaitWrite d q a addr v) q b) a) a ⟨BitVec.ofNat 64 v, addr, q⟩ := by
  refine mediaDone_waiting hm ?_
  rw [written_handshake]
  unfold awaitWrite
  dsimp only
  rw [sparseGet_put, if_pos rfl]

section
variable {c : Instr} {s : State} {q : Req} {a : Nat} {e : Device}

/-- A command that writes a 32-bit register of a MEDIA domain, its handshake included, completes with what the write does. -/
theorem mediaWrite_completes {v : Word} (hx : exec c s = onAccess s (.mediaWrite q a v.toNat)) (h : mayReach s.dev = true)
    (ha : areaOf a = .regs) (hs : subAbsent s.dev a = false) (hr : ∃ r, regRow a = some (r, false) ∧ r.wide = false)
    (hm : mediaReg a = true) (hd : namesNoDomain (found s.dev a) a v.toNat = false)
    (he : mediaApply (crossed (written (awaitWrite (found s.dev a) q a a v.toNat) q a) a) a ⟨BitVec.ofNat 64 v.toNat, a, q⟩ = e) :
    completes c s e := by
  obtain ⟨r, hr, hw⟩ := hr
  refine completes_access h hx ?_
  unfold carryOut
  dsimp only
  rw [busWrite_media v ha hs hr hw hm hd, mediaDone_awaited hm, he]

/-- A command that writes both halves of a W register of a MEDIA domain, its handshake included, completes with what the write
does. -/
theorem mediaPair_completes {v : BitVec 64} (hx : exec c s = onAccess s (.mediaPair q a v.toNat)) (h : mayReach s.dev = true)
    (ha : areaOf a = .regs) (ha4 : areaOf (a + 4) = .regs) (hs : subAbsent s.dev a = false) (hs4 : subAbsent s.dev (a + 4) = false)
    (hr : ∃ r, regRow a = some (r, false) ∧ regRow (a + 4) = some (r, true) ∧ r.wide = true) (hm : mediaReg a = true)
    (he : mediaApply (crossed (written (awaitWrite (foundPair s.dev q a v.toNat) q a (lastAt q a) v.toNat) q (lastAt q a)) a) a
      ⟨v, lastAt q a, q⟩ = e) : completes c s e := by
  obtain ⟨r, hr, hr4, hw⟩ := hr
  refine completes_access h hx ?_
  unfold carryOut
  dsimp only
  rw [pairWrite_media ha ha4 hs hs4 hr hr4 hw hm v.isLt, mediaDone_awaited hm, BitVec.ofNat_toNat, BitVec.setWidth_eq, he]

/-- A command that writes both halves of a W register without a handshake completes with what the register's rule leaves. -/
theorem pair_completes {v : BitVec 64} (hx : exec c s = onAccess s (.pair q a v.toNat)) (h : mayReach s.dev = true)
    (ha : areaOf a = .regs) (ha4 : areaOf (a + 4) = .regs) (hs : subAbsent s.dev a = false) (hs4 : subAbsent s.dev (a + 4) = false)
    (hr : ∃ r, regRow a = some (r, false) ∧ regRow (a + 4) = some (r, true) ∧ r.wide = true) (hm : mediaReg a = false)
    (hn : aonReg a = false)
    (he : ∀ r, applyWide (foundPair s.dev q a v.toNat) q a (lastAt q a) r v.toNat = e) :
    completes c s (written e q (lastAt q a)) := by
  obtain ⟨r, hr, hr4, hw⟩ := hr
  refine completes_access h hx ?_
  unfold carryOut
  dsimp only
  rw [pairWrite_reg ha ha4 hs hs4 hr hr4 hw hm hn v.isLt, he]

end

/-! ### The registers' rows and blocks -/

theorem row_CLK_MTGT : ∀ m : Fin 4, regRow (Adr.CLK_MTGT m.val) = some (rowsCLK[2], false) := by decide

theorem row_CLK_MCTL : ∀ m : Fin 4, regRow (Adr.CLK_MCTL m.val) = some (rowsCLK[1], false) := by decide

theorem row_CLK_HO : ∀ k : Fin 4, regRow (Adr.CLK_HO k.val) = some (rowsCLK[3], false) := by decide

theorem row_CLK_HO_high : ∀ k : Fin 4, regRow (Adr.CLK_HO k.val + 4) = some (rowsCLK[3], true) := by decide

theorem media_CLK_MTGT : ∀ m : Fin 4, mediaReg (Adr.CLK_MTGT m.val) = false := by decide

theorem media_CLK_MCTL : ∀ m : Fin 4, mediaReg (Adr.CLK_MCTL m.val) = false := by decide

theorem media_CLK_HO : ∀ k : Fin 4, mediaReg (Adr.CLK_HO k.val) = true := by decide

theorem row_LINK_CTL : ∀ n : Fin 8, regRow (Adr.LINK_CTL n.val) = some (rowsLINK[0], false) := by decide

theorem row_LINK_MAPDATA : ∀ n : Fin 8, regRow (Adr.LINK_MAPDATA n.val) = some (rowsLINK[7], false) := by decide

section
variable {a : Nat}

theorem present_BOOT (d : Device) (hb : a / 0x10000 = 0x1C01) : subAbsent d a = false := by
  simp only [subAbsent, hb]

theorem present_CLK (d : Device) (hb : a / 0x10000 = 0x1C02) : subAbsent d a = false := by
  simp only [subAbsent, hb]

theorem present_TIME (d : Device) (hb : a / 0x10000 = 0x1C0C) : subAbsent d a = false := by
  simp only [subAbsent, hb]

/-- The registers of the fabric have no part in a link's presence. -/
theorem present_FAB (d : Device) (hb : a / 0x10000 = 0x1C0B) (ho : 0x800 ≤ a % 0x10000) : subAbsent d a = false := by
  simp only [subAbsent, hb, Nat.not_lt.2 ho, decide_false, Bool.false_and]

/-- The registers of a link that the part has are present (R43). -/
theorem present_LINK {d : Device} {n : Nat} (hb : a / 0x10000 = 0x1C0B) (hn : a % 0x10000 / 0x100 = n) (hc : n < linkCount d) :
    subAbsent d a = false := by
  simp [subAbsent, hb, hn, hc]

end

theorem linkCount_found (d : Device) (a : Nat) : linkCount (found d a) = linkCount d := by
  unfold linkCount
  rw [found_variant]

/-! ### The loader's control register (R74, R90) -/

section
variable {d : Device} {q : Req} {v : Word}

/-- LDR_CTL with its fields SRC and Q0EN written. -/
def ldrFields (d : Device) (v : Word) : Device :=
  setB (setB d F.LDR_CTL.SRC (v.getLsbD 2)) F.LDR_CTL.Q0EN (v.getLsbD 8)

theorem ldrCtl_eq (d : Device) (q : Req) (v : Word) : ldrCtl d q v.toNat =
    (let e := if v.getLsbD 1 = true then ldrAbort (ldrFields d v) else ldrFields d v
     if v.getLsbD 0 = true then ldrGo e q else e) := by
  simp only [ldrCtl, ldrFields, getLsbD_eq_digit, decide_eq_true_eq]
  simp only [Nat.reducePow, Nat.div_one]

theorem applyReg_LDR_CTL (d : Device) (q : Req) (r : RegRow) (v : Word) :
    applyReg d q Adr.LDR_CTL r v = ldrCtl d q v.toNat := rfl

/-- R90: GO begins a commanded load that lies in one memory, while nothing else loads. -/
theorem ldrGo_begins {lim : Nat} (hb : getB d F.LDR_STAT.BUSY = false) (hp : getF d F.BOOT_STAT.PHASE ≠ 1) (hl : d.live = none)
    (hm : loadLimit (getB d F.LDR_CTL.SRC) (getF d F.LDR_SRC.ADDR / 4 * 4) = some lim)
    (hn : getF d F.LDR_SRC.ADDR / 4 * 4 + 4 * getF d F.LDR_LEN.WORDS ≤ lim) :
    ldrGo d q = setF (setB (setPath { d with cmdLeft := some (getF d F.LDR_LEN.WORDS), cmdAbort := false } 1 LdrPath.reset)
      F.LDR_STAT.BUSY true) F.LDR_POS.WORDS 0 := by
  unfold ldrGo
  simp [hb, hp, hl, hm, Nat.not_lt.2 hn]

/-- R74: ABORT asks for the end of a commanded load at a record boundary. -/
theorem ldrAbort_asks (hc : d.cmdLeft.isSome = true) (hl : d.live = none) :
    ldrAbort d = atBoundary { d with cmdAbort := true } 1 := by
  simp [ldrAbort, hc, hl]

end

/-! ### PLLs and handovers (R305, R306) -/

section
variable {d : Device} {q : Req}

theorem applyReg_CLK_MCTL (d : Device) (q : Req) (r : RegRow) (v : Word) (m : Fin 4) :
    applyReg d q (Adr.CLK_MCTL m.val) r v = mctlWrite d m.val v.toNat := by
  have hb : Adr.CLK_MCTL m.val / 0x10000 = 0x1C02 := by unfold Adr.CLK_MCTL; omega
  have hi : (Adr.CLK_MCTL m.val - 0x1C020020) / 4 = m.val := by unfold Adr.CLK_MCTL; omega
  simp only [applyReg, hb, hi]
  rw [if_pos (by unfold Adr.CLK_MCTL; omega)]

theorem applyReg_CLK_MTGT (d : Device) (q : Req) (r : RegRow) (v : Word) (m : Fin 4) :
    applyReg d q (Adr.CLK_MTGT m.val) r v = mtgtWrite d q m.val v.toNat := by
  have hb : Adr.CLK_MTGT m.val / 0x10000 = 0x1C02 := by unfold Adr.CLK_MTGT; omega
  have hi : (Adr.CLK_MTGT m.val - 0x1C020030) / 4 = m.val := by unfold Adr.CLK_MTGT; omega
  simp only [applyReg, hb, hi]
  rw [if_neg (by unfold Adr.CLK_MTGT; omega), if_pos (by unfold Adr.CLK_MTGT; omega)]

/-- R305: an idle PLL takes a target in its range, and relocks if it is enabled. -/
theorem mtgtWrite_idle {m v : Nat} (hi : pllIdle d m = true) (hv : v = 0 ∨ (2000000000 ≤ v ∧ v ≤ 4000000000)) :
    mtgtWrite d q m v = if getB d (F.CLK_MCTL.EN m) = true then pllStart (setF d (F.CLK_MTGT.FHZ m) v) (2 + m)
      else setF d (F.CLK_MTGT.FHZ m) v := by
  have hen : getB (setF d (F.CLK_MTGT.FHZ m) v) (F.CLK_MCTL.EN m) = getB d (F.CLK_MCTL.EN m) := by
    unfold getB
    rw [getF_setF_apart d _ _ v (by simp [F.CLK_MCTL.EN]) (Or.inl (by simp [fldWords, F.CLK_MCTL.EN, F.CLK_MTGT.FHZ]))]
  unfold mtgtWrite
  rw [if_neg (by simp [hi]), if_neg (by omega)]
  simp only [hen]

/-- R305: EN starts a PLL that does not run, and stops an idle one. -/
theorem mctlWrite_taken {m : Nat} {v : Word} (h : v.getLsbD 0 = true ∨ pllIdle d m = true) :
    mctlWrite d m v.toNat =
      (let e := setB d (F.CLK_MCTL.EN m) (v.getLsbD 0)
       if v.getLsbD 0 = true then (if pllRuns d (2 + m) = true then e else pllStart e (2 + m)) else pllMute e (2 + m)) := by
  have hen : decide (v.toNat % 2 = 1) = v.getLsbD 0 := by rw [getLsbD_eq_digit, Nat.pow_zero, Nat.div_one]
  unfold mctlWrite
  dsimp only
  rw [hen]
  cases hv : v.getLsbD 0 with
  | false => simp [h.resolve_left (ne_true_of_eq_false hv)]
  | true => cases pllRuns d (2 + m) <;> rfl

theorem mediaApply_CLK_HO (d : Device) (k : Fin 4) (p : PendWr) :
    mediaApply d (Adr.CLK_HO k.val) p = hoWrite d p.req p.addr k p.v.toNat := by
  have hk : dom ((Adr.CLK_HO k.val - 0x1C020040) / 8) = k := by
    apply Fin.ext
    simp only [dom, Adr.CLK_HO]
    omega
  have hne : ∀ b, 0x1C030000 ≤ b → Adr.CLK_HO k.val ≠ b := by unfold Adr.CLK_HO; omega
  unfold mediaApply
  simp only [hk, hne Adr.TIME_CTL (by decide), hne Adr.TIME_FREQ (by decide), hne Adr.TIME_STEP (by decide),
    hne Adr.TIME_LOCKPAR (by decide), if_false]
  rw [if_pos (by unfold Adr.CLK_HO; omega)]

/-- R306: a handover whose fields fit and that its domain bears is armed by GO. -/
theorem hoWrite_arms {addr : Nat} {k : Fin 4} {y : BitVec 64} (hg : y.getLsbD 63 = true) (hc : domConfigured d k = true)
    (hf : hoFields d k (hoAsk y.toNat) = true) (hn : d.ho[k] = none) (hb : hoBears d k (hoAsk y.toNat) = true) :
    hoWrite d q addr k y.toNat =
      hoArmed (setReg64 d (Adr.CLK_HO k.val) (Nat.land y.toNat 0x4007FFFFFFFFFF03)) k (hoAsk y.toNat) := by
  have hgo : y.toNat / 2 ^ 63 % 2 = 1 := of_decide_eq_true ((getLsbD_eq_digit y 63).symm.trans hg)
  unfold hoWrite
  dsimp only
  rw [if_neg (by omega), if_neg (by simp [hc]), if_neg (by simp [hf]), if_neg (by simp [hn]), if_neg (by simp [hb])]

end

/-! ### The time reference (R313, R315, R316) -/

section
variable {d : Device}

/-- A 32-bit value carried across a handshake. -/
theorem toNat_carried (v : Word) : (BitVec.ofNat 64 v.toNat).toNat = v.toNat := by
  have := v.isLt
  simp only [BitVec.toNat_ofNat]
  omega

theorem mediaApply_TIME_CTL (d : Device) (p : PendWr) : mediaApply d Adr.TIME_CTL p = timeCtl d p.v.toNat := by
  unfold mediaApply
  rw [if_pos rfl]

theorem mediaApply_TIME_FREQ (d : Device) (p : PendWr) : mediaApply d Adr.TIME_FREQ p = timeFreq d p.v.toNat := by
  unfold mediaApply
  rw [if_neg (by decide), if_pos rfl]

theorem mediaApply_TIME_STEP (d : Device) (p : PendWr) : mediaApply d Adr.TIME_STEP p = stepTime d p.v.toInt := by
  unfold mediaApply
  rw [if_neg (by decide), if_neg (by decide), if_pos rfl]

/-- R313: a reference is selected where the code names one that the servo can follow and TFOLLOW leaves the choice. -/
theorem timeCtl_selects {v : Nat} {f : Device}
    (hf : setF (setF (setF d F.TIME_CTL.WDOM (v / 16 % 4)) F.TIME_CTL.KP (v / 2 ^ 8 % 32)) F.TIME_CTL.KI (v / 2 ^ 16 % 32) = f)
    (h5 : v % 8 < 5) (hp : v % 8 = 0 ∨ pullPpm f ≠ 0) (ht : getB f (F.S_FAB.NODE.TFOLLOW 0xFF) = false) :
    timeCtl d v = setRefsel f (v % 8) := by
  unfold timeCtl
  dsimp only
  rw [hf, if_neg]
  rintro (h | ⟨h0, h⟩ | h)
  · omega
  · exact hp.elim h0 (fun hp => hp h)
  · simp [ht] at h

/-- R316: with the servo off, the frequency offset is what was written, within the pull range. -/
theorem timeFreq_off (v : Word) (h : getF d F.TIME_STAT.STATE = 0) :
    timeFreq d v.toNat = setEps d (clampTo (pullU d) v.toInt) := by
  unfold timeFreq
  rw [if_pos h, BitVec.ofNat_toNat, BitVec.setWidth_eq]

/-- A TIME_FREQ write names no rate domain (R24). -/
theorem namesNoDomain_TIME_FREQ (d : Device) (v : Nat) : namesNoDomain d Adr.TIME_FREQ v = false := by
  simp [namesNoDomain, Adr.TIME_FREQ, Adr.TIME_CTL]

end

/-! ### Links and the fabric (R327, R341, R350, R361) -/

section
variable {d : Device} {q : Req} {r : RegRow} {v : Word}

theorem block_LINK_CTL (n : Fin 8) : Adr.LINK_CTL n.val / 0x10000 = 0x1C0B := by
  unfold Adr.LINK_CTL
  omega

theorem block_LINK_MAPDATA (n : Fin 8) : Adr.LINK_MAPDATA n.val / 0x10000 = 0x1C0B := by
  unfold Adr.LINK_MAPDATA
  omega

theorem lkNo_val (n : Fin 8) : lkNo n.val = n := Fin.ext (Nat.mod_eq_of_lt n.isLt)

theorem applyReg_LINK_CTL (n : Fin 8) (hv : v.getLsbD 0 = true) :
    applyReg d q (Adr.LINK_CTL n.val) r v = linkRetrain d n := by
  have ho : Adr.LINK_CTL n.val % 0x10000 = 0x100 * n.val := by unfold Adr.LINK_CTL; omega
  have hn : 0x100 * n.val / 0x100 = n.val := by omega
  simp only [applyReg, block_LINK_CTL, linkApply, ho, hn, lkNo_val, hv, if_true]
  rw [if_pos (by omega)]

theorem applyReg_LINK_MAPDATA (n : Fin 8) : applyReg d q (Adr.LINK_MAPDATA n.val) r v = mapWrite d n v.toNat := by
  have ho : Adr.LINK_MAPDATA n.val % 0x10000 = 0x24 + 0x100 * n.val := by unfold Adr.LINK_MAPDATA; omega
  have hn : (0x24 + 0x100 * n.val) / 0x100 = n.val := by omega
  simp only [applyReg, block_LINK_MAPDATA, linkApply, ho, hn, lkNo_val]
  rw [if_neg (by omega), if_pos (by omega)]

theorem linkRetrain_started {n : Fin 8} (h : linkState d n ≠ 0) : linkRetrain d n = linkStart d n := if_neg h

/-- R341: an entry of a transmit map takes its source channel and its kind, where the kind is defined. -/
theorem mapWrite_transmit {n : Fin 8} {v : Nat} (hm : getF d (F.LINK_MAPIDX.MAP n.val) ≠ 1) (hk : v / 2 ^ 18 % 4 ≠ 3) :
    mapWrite d n v = mapAdvance (mapPut d n (mapKey d n) (v % 2 ^ 16 + v / 2 ^ 18 % 4 * 2 ^ 18)) n := by
  unfold mapWrite
  dsimp only
  rw [if_neg hm, if_neg hk]

theorem applyReg_FAB_CTL (hv : v.getLsbD 0 = true) : applyReg d q Adr.FAB_CTL r v = join d :=
  show (if v.getLsbD 0 = true then fabRejoin d else d) = join d from if_pos hv

theorem applyWide_FAB_RUNCMD (addr x : Nat) : applyWide d q Adr.FAB_RUNCMD addr r x = runCommand d q addr x := rfl

/-- R361: SETUP of a run whose channels and number are free. -/
theorem runCommand_setup {addr x : Nat} (hop : bitsOf x 56 2 = 1) (h0 : 0 < bitsOf x 46 9) (hc : bitsOf x 46 9 ≤ 256)
    (hown : bitsOf x 8 10 ≠ ownAddr d) (hdst : bitsOf x 8 10 < 0x3FE) (ho : bitsOf x 18 14 + bitsOf x 46 9 ≤ 16384)
    (hd : bitsOf x 32 14 + bitsOf x 46 9 ≤ 16384) (hr : runHolds (ownRun d (bitsOf x 0 8)) = false) (ha : ownAddr d ≠ 0x3FF)
    (hb : chanBusy d (bitsOf x 0 8) (bitsOf x 18 14) (bitsOf x 46 9) = false) :
    runCommand d q addr x =
      fabRefresh (runStart d (bitsOf x 0 8) (bitsOf x 8 10) (bitsOf x 18 14) (bitsOf x 32 14) (bitsOf x 46 9)) := by
  unfold runCommand
  simp only [hop]
  rw [if_neg (by omega), if_neg (by omega), if_neg (by simp [hr]), if_neg (by simp [ha, hb])]

/-- R361: TEARDOWN of a run that holds slots. -/
theorem runCommand_teardown {addr x : Nat} (hop : bitsOf x 56 2 = 2) (hr : runHolds (ownRun d (bitsOf x 0 8)) = true) :
    runCommand d q addr x = fabRefresh (putRun (releaseOwn (sendTear d (bitsOf x 0 8) 0) (ownRun d (bitsOf x 0 8)))
      (bitsOf x 0 8) { ownRun d (bitsOf x 0 8) with st := 0, reason := 0, hops := 0 }) := by
  unfold runCommand
  simp only [hop]
  rw [if_pos hr]

end

/-! ### The commands -/

section
variable {s : State} {q : Req} {c : Instr} {e : Device}

theorem ldrCtl_completes {v : Word} (hx : exec c s = onAccess s (.write q Adr.LDR_CTL 4 v.toNat)) (h : mayReach s.dev = true)
    (he : ldrCtl (found s.dev Adr.LDR_CTL) q v.toNat = e) : completes c s (written e q Adr.LDR_CTL) :=
  plainReg_completes hx h (regs_addr (by decide) (by decide)) (present_BOOT _ (by decide)) ⟨_, rfl, rfl⟩ rfl rfl
    (fun r => (applyReg_LDR_CTL _ q r v).trans he)

theorem runCommand_completes {y : BitVec 64} (hx : exec c s = onAccess s (.pair q Adr.FAB_RUNCMD y.toNat))
    (h : mayReach s.dev = true)
    (he : runCommand (foundPair s.dev q Adr.FAB_RUNCMD y.toNat) q (lastAt q Adr.FAB_RUNCMD) y.toNat = e) :
    completes c s (written e q (lastAt q Adr.FAB_RUNCMD)) :=
  pair_completes hx h (regs_addr (by decide) (by decide)) (regs_addr (by decide) (by decide))
    (present_FAB _ (by decide) (by decide)) (present_FAB _ (by decide) (by decide)) ⟨_, rfl, rfl, rfl⟩ rfl rfl
    (fun r => (applyWide_FAB_RUNCMD (r := r) _ _).trans he)

end

/-- Settles O54, a clause per command: the access, with its handshake where the register has one, reaches the register's own
rule, whose accepting case the hypotheses name. -/
theorem loadClockAndLinkRegistersComplete : Obligations.LoadClockAndLinkRegistersComplete := by
  unfold Obligations.LoadClockAndLinkRegistersComplete
  intro s q v y m k n lim h
  refine ⟨⟨fun hgo hno hb hp hl hm hn => ?go, fun hab hno hc hl => ?abort⟩, fun hi hv => ?mtgt, fun hv => ?mctl,
    fun hgo hc hf hn hb => ?handover, ?step, fun hd h5 hp ht => ?timeCtl, fun hst => ?freq, fun hv hn hst => ?retrain,
    fun hn hm hk => ?map, fun hv => ?rejoin,
    ⟨fun hop h0 hc hown hdst ho hd hr ha hb => ?setup, fun hop hr => ?teardown⟩⟩
  case go =>
    refine ldrCtl_completes rfl h ((ldrCtl_eq _ q v).trans ?_)
    simp only [hgo, hno, if_true, Bool.false_eq_true, if_false]
    exact ldrGo_begins hb hp hl hm hn
  case abort =>
    refine ldrCtl_completes rfl h ((ldrCtl_eq _ q v).trans ?_)
    simp only [hab, hno, if_true, Bool.false_eq_true, if_false]
    exact ldrAbort_asks hc hl
  case mtgt =>
    have hb : Adr.CLK_MTGT m.val / 0x10000 = 0x1C02 := by unfold Adr.CLK_MTGT; omega
    exact plainReg_completes rfl h (regs_addr (by omega) (by omega)) (present_CLK _ hb) ⟨_, row_CLK_MTGT m, rfl⟩
      (media_CLK_MTGT m) (aonReg_block (by omega) (by omega))
      (fun r => (applyReg_CLK_MTGT _ q r v m).trans (mtgtWrite_idle hi hv))
  case mctl =>
    have hb : Adr.CLK_MCTL m.val / 0x10000 = 0x1C02 := by unfold Adr.CLK_MCTL; omega
    exact plainReg_completes rfl h (regs_addr (by omega) (by omega)) (present_CLK _ hb) ⟨_, row_CLK_MCTL m, rfl⟩
      (media_CLK_MCTL m) (aonReg_block (by omega) (by omega))
      (fun r => (applyReg_CLK_MCTL _ q r v m).trans (mctlWrite_taken hv))
  case handover =>
    have hblk : Adr.CLK_HO k.val / 0x10000 = 0x1C02 := by unfold Adr.CLK_HO; omega
    have hblk4 : (Adr.CLK_HO k.val + 4) / 0x10000 = 0x1C02 := by unfold Adr.CLK_HO; omega
    exact mediaPair_completes rfl h (regs_addr (by omega) (by omega)) (regs_addr (by omega) (by omega)) (present_CLK _ hblk)
      (present_CLK _ hblk4) ⟨_, row_CLK_HO k, row_CLK_HO_high k, rfl⟩ (media_CLK_HO k)
      ((mediaApply_CLK_HO _ k _).trans (hoWrite_arms hgo hc hf hn hb))
  case step =>
    exact mediaPair_completes rfl h (regs_addr (by decide) (by decide)) (regs_addr (by decide) (by decide))
      (present_TIME _ (by decide)) (present_TIME _ (by decide)) ⟨_, rfl, rfl, rfl⟩ rfl (mediaApply_TIME_STEP _ _)
  case timeCtl =>
    refine mediaWrite_completes rfl h (regs_addr (by decide) (by decide)) (present_TIME _ (by decide)) ⟨_, rfl, rfl⟩ rfl hd ?_
    rw [mediaApply_TIME_CTL, toNat_carried]
    exact timeCtl_selects rfl h5 hp ht
  case freq =>
    refine mediaWrite_completes rfl h (regs_addr (by decide) (by decide)) (present_TIME _ (by decide)) ⟨_, rfl, rfl⟩ rfl
      (namesNoDomain_TIME_FREQ _ _) ?_
    rw [mediaApply_TIME_FREQ, toNat_carried]
    exact timeFreq_off v hst
  case retrain =>
    have hb := block_LINK_CTL n
    have ho : Adr.LINK_CTL n.val % 0x10000 / 0x100 = n.val := by unfold Adr.LINK_CTL; omega
    rw [linkCount_found] at hn
    exact plainReg_completes rfl h (regs_addr (by omega) (by omega)) (present_LINK hb ho hn) ⟨_, row_LINK_CTL n, rfl⟩
      (mediaReg_block (by omega) (by omega)) (aonReg_block (by omega) (by omega))
      (fun r => (applyReg_LINK_CTL n hv).trans (linkRetrain_started hst))
  case map =>
    have hb := block_LINK_MAPDATA n
    have ho : Adr.LINK_MAPDATA n.val % 0x10000 / 0x100 = n.val := by unfold Adr.LINK_MAPDATA; omega
    rw [linkCount_found] at hn
    exact plainReg_completes rfl h (regs_addr (by omega) (by omega)) (present_LINK hb ho hn) ⟨_, row_LINK_MAPDATA n, rfl⟩
      (mediaReg_block (by omega) (by omega)) (aonReg_block (by omega) (by omega))
      (fun r => (applyReg_LINK_MAPDATA n).trans (mapWrite_transmit hm hk))
  case rejoin =>
    exact plainReg_completes rfl h (regs_addr (by decide) (by decide)) (present_FAB _ (by decide) (by decide)) ⟨_, rfl, rfl⟩
      rfl rfl (fun r => applyReg_FAB_CTL hv)
  case setup => exact runCommand_completes rfl h (runCommand_setup hop h0 hc hown hdst ho hd hr ha hb)
  case teardown => exact runCommand_completes rfl h (runCommand_teardown hop hr)

end Sys2Proof.Machine
end

section
/-! PROOFS. Structure records that come whole, and the ends of quiesces, commanded loads and gaps on queue 0 (R58 to R92). -/

namespace Sys2Proof.Machine

/-! ### The load paths after each operation -/

/-- What leaves the loader leaves its paths. -/
theorem path_of_ldr {d e : Device} (h : e.ldr = d.ldr) (p : Fin 3) : path e p = path d p := by
  unfold path
  rw [h]

theorem path_setPath_same (d : Device) (p : Fin 3) (x : LdrPath) : path (setPath d p x) p = x := by
  simp [path, setPath]

theorem path_setB (d : Device) (f : Fld) (b : Bool) (p : Fin 3) : path (setB d f b) p = path d p :=
  path_of_ldr (congrArg DevLdr.ldr (setB_ldr d f b)) p

theorem path_setF (d : Device) (f : Fld) (v : Nat) (p : Fin 3) : path (setF d f v) p = path d p :=
  path_of_ldr (congrArg DevLdr.ldr (setF_ldr d f v)) p

theorem queEvent_ldr (d : Device) (q : Fin 256) (en : Fld) (b : Bool) : (queEvent d q en b).toDevLdr = d.toDevLdr := by
  unfold queEvent
  split
  · exact raiseEv_ldr d _
  · rfl

theorem queSettle_ldr (d : Device) (q : Fin 256) (n : Nat) : (queSettle d q n).toDevLdr = d.toDevLdr := by
  unfold queSettle
  simp only [queEvent_ldr]
  rfl

theorem queUnder_ldr (d : Device) (q : Fin 256) : (queUnder d q).toDevLdr = d.toDevLdr :=
  (queEvent_ldr _ _ _ _).trans (incF_ldr _ _ _)

theorem queTake_ldr (d : Device) (q : Fin 256) : (queTake d q).1.toDevLdr = d.toDevLdr := by
  unfold queTake
  dsimp only
  split
  · rfl
  · dsimp only
    rw [queSettle_ldr]
    split
    · exact (queEvent_ldr _ _ _ _).trans (incF_ldr _ _ _)
    · rfl

theorem quePop_ldr (d : Device) (q : Fin 256) : (quePop d q).1.toDevLdr = d.toDevLdr := by
  unfold quePop
  dsimp only
  split
  · split
    · exact queUnder_ldr _ q
    · split
      · exact queUnder_ldr d q
      · exact queTake_ldr d q
  · rfl

theorem quePops_ldr (d : Device) (q : Fin 256) (n : Nat) : (quePops d q n).1.toDevLdr = d.toDevLdr := by
  induction n generalizing d with
  | zero => rfl
  | succ n ih => exact (ih _).trans (quePop_ldr d q)

/-- Opening a batch on a path changes, of the path, the batch-open bit. -/
theorem path_batchBit (d : Device) (p : Fin 3) (b : Bool) : path (batchBit d p b) p = { path d p with batch := b } := by
  unfold batchBit
  dsimp only
  split
  · rw [path_setB, path_setPath_same]
  · split
    · rw [path_setB, path_setPath_same]
    · rw [path_setPath_same]

/-- Words consumed leave the judgement of the record in progress. -/
theorem judged_consume (d : Device) (p : Fin 3) (n : Nat) : (path (consume d p n) p).judged = (path d p).judged := by
  have hfeed : (path (setPath d p { path d p with feed := (path d p).feed.drop n }) p).judged = (path d p).judged := by
    rw [path_setPath_same]
  unfold consume
  dsimp only
  split
  · rw [path_of_ldr (congrArg DevLdr.ldr (quePops_ldr d 0 n))]
  · split
    · rw [path_setF]
      exact hfeed
    · exact hfeed

/-- Words gathered leave the judgement of the record in progress. -/
theorem judged_gather (d : Device) (p : Fin 3) (n : Nat) : (path (gather d p n).1 p).judged = (path d p).judged := by
  unfold gather
  dsimp only
  rw [path_setPath_same]
  exact judged_consume d p _

/-! ### A record that begins and comes whole -/

/-- A path with the words its source supplies, as a record row finds it. -/
def supplied (d : Device) (p : Fin 3) (ws : List Word) : Device := if p = 1 then supplyFlash d ws else d

section
variable {d : Device} {p : Fin 3} {ws : List Word} {t : Nat}

theorem recordFed_eq (d : Device) (p : Fin 3) (ws : List Word) : recordFed d p ws =
    if (path (supplied d p ws) p).batch then supplied d p ws else batchBit (supplied d p ws) p true := rfl

/-- A record that begins has not been judged when its header has been taken. -/
theorem judged_headerTaken (h : recordBegins d p ws t) : (path (headerTaken d p ws) p).judged = none := by
  obtain ⟨-, -, -, -, hj, -⟩ := h
  unfold headerTaken
  rw [judged_gather, recordFed_eq]
  split
  · exact hj
  · rw [path_batchBit]
    exact hj

theorem type_headerAt (h : recordBegins d p ws t) : (headerAt d p ws).type = t := by
  obtain ⟨-, -, -, -, -, -, -, -, ht, -⟩ := h
  exact ht

/-- R58: once its header has been taken, a record goes on by its type. -/
theorem recordBody_begun (h : recordBegins d p ws t) : recordBody (supplied d p ws) p =
    if streams (headerAt d p ws) = true then streamStep (headerTaken d p ws) p (headerAt d p ws)
    else heldStep (headerTaken d p ws) p (headerAt d p ws) := by
  obtain ⟨-, -, -, -, -, hfour, hgood, hthree, -, hrest⟩ := h
  have hbody : recordBody (supplied d p ws) p =
      if (path (recordFed d p ws) p).got = [] ∧ (remaining (recordFed d p ws) p).any (fun n => decide (n < 4)) then
        abortRecord (recordFed d p ws) p Rej.lenOver
      else if (gather (recordFed d p ws) p 3).2 then abortRecord (headerTaken d p ws) p Rej.stream
      else if (path (headerTaken d p ws) p).got.length < 3 then (headerTaken d p ws, .wait)
      else if (remaining (headerTaken d p ws) p).any
          (fun n => decide (n + (path (headerTaken d p ws) p).got.length < (headerAt d p ws).len + 4)) then
        abortRecord (headerTaken d p ws) p Rej.lenOver
      else if streams (headerAt d p ws) then streamStep (headerTaken d p ws) p (headerAt d p ws)
      else heldStep (headerTaken d p ws) p (headerAt d p ws) := rfl
  rw [hbody, hfour, hgood, hthree, hrest]
  simp

/-- R90: a record that begins and is finished with closes its turn of the path. -/
theorem recordRow_done (h : recordBegins d p ws t) {want : Nat → Bool} (hw : want t = true) {f : Device}
    (hf : recordBody (supplied d p ws) p = (f, .done)) :
    recordRow d p ws want = atBoundary { f with lastPath := some p } p := by
  obtain ⟨hserved, hsync, hnext, -⟩ := h
  have hrow : recordRow d p ws want = (recordStep (supplied d p ws) p want).1 := rfl
  have hin : ¬ (p = 2 ∧ ¬ getB (supplied d p ws) F.LDR_STAT.Q0SYNC = true) := fun ⟨hp, hn⟩ => hn (hsync hp)
  have hnext : nextType (supplied d p ws) p = some t := hnext
  rw [hrow]
  unfold recordStep
  rw [if_neg (fun hn => hn hserved), if_neg hin, hnext]
  dsimp only
  rw [if_pos hw, hf, if_neg (by simp)]

end

/-! ### WRITE, FILL, COMMIT and END records (R65) -/

section
variable {d : Device} {p : Fin 3} {h : Header}

/-- A record held until its CRC holds is then checked and carried out. -/
theorem heldStep_whole (hw : recordWhole (gather d p (h.len + 4)) p h) :
    heldStep d p h = heldEnd (gather d p (h.len + 4)).1 p h := by
  obtain ⟨hgood, hlen, hcrc⟩ := hw
  unfold heldStep
  dsimp only
  rw [if_neg (ne_true_of_eq_false hgood), if_neg (by omega), if_neg (not_not_intro hcrc)]

/-- The payload of the record in progress, as numbers. -/
def payNats (d : Device) (p : Fin 3) (h : Header) : List Nat := (payloadIn (path d p) h).map (·.toNat)

/-- R60, R61: a WRITE or FILL that passes is applied, where its region need not be quiesced. -/
theorem heldEnd_write (ht : h.type = 1 ∨ h.type = 2) (hc : heldCode d p h (payNats d p h) = none)
    (hq : (rgn d h.r).st ≠ .quiescing) (hr : ¬ ((rgn d h.r).st = .running ∧ h.q = true)) :
    heldEnd d p h = (closeRecord (applyWrite d p h (payNats d p h)) p, .done) := by
  unfold payNats at hc ⊢
  unfold heldEnd
  dsimp only
  rw [hc]
  dsimp only
  rw [if_neg (by omega), if_neg (by omega), if_neg hq, if_neg hr]

/-- R72: a COMMIT that passes is accepted. -/
theorem heldEnd_commit (ht : h.type = 5) (hc : heldCode d p h (payNats d p h) = none) :
    heldEnd d p h = (closeRecord (acceptCommit (countApplied d h.r) (dom ((payNats d p h).getD 0 0))
      (commitOf d p (payNats d p h))) p, .done) := by
  unfold payNats at hc ⊢
  unfold heldEnd
  dsimp only
  rw [hc]
  dsimp only
  rw [if_neg (by omega), if_pos ht]

/-- R74: an END whose CRC is the batch's passes the batch. -/
theorem heldEnd_end (ht : h.type = 6) (hc : heldCode d p h (payNats d p h) = none)
    (hx : (payNats d p h).getD 0 0 = (~~~ (path d p).crc).toNat) :
    heldEnd d p h = (batchPass (countApplied d h.r) p, .done) := by
  unfold payNats at hc hx
  unfold heldEnd
  dsimp only
  rw [hc]
  dsimp only
  rw [if_pos ht, if_pos hx]

end

/-- A record of these types that begins and comes whole completes its row with what it does when its CRC holds. -/
theorem recordRow_held {d f : Device} {p : Fin 3} {ws : List Word} {t : Nat} {want : Nat → Bool} (h : recordBegins d p ws t)
    (ht : t ≠ 3 ∧ t ≠ 4) (hw : want t = true)
    (hr : recordWhole (gather (headerTaken d p ws) p ((headerAt d p ws).len + 4)) p (headerAt d p ws))
    (he : heldEnd (gather (headerTaken d p ws) p ((headerAt d p ws).len + 4)).1 p (headerAt d p ws) = (f, .done)) :
    recordRow d p ws want = atBoundary { f with lastPath := some p } p := by
  have hs : streams (headerAt d p ws) = false := by
    unfold streams
    rw [type_headerAt h, decide_eq_false_iff_not, not_or]
    exact ht
  refine recordRow_done h hw ((recordBody_begun h).trans ?_)
  rw [if_neg (ne_true_of_eq_false hs), heldStep_whole hr, he]

/-- A command that is a record row completes with what the row leaves. -/
theorem recordRow_completes {c : Instr} {s : State} {p : Fin 3} {ws : List Word} {want : Nat → Bool} {e : Device}
    (hx : exec c s = onDev s (fun d => recordRow d p ws want)) (h : held s.dev = false)
    (he : recordRow s.dev p ws want = e) : completes c s e :=
  hx.trans (comp_dev h he)

/-! ### TABLE and PROGRAM records (R64, R88) -/

/-- A path whose record in progress has a header that passes. -/
def headPassed (d : Device) (p : Fin 3) : Device := setPath d p { path d p with judged := some 0 }

/-- A payload that has come whole written into its target; a shadow bank that is written is noted with its batch (R64). -/
def streamed (d : Device) (p : Fin 3) (h : Header) : Device :=
  let w := putTables d h h.off (payloadIn (path d p) h)
  if (headTarget d h).any (·.shadow) = true ∧ ¬ (path d p).shadows.contains (h.r, markKey h) = true then
    setPath w p { path w p with shadows := (h.r, markKey h) :: (path d p).shadows }
  else w

section
variable {d : Device} {p : Fin 3} {h : Header}

/-- R88: a header that passes, of a region that need not be quiesced, lets the payload be written. -/
theorem streamStep_passes (hj : (path d p).judged = none) (hc : firstFailed (headChecks d h h.len) = none)
    (hq : (rgn d h.r).st ≠ .quiescing) (hr : ¬ ((rgn d h.r).st = .running ∧ h.q = true)) :
    streamStep d p h = streamWords (headPassed d p) p h := by
  unfold streamStep
  rw [hj]
  dsimp only
  rw [hc]
  dsimp only
  rw [if_neg hq, if_neg hr]
  rfl

/-- Right after the header, no word of the payload has come. -/
theorem payloadIn_header {x : LdrPath} (hx : x.got.length = 3) : payloadIn x h = [] := by
  unfold payloadIn
  rw [List.drop_eq_nil_of_le (by omega), List.take_nil]

/-- R64: the payload that comes whole behind a passing header is written, and the record is then judged by its CRC. -/
theorem streamWords_whole {f : Device} (hj : (path d p).judged = some 0) (hg : (path d p).got.length = 3)
    (hf : gather d p (h.len + 4) = (f, false)) (hn : payloadIn (path f p) h ≠ [])
    (hlen : (path (streamed f p h) p).got.length = h.len + 4) :
    streamWords d p h = streamEnd (streamed f p h) p h := by
  have hjf : (path f p).judged = some 0 := by
    have := judged_gather d p (h.len + 4)
    rwa [hf, hj] at this
  have hnew : (path f p).judged = some 0 ∧ payloadIn (path f p) h ≠ [] := ⟨hjf, hn⟩
  have hwords : streamWords d p h =
      if (path (streamed f p h) p).got.length = h.len + 4 then streamEnd (streamed f p h) p h
      else (streamed f p h, .wait) := by
    unfold streamWords
    rw [payloadIn_header hg, hf]
    dsimp only [List.length_nil]
    rw [if_neg Bool.false_ne_true, List.drop_zero, if_pos hnew]
    rfl
  rw [hwords, if_pos hlen]

/-- R64, R80: a written record whose CRC holds and whose words its target allows is applied. -/
theorem streamEnd_applies (hj : (path d p).judged = some 0)
    (hcrc : crcOf ((path d p).got.take (h.len + 3)) = (path d p).got.getD (h.len + 3) 0) (hp : payloadOk d h h.len = true) :
    streamEnd d p h = (closeRecord (streamApplied d p h) p, .done) := by
  unfold streamEnd
  rw [if_neg (not_not_intro hcrc), hj]
  exact if_pos hp

end

/-- A TABLE or PROGRAM record that begins with a passing header and comes whole completes its row with its words applied. -/
theorem recordRow_streamed {d f : Device} {p : Fin 3} {ws : List Word} {t : Nat} {want : Nat → Bool} {h : Header}
    (hb : recordBegins d p ws t) (ht : t = 3 ∨ t = 4) (hw : want t = true) (hh : headerAt d p ws = h)
    (hc : firstFailed (headChecks (headerTaken d p ws) h h.len) = none)
    (hq : (rgn (headerTaken d p ws) h.r).st ≠ .quiescing)
    (hr : ¬ ((rgn (headerTaken d p ws) h.r).st = .running ∧ h.q = true))
    (hf : (gather (headPassed (headerTaken d p ws) p) p (h.len + 4)).1 = f)
    (hwhole : recordWhole (gather (headPassed (headerTaken d p ws) p) p (h.len + 4)) p h)
    (hn : payloadIn (path f p) h ≠ [])
    (hkept : path (streamed f p h) p = { path f p with shadows := (path (streamed f p h) p).shadows })
    (hp : payloadOk (streamed f p h) h h.len = true) :
    recordRow d p ws want = atBoundary { closeRecord (streamApplied (streamed f p h) p h) p with lastPath := some p } p := by
  have hs : streams (headerAt d p ws) = true := by
    unfold streams
    rw [type_headerAt hb]
    exact decide_eq_true ht
  have hthree : (path (headPassed (headerTaken d p ws) p) p).got.length = 3 := by
    obtain ⟨-, -, -, -, -, -, -, hthree, -⟩ := hb
    unfold headPassed
    rw [path_setPath_same]
    exact hthree
  have hj : (path (headPassed (headerTaken d p ws) p) p).judged = some 0 := by
    unfold headPassed
    rw [path_setPath_same]
  have hjf : (path f p).judged = some 0 := by rw [← hf, judged_gather, hj]
  obtain ⟨hgood, hlen, hcrc⟩ := hwhole
  rw [hf] at hlen hcrc
  refine recordRow_done hb hw ((recordBody_begun hb).trans ?_)
  rw [if_pos hs, hh, streamStep_passes (judged_headerTaken hb) hc hq hr,
    streamWords_whole hj hthree (Prod.ext hf hgood) hn (by rw [hkept]; exact hlen),
    streamEnd_applies (by rw [hkept]; exact hjf) (by rw [hkept]; exact hcrc) hp]

/-! ### The ends of quiesces, commanded loads and gaps -/

section
variable {d : Device}

theorem regionQuiesced_faded {r : Nat} (hq : (rgn d r).st = .quiescing) (hf : stillFading d r = false) :
    regionQuiesced d r = stopRegion d r := if_pos ⟨hq, ne_true_of_eq_false hf⟩

/-- A commanded load whose source is used up, no longer busy (R75). -/
def loadClosed (d : Device) : Device := setB { d with cmdLeft := none } F.LDR_STAT.BUSY false

theorem path_loadClosed (d : Device) (p : Fin 3) : path (loadClosed d) p = path d p := path_setB _ _ _ p

/-- R75: the words a load has taken stay counted when it closes. -/
theorem words_loadClosed (d : Device) : getF (loadClosed d) F.LDR_POS.WORDS = getF d F.LDR_POS.WORDS :=
  getF_setF_apart _ _ _ _ (by decide) (Or.inl (by decide))

/-- R75, R92: at a record boundary a load whose source is used up ends by its last batch. -/
theorem loadEnd_used (hc : d.cmdLeft = some 0) (hg : (path d 1).got = []) (hl : d.live = none) : loadEnd d =
    if (path d 1).batch = true ∨ getF d F.LDR_POS.WORDS = 0 then batchFail (recReject (loadClosed d) 1 Rej.imageCrc 0xFF 0) 1
    else if (path d 1).passed = true then raiseCtrl (loadClosed d) 0x18A else loadClosed d := by
  rw [← path_loadClosed, ← words_loadClosed]
  exact if_pos ⟨hc, hg, by rw [hl]; rfl⟩

/-- R87: a record on queue 0 that stays short is aborted; before its header is whole, no quiesce stalls it. -/
theorem gapTimeout_short (hg : (path d 2).got ≠ []) (hlen : (path d 2).got.length < 3) (hu : getF d F.LDR_Q0TIMEOUT.US ≠ 0)
    (ht : getF d F.LDR_Q0TIMEOUT.US * 1000 < d.q0Ns) : gapTimeout d = (abortRecord d 2 Rej.stream).1 := by
  unfold gapTimeout
  simp [hg, hu, ht, Nat.not_le.2 hlen]

/-- R466: a gap means nothing to a host push that is not under way. -/
theorem pushGap_booted (h : getF d F.BOOT_STAT.PHASE ≠ 1) : pushGap d = d := if_neg (fun hp => h hp.1)

end

/-- Settles O39. A record's row is its body, which its type sends through `recordRow_held` or `recordRow_streamed`; the Q bit
of a COMMIT or an END is ignored (log 83), so those clauses ask nothing of their carrier region. -/
theorem recordsAndLoadEndsComplete : Obligations.RecordsAndLoadEndsComplete := by
  unfold Obligations.RecordsAndLoadEndsComplete
  refine ⟨fun s p ws hheld => ?records, fun s r hheld =>
    ⟨fun hq hf => ?quiesced, fun hc hg hl hb hp hw => ?passed, fun hc hg hl hb => ?failed, fun hg hlen hu ht hph hph' => ?gap⟩⟩
  case records =>
    intro h g e ps k f shadow w0 w
    refine ⟨fun t ht hb hwhole hc hq hr => ?applied, fun hb hwhole hc => ?commit, fun hb hwhole hc hx => ?last,
      fun t ht hb hc hq hr hwhole hn hkept hp => ?streamed⟩
    case applied =>
      have ht' : t = 1 ∨ t = 2 := by simpa using ht
      have he := heldEnd_write (d := e) (p := p) (by rwa [type_headerAt hb]) hc hq hr
      rcases ht' with rfl | rfl
      · exact recordRow_completes rfl hheld (recordRow_held hb (by decide) rfl hwhole he)
      · exact recordRow_completes rfl hheld (recordRow_held hb (by decide) rfl hwhole he)
    case commit =>
      exact recordRow_completes rfl hheld (recordRow_held hb (by decide) rfl hwhole (heldEnd_commit (type_headerAt hb) hc))
    case last =>
      exact recordRow_completes rfl hheld (recordRow_held hb (by decide) rfl hwhole (heldEnd_end (type_headerAt hb) hc hx))
    case streamed =>
      have ht' : t = 3 ∨ t = 4 := by simpa using ht
      rcases ht' with rfl | rfl
      · exact recordRow_completes rfl hheld (recordRow_streamed hb (.inl rfl) rfl rfl hc hq hr rfl hwhole hn hkept hp)
      · exact recordRow_completes rfl hheld (recordRow_streamed hb (.inr rfl) rfl rfl hc hq hr rfl hwhole hn hkept hp)
  case quiesced => exact comp_dev (f := fun d => regionQuiesced d r.toNat) hheld (regionQuiesced_faded hq hf)
  case passed =>
    refine comp_dev (f := loadEnd) hheld ((loadEnd_used hc hg hl).trans ?_)
    rw [if_neg (by simp [hb, hw]), if_pos hp]
    rfl
  case failed => exact comp_dev (f := loadEnd) hheld ((loadEnd_used hc hg hl).trans (if_pos hb))
  case gap =>
    refine comp_dev (f := fun d => pushGap (gapTimeout d)) hheld ?_
    rw [gapTimeout_short hg hlen hu ht, pushGap_booted hph']

end Sys2Proof.Machine
end

section
/-! PROOFS. Words that move and compute: a word in a form that is defined issues and has its operation's effect (R105, R116,
R127 to R130, R133, R136, R137, R144, R145). -/

namespace Sys2Proof.Machine

/-! ### Forms that are defined -/

section
variable {i : Issue} {gd ga : GReg} {b : Src}

theorem long_slot (h : i.long = true) : i.slot = .long := of_decide_eq_true h

theorem decide_long (h : i.slot = .long) : decide (i.slot = .long) = true := decide_eq_true h

/-- A form of two G registers is defined as a long word, or with D registers (R120). -/
theorem shortOk_pair (h : (i.long || (gd.isD && ga.isD)) = true) : shortOk i [gd, ga] = true := by
  simpa [shortOk, long_eq, isD_eq] using h

/-- A form of two G registers and a second operand is defined as a long word, or with D registers (R120). -/
theorem shortOk_src (h : (i.long || (gd.isD && ga.isD && b.isD)) = true) :
    (shortOk i [gd, ga] && (decide (i.slot = .long) || srcIsD b)) = true := by
  simp only [shortOk, long_eq, isD_eq, srcIsD_eq, List.all_cons, List.all_nil, Bool.and_true, Bool.or_eq_true,
    Bool.and_eq_true, decide_eq_true_eq] at h ⊢
  tauto

/-- MOVI is defined as a long word, or with a D register and a sign-extended 16-bit integer (R120, R144). -/
theorem moviOk {k : Kind} {v : Word} (h : (Instr.movi i gd k v).wf = true) :
    (decide (i.slot = .long) || (isD gd && decide (k = .int) && decide ((v.extractLsb' 0 16).signExtend 32 = v))) = true := by
  rw [← isD_eq]
  exact h

/-- A selector that a MOVC may name selects a control register, which is none of a core's own on an engine (R105, R371). -/
theorem controlReg_defined (d : Device) (n : Fin 68) {c : Fin 16} (h : c.val < if isCc n then 12 else 9) :
    (controlReg d n c).isSome = true := by
  unfold controlReg
  cases hn : isCc n <;> simp only [hn, Bool.false_eq_true, if_true, if_false] at h ⊢ <;>
    interval_cases c.val <;> rfl

theorem movc_selects {c : Fin 16} (h : (Instr.movcRead i gd c).wf = true) :
    i.slot = .long ∧ c.val < if isCc i.who then 12 else 9 := by
  simp only [Instr.wf, Bool.and_eq_true, decide_eq_true_eq, engine_eq] at h
  obtain ⟨hl, hc⟩ := h
  refine ⟨long_slot hl, ?_⟩
  cases hn : isCc i.who <;> simpa [hn] using hc

end

/-- A word whose form does not depend on the device completes with its operation's effect. -/
theorem form_completes {c : Instr} {s : State} {i : Issue} {ok rep : Bool} {f g : Device → Device}
    (h : mayIssue s.dev i rep = true) (hok : ok = true) (hx : exec c s = onDev s (fun d => withWord i ok rep d f))
    (hfg : f (issued s.dev i) = g (issued s.dev i)) : completes c s (wordEffect s.dev i g) :=
  word_completes (ok := fun _ => ok) h hok hx hfg

/-! ### Moves -/

/-- A MOVC of a selector that a word may name completes (R105). -/
theorem movc_completes {e : Instr} {s : State} {i : Issue} {gd : GReg} {c : Fin 16} {f g : Device → Device}
    (h : mayIssue s.dev i true = true) (hw : (Instr.movcRead i gd c).wf = true)
    (hx : exec e s = onDev s (fun d =>
      withWord i (decide (i.slot = .long) && (controlReg d i.who c).isSome) true d f))
    (hfg : f (issued s.dev i) = g (issued s.dev i)) : completes e s (wordEffect s.dev i g) := by
  obtain ⟨hl, hc⟩ := movc_selects hw
  refine word_completes (ok := fun d => decide (i.slot = .long) && (controlReg d i.who c).isSome) h ?_ hx hfg
  rw [decide_long hl, controlReg_defined s.dev i.who hc]
  rfl

/-- Settles O1, a clause per word: the form is defined, and the operation's effect is the one stated. -/
theorem movesComplete : Obligations.MovesComplete := by
  unfold Obligations.MovesComplete
  intro s i gd ga gb k v imm c h
  refine ⟨form_completes h rfl rfl rfl, fun hw => form_completes h (shortOk_pair hw) rfl rfl,
    fun hw => form_completes h (moviOk hw) rfl rfl, fun hl => ?tags, fun hw => ?control⟩
  case tags =>
    have ok := decide_long hl
    exact ⟨form_completes h ok rfl rfl, form_completes h ok rfl rfl, form_completes h ok rfl rfl⟩
  case control =>
    obtain ⟨x, hx⟩ := Option.isSome_iff_exists.1 (controlReg_defined (issued s.dev i) i.who (movc_selects hw).2)
    exact ⟨⟨x, hx, movc_completes h hw rfl (by rw [hx]; rfl)⟩, movc_completes h hw rfl rfl⟩

/-! ### Arithmetic -/

theorem abs_eq_ite (x : Int) : |x| = if 0 ≤ x then x else -x := by
  split
  · next h => exact abs_of_nonneg h
  · next h => exact abs_of_neg (by omega)

/-- A comparison of integers as the 0 or 1 that a comparison word gives. -/
theorem exact_decide (p : Prop) [Decidable p] : exact (if decide p = true then 1 else 0) = exact (if p then 1 else 0) := by
  simp only [decide_eq_true_eq]

theorem int_signExtend (v : BitVec 16) : (v.signExtend 32).toInt = v.toInt :=
  BitVec.toInt_signExtend_of_le (by decide)

/-- Settles O2, a clause per word: the operation's exact result is the one stated. -/
theorem arithmeticAndComparisonsComplete : Obligations.ArithmeticAndComparisonsComplete := by
  unfold Obligations.ArithmeticAndComparisonsComplete
  intro s i sat gd ga b dd da imm h
  refine ⟨fun hw => form_completes h (shortOk_src hw) rfl rfl, fun hw => form_completes h (shortOk_src hw) rfl rfl,
    fun hw => form_completes h (shortOk_pair hw) rfl rfl, fun hw => form_completes h (shortOk_pair hw) rfl ?abs,
    fun hw => form_completes h (shortOk_src hw) rfl ?min, fun hw => form_completes h (shortOk_src hw) rfl ?max,
    fun hs => form_completes h (decide_eq_true hs) rfl ?addi,
    fun hw => form_completes h (shortOk_src hw) rfl ?lt, fun hw => form_completes h hw rfl ?le,
    fun hw => form_completes h (shortOk_src hw) rfl ?eq⟩
  case abs => simp only [abs_eq_ite]; rfl
  case min => simp only [min_def]; rfl
  case max => simp only [max_comm (operand _ _ _), max_def]; rfl
  case addi => simp only [← int_signExtend]; rfl
  case lt => simp only [exact_decide]; rfl
  case le => simp only [exact_decide]; rfl
  case eq => simp only [exact_decide]; rfl

/-! ### Accumulators -/

/-- Settles O5, a clause per word: each is long, and QADD and QSUB, or QSHL and QSHRA, differ by their result alone. -/
theorem accumulatorWordsComplete : Obligations.AccumulatorWordsComplete := by
  unfold Obligations.AccumulatorWordsComplete
  intro s i sat gd ga qd qa qb k h hl
  have ok := decide_long hl
  refine ⟨form_completes h ok rfl rfl, form_completes h ok rfl rfl, form_completes h ok rfl rfl, fun minus => ?sum,
    fun right => ?shift⟩
  case sum => cases minus <;> exact form_completes h ok rfl rfl
  case shift => cases right <;> exact form_completes h ok rfl rfl

end Sys2Proof.Machine
end

section
/-! PROOFS. The record of a processor: an update of it, the issue of a word (R123, R152, R154, R175), results and landings
(R104, R124, R128, R130, R146), and faults (R117, R118, R125, R375). -/

namespace Sys2Proof.Machine

/-! ### Updates of the record -/

@[simp] theorem setAg_setAg (d : Device) (n : Fin 68) (e f : Engine) : setAg (setAg d n e) n f = setAg d n f := by
  simp [setAg]

/-- Settles O11: the write of the register, of the status bits and of the failure are one update of the record. -/
theorem resultIsWritten : Obligations.ResultIsWritten := by
  unfold Obligations.ResultIsWritten
  intro d n g r t
  simp [putResult, tagFault, orStat, wrReg, supersede]

/-! ### Landings -/

/-- A command whose meaning is a function of the device completes with that function's value. -/
theorem device_completes {c : Instr} {s : State} {f : Device → Device} {d : Device} (h : held s.dev = false)
    (hx : exec c s = onDev s f) (hf : f s.dev = d) : completes c s d := hx.trans (comp_dev h hf)

/-- Loads that land change no part of a record but the working registers. -/
theorem foldl_land (ls : List PendLoad) (e : Engine) :
    ls.foldl land e = { e with w := ls.foldl (fun w l => writeG e.chk w l.reg l.val) e.w } := by
  induction ls generalizing e with
  | nil => rfl
  | cons l ls ih => rw [List.foldl_cons, ih]; rfl

/-- The working registers once every load due has landed. -/
def landedWork (e : Engine) : Work :=
  (e.pend.filter (fun l => decide (l.due ≤ e.cyc))).foldl (fun w l => writeG e.chk w l.reg l.val) e.w

theorem landDue_eq (e : Engine) :
    landDue e = { e with w := landedWork e, pend := e.pend.filter (fun l => decide (e.cyc < l.due)) } := by
  unfold landDue
  rw [foldl_land]
  rfl

theorem finishDiv_none {e : Engine} (h : e.div = none) : finishDiv e = e := by
  unfold finishDiv
  rw [h]

theorem finishDiv_some {e : Engine} {p : DivPend} (h : e.div = some p) :
    finishDiv e = { e with
      w := writeG e.chk e.w p.gd p.val
      pend := e.pend.filter (fun l => !decide (l.reg = p.gd))
      statDz := e.statDz || p.dz
      statV := e.statV || p.v
      statSat := e.statSat || p.sat
      fTag := e.fTag || p.fail
      warn := e.warn || p.fail
      div := none } := by
  unfold finishDiv
  rw [h]
  rfl

/-- Settles O21: a landing that is due is the one write of its register. -/
theorem landingsComplete : Obligations.LandingsComplete := by
  unfold Obligations.LandingsComplete
  intro s n hh
  refine ⟨?load, ?division⟩
  case load =>
    intro l ls hp hdue
    refine device_completes hh (Eq.refl (execLoadResult n s)) ?_
    have hd : l.due ≤ (ag s.dev n).cyc ∨ (¬ isCc n = true ∧ (ag s.dev n).phase ≠ .rallying) := by simpa using hdue
    simp only [hp]
    rw [if_pos hd]
    rfl
  case division =>
    intro p hp hlast
    refine device_completes hh (Eq.refl (execDivisionResult n s)) ?_
    have hl : (isCc n || decide (p.last < (ag s.dev n).limit)) = true := by simpa using hlast
    simp only [hp]
    rw [if_pos hl, finishDiv_some hp]

/-! ### Issue -/

/-- A division that finishes changes registers, outstanding loads, status and failure bits alone. -/
theorem finishDiv_frame (e : Engine) :
    finishDiv e = { e with
      w := (finishDiv e).w, pend := (finishDiv e).pend, statDz := (finishDiv e).statDz, statV := (finishDiv e).statV,
      statSat := (finishDiv e).statSat, fTag := (finishDiv e).fTag, warn := (finishDiv e).warn, div := none } := by
  cases h : e.div with
  | none => rw [finishDiv_none h, ← h]
  | some p => rw [finishDiv_some h]

/-- The record once a word has been fetched: everything due has landed, and its sequencing has gone on by one word (R123,
R152, R154, R175). -/
theorem fetched_eq (e : Engine) :
    fetched e = { finishDiv e with
      w := landedWork (finishDiv e)
      pend := (finishDiv e).pend.filter (fun l => decide (e.cyc < l.due))
      pc := e.npc
      npc := if 1 < e.repLeft then e.npc else e.npc + 1
      cur := e.cyc
      cyc := e.cyc + 1
      repLeft := e.repLeft - 1
      repCur := if 0 < e.repLeft then e.repN - e.repLeft else 0
      curt := (popTiers e.npc e.tierStk e.curt).1
      tierStk := (popTiers e.npc e.tierStk e.curt).2
      acc := []
      pair := none } := by
  unfold fetched
  rw [landDue_eq, finishDiv_frame]
  simp

theorem fetchWord_engine (d : Device) {n : Fin 68} (h : isCc n = false) : fetchWord d n = setAg d n (fetched (ag d n)) := by
  unfold fetchWord
  simp [h]

/-- Settles O10: `fetched_eq` gives the record of the engine, and the rest of the device stands. -/
theorem issueAdvancesTheEngine : Obligations.IssueAdvancesTheEngine := by
  unfold Obligations.IssueAdvancesTheEngine
  intro d n h
  rw [fetchWord_engine d h, ag_setAg_same, fetched_eq]
  refine ⟨rfl, rfl, rfl, rfl, rfl, rfl, fun l hl => ?due, fun g v hd hp => ?landed⟩
  case due => simpa using (List.mem_filter.1 hl).2
  case landed =>
    rw [finishDiv_none hd]
    simp [landedWork, hp]

/-! ### Faults -/

/-- The record of a processor whose word faults; an engine's rally has ended (R118, R169). -/
def faulted (n : Fin 68) (fpc : Nat) (e : Engine) : Engine :=
  if isCc n then { e with fpc := fpc, pair := none, repLeft := 0 }
  else { e with fpc := fpc, pair := none, repLeft := 0, phase := .ended, cut := true, div := none, warn := false }

theorem ag_wordFault (d : Device) (n : Fin 68) (fpc : Nat) (mark : Engine → Engine) :
    ag (wordFault d n fpc mark) n = faulted n fpc (mark (ag d n)) := by
  unfold wordFault faulted
  dsimp only
  split
  · rw [ag_congr (raiseCtrl_proc _ _)]
    exact ag_setAg_same d n _
  · rw [ag_congr (raiseEv_proc _ _), ag_congr (endRally_proc _ _ _ _), ag_setAg_same, ag_setAg_same]

/-- A control core whose word faults halts (R375). -/
theorem halt_wordFault (d : Device) {n : Fin 68} (h : isCc n = true) (fpc : Nat) (mark : Engine → Engine) :
    (wordFault d n fpc mark).ccx[coreOf n].halt = true := by
  unfold wordFault
  simp [h]

theorem ag_rsFault (d : Device) (n : Fin 68) : ag (rsFault d n) n = faulted n (ag d n).pc { ag d n with fRs := true } :=
  ag_wordFault d n _ _

theorem ag_illWord (d : Device) (n : Fin 68) (fpc : Nat) :
    ag (illWord d n fpc) n = faulted n fpc { fetched (ag d n) with fIll := true } := by
  unfold illWord illFault
  rw [ag_wordFault, ag_setAg_same]

section
variable (n : Fin 68) (fpc : Nat) (e : Engine)

@[simp] theorem faulted_fIll : (faulted n fpc e).fIll = e.fIll := by unfold faulted; split <;> rfl
@[simp] theorem faulted_fRs : (faulted n fpc e).fRs = e.fRs := by unfold faulted; split <;> rfl
@[simp] theorem faulted_fpc : (faulted n fpc e).fpc = fpc := by unfold faulted; split <;> rfl
@[simp] theorem faulted_rs : (faulted n fpc e).rs = e.rs := by unfold faulted; split <;> rfl
@[simp] theorem faulted_rsTop : (faulted n fpc e).rsTop = e.rsTop := by unfold faulted; split <;> rfl
@[simp] theorem faulted_rsDepth : (faulted n fpc e).rsDepth = e.rsDepth := by unfold faulted; split <;> rfl

theorem faulted_phase (h : isCc n = false) : (faulted n fpc e).phase = .ended := by
  unfold faulted
  simp [h]

end

end Sys2Proof.Machine
end

section
/-! PROOFS. Flow: branches, calls, returns, REP, TMARK and DONE (R151 to R154, R169, R175), the return stack (R125), and
illegal words (R117, R118). -/

namespace Sys2Proof.Machine

/-! ### Forms that are defined -/

section
variable {i : Issue} {target : Nat}

/-- A flow word whose target its form holds is defined (R371). -/
theorem flowOk (h : (Instr.br i target).wf = true) : (targetOk i target && decide (i.slot = .long)) = true := by
  simp only [Instr.wf, long_eq, targetFits, engine_eq, Bool.and_eq_true, decide_eq_true_eq] at h
  obtain ⟨hl, ht⟩ := h
  cases hn : isCc i.who <;> simpa [targetOk, hl, hn] using ht

theorem tmarkOk {t : BitVec 12} (h : (Instr.tmark i t target).wf = true) :
    ((!isCc i.who && targetOk i target && decide (1 ≤ t.toNat ∧ t.toNat ≤ 3)) && decide (i.slot = .long)) = true := by
  simp only [Instr.wf, long_eq, targetFits, engine_eq, Bool.and_eq_true, decide_eq_true_eq, Bool.not_eq_true'] at h
  obtain ⟨⟨⟨hl, hn⟩, ht⟩, hr⟩ := h
  simpa [targetOk, hl, hn, hr] using ht

end

section
variable {s : State} {i : Issue}

/-- RET with an entry to take, or in WRAP mode, returns to the entry at TOP (R125, R154). -/
theorem ret_completes (h : mayIssue s.dev i false = true) (hl : i.slot = .long)
    (ht : ¬ (rsTraps (issued s.dev i) i.who = true ∧ (ag (issued s.dev i) i.who).rsDepth = 0)) :
    completes (.ret i) s (wordEffect s.dev i (fun d =>
      jump (setAg d i.who (rsPopped (ag d i.who))) i.who ((ag d i.who).rs[rsSlot (ag d i.who).rsTop]).toNat)) :=
  form_completes h (decide_long hl) rfl (if_neg ht)

/-- RET from an empty stack in TRAP mode faults (R125). -/
theorem ret_faults (h : mayIssue s.dev i false = true) (hl : i.slot = .long)
    (ht : rsTraps (issued s.dev i) i.who = true) (h0 : (ag (issued s.dev i) i.who).rsDepth = 0) :
    completes (.ret i) s (wordEffect s.dev i (fun d => rsFault d i.who)) :=
  form_completes h (decide_long hl) rfl (if_pos ⟨ht, h0⟩)

/-- REP before a word that may be repeated sets the repetitions of that word (R126, R152). -/
theorem rep_completes {count : BitVec 12} (h : mayIssue s.dev i false = true) (hl : i.slot = .long)
    (hlast : isCc i.who = true ∨ (ag s.dev i.who).npc < 8191)
    (hnext : unrepeatable (isCc i.who) (progHigh s.dev i.who ((ag s.dev i.who).npc + 1)) = false) :
    completes (.rep i count) s (wordEffect s.dev i (fun d =>
      setAg d i.who { ag d i.who with repLeft := count.toNat + 1, repN := count.toNat + 1 })) := by
  refine word_completes (ok := fun d => ((isCc i.who || decide ((ag d i.who).npc < 8191)) &&
    !unrepeatable (isCc i.who) (progHigh d i.who ((ag d i.who).npc + 1))) && decide (i.slot = .long)) h ?_ rfl rfl
  have hlast' : (isCc i.who || decide ((ag s.dev i.who).npc < 8191)) = true := by simpa using hlast
  simp [hlast', hnext, hl]

end

/-- Settles O7, a clause per word: the form is defined, and each branch of the operation is the one stated. -/
theorem flowCompletes : Obligations.FlowCompletes := by
  unfold Obligations.FlowCompletes
  refine ⟨?branches, ?sequencing⟩
  case branches =>
    intro s i gc target h hw
    have ok := flowOk hw
    exact ⟨form_completes h ok rfl rfl, form_completes h ok rfl rfl, form_completes h ok rfl rfl,
      form_completes h ok rfl rfl, form_completes h ok rfl rfl, form_completes h ok rfl rfl, form_completes h ok rfl rfl,
      ret_completes h (of_decide_eq_true (Bool.and_eq_true _ _ ▸ ok).2)⟩
  case sequencing =>
    intro s i count t target h hl
    refine ⟨fun hn => form_completes h (by rw [hn, decide_long hl]; rfl) rfl rfl, rep_completes h hl,
      fun hw ht => form_completes h (tmarkOk hw) rfl (if_neg (by omega))⟩

/-! ### The return stack -/

section
variable (e : Engine) (a : Word)

theorem rs_rsPushed_top : (rsPushed e a).rs[rsSlot (e.rsTop + 1)] = a := by
  simp [rsPushed]

theorem rs_rsPushed_other {k : Fin 8} (h : k ≠ rsSlot (e.rsTop + 1)) : (rsPushed e a).rs[k] = e.rs[k] := by
  have hk : (rsSlot (e.rsTop + 1)).val ≠ k.val := fun he => h (Fin.ext he.symm)
  simp [rsPushed, hk]

end

/-- Settles O8: the stack's updates entry by entry, a clause for each depth and mode. -/
theorem returnStackRule : Obligations.ReturnStackRule := by
  unfold Obligations.ReturnStackRule
  intro d n e a target htop
  refine ⟨⟨rs_rsPushed_top e a, rfl, fun k => rs_rsPushed_other e a⟩, fun hroom => ?push, fun hfull => ?pushFull,
    fun hsome => ?pop, fun hempty => ?popEmpty, fun hm hfit => ?call, fun s i => ret_completes,
    fun ht hfull => if_pos ⟨ht, hfull⟩, fun s i => ret_faults, ?fault⟩
  case push =>
    have htop' : ((e.rsTop + 1) % 8 + 7) % 8 = e.rsTop := by omega
    simp [rsPushed, rsPopped, htop', hroom]
  case pushFull => simp [rsPushed, hfull]
  case pop => simp [rsPopped, Nat.ne_of_gt hsome]
  case popEmpty => simp [rsPopped, hempty]
  case call =>
    have hentry : rsEntry n ((ag d n).pc + 1) = BitVec.ofNat 32 ((ag d n).pc + 1) := by
      unfold rsEntry
      split
      · rfl
      · next hn => rw [Nat.mod_eq_of_lt (b := 2 ^ 13) (hfit.resolve_left hn)]
    rw [← hentry]
    exact if_neg hm
  case fault => simp [ag_rsFault]

/-! ### Illegal words -/

/-- A word whose form is not defined completes as the illegal word (R117). -/
theorem illegal_completes {c : Instr} {s : State} {i : Issue} {ok : Device → Bool} {rep : Bool} {f : Device → Device}
    (h : mayIssue s.dev i false = true) (hl : i.slot = .long) (hx : exec c s = onDev s (fun d => withWord i (ok d) rep d f))
    (hok : ok s.dev = false) : completes c s (illWord s.dev i.who (ag s.dev i.who).npc) :=
  device_completes (mayIssue_held h) hx (by rw [hok]; exact withWord_illegal h hl f)

theorem canIssue_of_mayIssue {d : Device} {i : Issue} {rep : Bool} (h : mayIssue d i rep = true) (hl : i.slot = .long) :
    canIssue d i.who = true := by
  simp [mayIssue, hl] at h
  exact h.2.1.1

/-- A branch target that the form does not hold is no target of the processor (R371). -/
theorem targetOk_false {i : Issue} {target : Nat} (hl : i.slot = .long) (h : (Instr.br i target).wf = false) :
    targetOk i target = false := by
  cases hn : isCc i.who <;> simpa [Instr.wf, long_eq, hl, targetFits, engine_eq, targetOk, hn] using h

theorem tmarkOk_false {i : Issue} {t : BitVec 12} {target : Nat} (hl : i.slot = .long)
    (h : (Instr.tmark i t target).wf = false) :
    (!isCc i.who && targetOk i target && decide (1 ≤ t.toNat ∧ t.toNat ≤ 3)) = false := by
  cases hn : isCc i.who
  · simpa [Instr.wf, long_eq, hl, targetFits, engine_eq, targetOk, hn] using h
  · rfl

/-- A selector that no MOVC may name selects no control register (R105, R371). -/
theorem controlReg_reserved {i : Issue} {gd : GReg} {c : Fin 16} (d : Device) (hl : i.slot = .long)
    (h : (Instr.movcRead i gd c).wf = false) : controlReg d i.who c = none := by
  have hc : (if isCc i.who then 12 else 9) ≤ c.val := by
    cases hn : isCc i.who <;> simpa [Instr.wf, long_eq, hl, engine_eq, hn] using h
  have hlt := c.isLt
  unfold controlReg
  cases hn : isCc i.who <;> simp only [hn, Bool.false_eq_true, if_true, if_false] at hc ⊢ <;> interval_cases c.val <;> rfl

/-- The long words with an undefined form are the flow words, MOVC, ADDI, the words over a quad of D registers and the Spin
words: every other one is defined as a long word whatever its operands. -/
theorem undefined_completes {c : Instr} {s : State} {i : Issue} (hw : c.word = some i) (hl : i.slot = .long)
    (hwf : c.wf = false) (h : mayIssue s.dev i false = true) :
    completes c s (illWord s.dev i.who (ag s.dev i.who).npc) := by
  cases c <;> cases hw
  case done =>
    have hn : isCc i.who = true := by simpa [Instr.wf, long_eq, hl, engine_eq] using hwf
    exact illegal_completes (ok := fun _ => !isCc i.who && decide (i.slot = .long)) h hl rfl (by simp [hn])
  case br target | brz target | brnz target | brlc target | call target | callz target | callnz target =>
    exact illegal_completes (ok := fun _ => targetOk i target && decide (i.slot = .long)) h hl rfl
      (by rw [targetOk_false hl hwf]; rfl)
  case tmark t target =>
    exact illegal_completes
      (ok := fun _ => (!isCc i.who && targetOk i target && decide (1 ≤ t.toNat ∧ t.toNat ≤ 3)) && decide (i.slot = .long))
      h hl rfl (by rw [tmarkOk_false hl hwf]; rfl)
  case movcRead c | movcWrite c =>
    exact illegal_completes (ok := fun d => decide (i.slot = .long) && (controlReg d i.who c).isSome) h hl rfl
      (by rw [controlReg_reserved (gd := .d 0) s.dev hl hwf]; exact Bool.and_false _)
  case addi => exact illegal_completes (ok := fun _ => decide (i.slot ≠ .long)) h hl rfl (by simp [hl])
  case qmac dk _ | qmacRt dk _ | qmsb dk _ | qmsbRt dk _ =>
    have hk : ¬ dk.val ≤ 12 := by simpa [Instr.wf, long_eq, hl] using hwf
    exact illegal_completes (ok := fun _ => decide (i.slot = .long) && decide (dk.val ≤ 12)) h hl rfl (by simp [hk])
  case spinIssue | spinGet | spinXg =>
    have hn : isCc i.who = true := by simpa [Instr.wf, long_eq, hl, engine_eq] using hwf
    exact illegal_completes (ok := fun _ => decide (i.slot = .long) && !isCc i.who) h hl rfl (by simp [hn])
  all_goals simp [Instr.wf, long_eq, hl] at hwf

/-- Settles O9: the word issues as the illegal word, whose fault `ag_illWord` gives. -/
theorem undefinedFormsFault : Obligations.UndefinedFormsFault := by
  unfold Obligations.UndefinedFormsFault
  intro s c i hw hl hwf h
  refine ⟨undefined_completes hw hl hwf h, ?word, by simp [ag_illWord], by simp [ag_illWord], fun hn => ?engine,
    fun hn => ?core⟩
  case word =>
    refine device_completes (mayIssue_held h) (Eq.refl (execIllegalWord i s)) ?_
    rw [if_pos (canIssue_of_mayIssue h hl)]
  case engine => rw [ag_illWord, faulted_phase _ _ _ hn]
  case core => rw [illWord, illFault, halt_wordFault _ hn]

end Sys2Proof.Machine
end

section
/-! PROOFS. The tag of a result (R116, R133), and the words that reach memory and bits in the forms that are defined (R111 to
R115, R122, R138 to R142, R150). -/

namespace Sys2Proof.Machine

/-! ### The tag of a result -/

section
variable {a b : Tag}

theorem worst_valid (ha : a.rank = 0) (hb : b.rank = 0) : worst a b = none := if_pos ⟨ha, hb⟩

/-- With a rank above 0 among them, the worse of two tags is one of them, of the highest rank (R116). -/
theorem worst_ranked (h : 0 < a.rank ∨ 0 < b.rank) :
    ∃ t, worst a b = some t ∧ (t = a ∨ t = b) ∧ t.rank = Nat.max a.rank b.rank := by
  unfold worst
  rw [if_neg (by omega)]
  split
  · next hle => exact ⟨a, rfl, .inl rfl, (Nat.max_eq_left hle).symm⟩
  · next hgt => exact ⟨b, rfl, .inr rfl, (Nat.max_eq_right (by omega)).symm⟩

theorem tag2_valid (chk : Bool) (rule : KindRule) (ha : a.rank = 0) (hb : b.rank = 0) :
    tag2 chk rule a b = tagOr chk (kindOf rule a b) := by
  unfold tag2
  rw [worst_valid ha hb]

theorem tag2_ranked {t : Tag} (chk : Bool) (rule : KindRule) (h : worst a b = some t) : tag2 chk rule a b = (t, false) := by
  unfold tag2
  rw [h]

/-- Two kinds of which none is ADDR give SAMPLE before COEF before INT in every column but the comparisons' (R133). -/
theorem kindOf_without_addr {rule : KindRule} (ha : a ≠ .addr) (hb : b ≠ .addr) (hr : rule ≠ .cmp) : kindOf rule a b =
    some (if a = .sample ∨ b = .sample then .sample else if a = .coef ∨ b = .coef then .coef else .int) := by
  unfold kindOf
  cases rule <;> simp only [ha, hb, false_and, if_false, ne_eq, not_true] at hr ⊢ <;> split_ifs <;> rfl

end

/-- Settles O14: a rank above 0 decides by `worst_ranked`; below, the rows of the kind table. -/
theorem tagFollowsRankAndKind : Obligations.TagFollowsRankAndKind := by
  unfold Obligations.TagFollowsRankAndKind
  intro chk rule a b
  refine ⟨fun h => ?ranked, fun ha hb => ⟨fun k hk => ?kind, fun hk => ⟨?check, ?noCheck⟩, kindOf_without_addr, rfl,
    ?addrAddr, ?addrInt, ?intAddr⟩⟩
  case ranked =>
    obtain ⟨t, ht, hab, hrank⟩ := worst_ranked h
    rw [tag2_ranked chk rule ht]
    exact ⟨hab, hrank, rfl⟩
  case kind => rw [tag2_valid chk rule ha hb, hk, tagOr]
  case check => rw [tag2_valid true rule ha hb, hk]; rfl
  case noCheck => rw [tag2_valid false rule ha hb, hk]; rfl
  case addrAddr | addrInt | intAddr =>
    rintro rfl rfl
    exact ⟨rfl, rfl, rfl, rfl⟩

/-! ### Words that reach memory -/

/-- LD and ST are defined as a long word, or with one access (R120, R137). -/
theorem accessOk_of {i : Issue} {two : Option (GReg × Ma)} (h : i.slot = .long ∨ two = none) :
    accessOk i two.isSome = true := by
  rcases h with h | rfl
  · simp [accessOk, h]
  · exact Bool.or_true _

/-- Settles O17, a clause per word: the form is defined, and the accesses are the stated ones in their order. -/
theorem memoryWordsComplete : Obligations.MemoryWordsComplete := by
  unfold Obligations.MemoryWordsComplete
  intro s i g1 g2 m1 m2 two h old
  refine ⟨fun hf => ?accesses, fun hl => ?long⟩
  case accesses =>
    have ok := accessOk_of hf
    constructor <;> cases two <;> exact form_completes h ok rfl rfl
  case long =>
    have ok := decide_long hl
    exact ⟨form_completes h ok rfl rfl, form_completes h ok rfl rfl, form_completes h ok rfl rfl,
      form_completes h ok rfl rfl⟩

/-! ### Bit words -/

/-- BTST is defined as a long word, or with a D register and no index (R120). -/
theorem btstOk {i : Issue} {gd : GReg} {b : BitRef} (h : (Instr.btst i gd b).wf = true) :
    (bitOk i b && shortOk i [gd]) = true := by
  simp only [Instr.wf, long_eq, isD_eq, Bool.or_eq_true, Bool.and_eq_true] at h
  simp only [bitOk, shortOk, List.all_cons, List.all_nil, Bool.and_true, Bool.and_eq_true, Bool.or_eq_true]
  tauto

/-- Settles O22, a clause per word: the form is defined, and the operation's effect is the one stated. -/
theorem bitWordsComplete : Obligations.BitWordsComplete := by
  unfold Obligations.BitWordsComplete
  intro s i gd b bb h k
  refine ⟨fun hw => ?writes, fun hw => form_completes h (btstOk hw) rfl rfl, fun hl => ?long⟩
  case writes =>
    have ok : bitOk i b = true := hw
    exact ⟨form_completes h ok rfl rfl, form_completes h ok rfl rfl, form_completes h ok rfl rfl⟩
  case long =>
    have ok := decide_long hl
    exact ⟨form_completes h ok rfl rfl, form_completes h ok rfl rfl, form_completes h ok rfl rfl,
      form_completes h ok rfl rfl, form_completes h ok rfl rfl⟩

end Sys2Proof.Machine
end

section
/-! PROOFS. Local data (R99, R101, R138, R140 to R142, R165), accesses that reach no word (R97, R98, R100), and bits (R111 to
R115, R150, R478). -/

namespace Sys2Proof.Machine

/-! ### Cells of local data -/

section
variable {d : Device} {n : Fin 68} {e : Engine}

/-- The exchange window depends, of the record, on the role and what fencing keeps (R165, R478). -/
theorem ioBase_setAg (hr : e.role = (ag d n).role) (hf : e.fenced = (ag d n).fenced) (hm : e.former = (ag d n).former) :
    ioBase (setAg d n e) n = ioBase d n := by
  simp only [ioBase, engField, ag_setAg_same, hr, hf, hm, reg_congr (setAg_bus d n e)]

/-- A cell reads the same where the record keeps its window and its two stores. -/
theorem localCell_setAg (hr : e.role = (ag d n).role) (hf : e.fenced = (ag d n).fenced) (hm : e.former = (ag d n).former)
    (hio : e.io = (ag d n).io) (hloc : e.loc = (ag d n).loc) (w : Nat) : localCell (setAg d n e) n w = localCell d n w := by
  simp only [localCell, ioBase_setAg hr hf hm, ag_setAg_same, hio, hloc]

end

section
variable (d : Device) (n : Fin 68) (w : Nat) (v : TWord)

/-- A store of local data writes one word of its store and gives up the processor's own reservation on it. -/
theorem putLocal_eq : putLocal d n w v = setAg d n { ag d n with
    io := if ioBase d n ≤ w ∧ w < ioBase d n + 128
      then sparsePut cellInvalid (ag d n).io (w - ioBase d n) (cellOf v) else (ag d n).io
    loc := if ioBase d n ≤ w ∧ w < ioBase d n + 128
      then (ag d n).loc else sparsePut cellUninit (ag d n).loc w (cellOf v)
    resv := if (ag d n).resv = some (.localData n.val w) then none else (ag d n).resv } := by
  unfold putLocal
  by_cases hw : ioBase d n ≤ w ∧ w < ioBase d n + 128 <;>
    by_cases hr : (ag d n).resv = some (.localData n.val w) <;> simp [hw, hr]

theorem ioBase_putLocal : ioBase (putLocal d n w v) n = ioBase d n := by
  rw [putLocal_eq]
  exact ioBase_setAg rfl rfl rfl

/-- A word of local data reads as it was last written, and every other word as before. -/
theorem localCell_putLocal (b : Nat) :
    localCell (putLocal d n w v) n b = if b = w then cellOf v else localCell d n b := by
  unfold localCell
  rw [ioBase_putLocal, putLocal_eq, ag_setAg_same]
  dsimp only
  by_cases hbw : b = w
  · subst hbw
    rw [if_pos rfl]
    split
    · rw [sparseGet_put, if_pos rfl]
    · rw [sparseGet_put, if_pos rfl]
  · rw [if_neg hbw]
    split
    · next hb =>
      split
      · rw [sparseGet_put, if_neg (by omega)]
      · rfl
    · next hb =>
      split
      · rfl
      · rw [sparseGet_put, if_neg hbw]

theorem localCell_localStore (b : Nat) :
    localCell (localStore d n w v) n b = if b = w then cellOf v else localCell d n b := by
  unfold localStore
  rw [localCell_putLocal, localCell_setAg] <;> rfl

theorem resv_localStore (h : (ag d n).resv = none) : (ag (localStore d n w v) n).resv = none := by
  unfold localStore
  simp [putLocal_eq, h]

end

/-! ### Accesses of local data -/

section
variable {d : Device} {i : Issue} {a : Nat}

theorem engTarget_local (h : a < 0xC000) : engTarget a = .loc a := if_pos h

/-- A long word reads a cell as it stands. -/
theorem seenCell_long (hl : i.slot = .long) (c : Cell) : seenCell d i a c = c := by
  unfold seenCell
  rw [hl]

/-- A long word keeps nothing for a Y half. -/
theorem keepUndo_long (hl : i.slot = .long) (c : Cell) : keepUndo d i a c = d := by
  unfold keepUndo
  rw [hl]

theorem engLoad_local (h : a < 0xC000) (hl : i.slot = .long) (port : Nat) : engLoad d i port a =
    (if (localCell d i.who a).bad then parFault d i.who else d, cellRead (localCell d i.who a)) := by
  unfold engLoad
  rw [engTarget_local h]
  simp only [seenCell_long hl]

theorem engStore_local (h : a < 0xC000) (hl : i.slot = .long) (port : Nat) (v : TWord) :
    engStore d i port a v = localStore d i.who a v := by
  unfold engStore
  rw [engTarget_local h]
  simp only [keepUndo_long hl]

theorem engTas_local (h : a < 0xC000) (ho : (ag d i.who).own ≠ .fenced) : engTas d i a =
    (localStore (if (localCell d i.who a).bad then parFault d i.who else d) i.who a tasWord,
      cellRead (localCell d i.who a)) := by
  unfold engTas
  rw [engTarget_local h]
  exact if_neg ho

theorem engStcn_local (h : a < 0xC000) (v : TWord) : engStcn d i a v =
    if (ag d i.who).resv = some (.localData i.who.val a) ∧ (ag d i.who).own ≠ .fenced
    then (localStore (setResv d i.who none) i.who a v, stcnWord true) else (setResv d i.who none, stcnWord false) := by
  unfold engStcn
  rw [engTarget_local h]

end

/-- Settles O18: each access of local data is one read or one write of its cell. -/
theorem localDataAccesses : Obligations.LocalDataAccesses := by
  unfold Obligations.LocalDataAccesses
  intro d n port a v ha i c
  have hl : i.slot = .long := rfl
  have hload : engLoad d i port a = (if c.bad then parFault d n else d, cellRead c) := engLoad_local ha hl port
  have hstcn := engStcn_local (d := d) (i := i) ha v
  refine ⟨hload, ?stored, fun b hb => ?frame, fun ho => ⟨?tasValue, ?tasLeaves, fun hr => ?stcnStores⟩,
    fun hr => ?stcnRefuses, ?gone⟩
  case stored => rw [engStore_local ha hl, localCell_localStore, if_pos rfl]; rfl
  case frame => rw [engStore_local ha hl, localCell_localStore, if_neg hb]
  case tasValue => rw [engTas_local ha ho]
  case tasLeaves => rw [engTas_local ha ho, localCell_localStore, if_pos rfl]; rfl
  case stcnStores =>
    rw [hstcn, if_pos ⟨hr, ho⟩]
    exact ⟨rfl, by rw [localCell_localStore, if_pos rfl]; rfl⟩
  case stcnRefuses =>
    rw [hstcn, if_neg (fun hc => hr hc.1)]
    rfl
  case gone =>
    have hgone : (ag (setResv d n none) n).resv = none := by rw [setResv, ag_setAg_same]
    rw [hstcn]
    split
    · exact resv_localStore _ _ _ _ hgone
    · exact hgone

/-! ### Accesses that reach no word -/

section
variable {d : Device} {i : Issue} {a : Nat} (h : engTarget a = .unmapped)
include h

theorem engLoad_unmapped (port : Nat) : engLoad d i port a = (addrFault d i.who, ⟨0, .poison⟩) := by
  simp only [engLoad, h]
  rfl

theorem engStore_unmapped (port : Nat) (v : TWord) : engStore d i port a v = addrFault d i.who := by
  simp only [engStore, h]

theorem engTas_unmapped : engTas d i a = (addrFault d i.who, ⟨0, .poison⟩) := by
  simp only [engTas, h]
  rfl

theorem engLdrv_unmapped : engLdrv d i a = (setResv (addrFault d i.who) i.who none, ⟨0, .poison⟩) := by
  simp only [engLdrv, h]
  rfl

theorem engStcn_unmapped (v : TWord) : engStcn d i a v = (addrFault (setResv d i.who none) i.who, ⟨0, .poison⟩) := by
  simp only [engStcn, h]
  rfl

end

theorem ag_addrFault (d : Device) (n : Fin 68) : ag (addrFault d n) n = { ag d n with fAddr := true, warn := true } :=
  ag_setAg_same d n _

theorem ag_tagFault (d : Device) (n : Fin 68) (b : Bool) :
    ag (tagFault d n b) n = { ag d n with fTag := (ag d n).fTag || b, warn := (ag d n).warn || b } :=
  ag_setAg_same d n _

section
variable {d : Device} {i : Issue} {w : Work} {m : Ma}

theorem maWay_poison (h : maPoison w m = true) : maWay w m = .poison := if_pos h

theorem phase_stepPtr : (ag (stepPtr d i w m) i.who).phase = (ag d i.who).phase := by
  unfold stepPtr
  split
  · rw [wrPtr, ag_setAg_same]; rfl
  · rfl

/-- The pointer of an access takes its update (R97, R135). -/
theorem pointer_stepPtr {x : Word} (h : maUpdate w m = some x) : (ag (stepPtr d i w m) i.who).w.a[m.n] = x := by
  unfold stepPtr
  rw [h]
  simp [wrPtr, supersede]

end

/-- Settles O19: at an unmapped address each access faults by itself, and through a poisoned pointer before it is made. -/
theorem unmappedAndPoisonedAccesses : Obligations.UnmappedAndPoisonedAccesses := by
  unfold Obligations.UnmappedAndPoisonedAccesses
  intro d n port a v g w m i
  refine ⟨fun h => ⟨engLoad_unmapped h port, engStore_unmapped h port v, engTas_unmapped h, engLdrv_unmapped h,
    engStcn_unmapped h v, by rw [ag_addrFault], by rw [ag_addrFault]⟩, fun h => ?poisoned⟩
  case poisoned =>
    have hway := maWay_poison h
    refine ⟨by rw [loadWord, hway]; rfl, by rw [doStore, hway], by rw [ag_tagFault, Bool.or_true], ?phase,
      fun x hx => ?pointer, fun resv f => by rw [doAtomic, hway]; rfl⟩
    case phase => rw [ag_tagFault]; exact phase_stepPtr
    case pointer => rw [ag_tagFault]; exact pointer_stepPtr hx

/-! ### Bits -/

/-- A bit of a store reads as it was last written, and every other bit as before. -/
theorem bitAt_bitPut (m : Sparse Word) (b c : Nat) (v : Bool) : bitAt (bitPut m b v) c = if c = b then v else bitAt m c := by
  unfold bitAt bitPut
  simp only [sparseGet_put]
  have hlt : c % 32 < 32 := Nat.mod_lt _ (by decide)
  by_cases hw : c / 32 = b / 32
  · simp only [hw, if_true, BitVec.getLsbD_ofNat, hlt, decide_true, Bool.true_and, testBit_withBits]
    by_cases hc : c = b
    · subst hc
      cases v <;> simp
    · have hne : c % 32 ≠ b % 32 := by omega
      rw [if_neg hc]
      split_ifs
      · rfl
      · omega
      · rfl
  · have hc : c ≠ b := fun hc => hw (by rw [hc])
    simp only [hw, hc, if_false]

section
variable {d : Device} {i : Issue} {b c : Nat}

/-- A flag as a long word reads it (R111). -/
theorem readBit_flag (hl : i.slot = .long) (hb : b < 0x800) : readBit d i b = bitAt (ag d i.who).flags b := by
  unfold readBit lowBit
  rw [if_pos (by omega), if_pos hb, hl]

theorem writeBit_flag (hb : b < 0x800) (v : Bool) :
    writeBit d i b v = setAg d i.who { ag d i.who with flags := bitPut (ag d i.who).flags b v } := if_pos hb

theorem foundBit_flag (hb : b < 0x800) : foundBit d i b = readBit d i b := by
  unfold foundBit readBit
  rw [if_pos (by omega), if_pos (by omega)]

/-- A TAS of a flag is a read of it and a set (R150). -/
theorem tasBit_flag (hb : b < 0x800) : tasBit d i b = (writeBit d i b true, readBit d i b) := by
  rw [writeBit_flag hb, ← foundBit_flag hb]
  exact if_pos hb

theorem readBit_writeBit_flag (hl : i.slot = .long) (hb : b < 0x800) (hc : c < 0x800) (v : Bool) :
    readBit (writeBit d i b v) i c = if c = b then v else readBit d i c := by
  rw [readBit_flag hl hc, readBit_flag hl hc, writeBit_flag hb, ag_setAg_same]
  exact bitAt_bitPut _ b c v

/-- A status bit takes no write (R112). -/
theorem writeBit_status (h1 : 0x800 ≤ b) (h2 : b < 0xC00) (v : Bool) : writeBit d i b v = d := by
  unfold writeBit
  rw [if_neg (by omega), if_pos (.inl h2)]

theorem tasBit_status (h1 : 0x800 ≤ b) (h2 : b < 0xC00) (hn : isCc i.who = false) :
    tasBit d i b = (d, bitAt (ag d i.who).captured b) := by
  have hf : foundBit d i b = bitAt (ag d i.who).captured b := by
    unfold foundBit lowBit
    rw [if_pos h2, if_neg (by omega), if_neg (by simp [hn])]
  unfold tasBit
  rw [if_neg (by omega), if_pos (.inl h2), hf]

end

section
variable {d : Device} {i : Issue} {b : Nat} (h : 0xC00 ≤ b) (hn : isCc i.who = false)
include h hn

/-- A long word finds a team bit as it stands (R114). -/
theorem foundBit_team (hl : i.slot = .long) :
    foundBit d i b = bitAt d.team[teamGroup d i.who] (b - 0xC00) := by
  unfold foundBit teamNow
  rw [if_neg (by omega), if_neg (by simp [hn]), hl]

/-- The role's owner writes a team bit (R114). -/
theorem writeBit_owner (ho : (ag d i.who).own = .owner) (v : Bool) : writeBit d i b v = putTeamBit d i.who b v := by
  unfold writeBit
  rw [if_neg (by omega), if_neg (by simp [hn]; omega), ho]

/-- A substitute in mirror mode writes no team bit (R475). -/
theorem writeBit_mirror (ho : (ag d i.who).own = .mirror) (v : Bool) : writeBit d i b v = d := by
  unfold writeBit
  rw [if_neg (by omega), if_neg (by simp [hn]; omega), ho]

/-- A fenced engine's write of a team bit is dropped and counted (R478). -/
theorem writeBit_fenced (ho : (ag d i.who).own = .fenced) (v : Bool) : writeBit d i b v = fencedDrop d i.who := by
  unfold writeBit
  rw [if_neg (by omega), if_neg (by simp [hn]; omega), ho]

theorem tasBit_owner (ho : (ag d i.who).own = .owner) : (tasBit d i b).2 = foundBit d i b := by
  unfold tasBit
  rw [if_neg (by omega), if_neg (by simp [hn]; omega), ho]

theorem tasBit_fenced (ho : (ag d i.who).own = .fenced) : tasBit d i b = (fencedDrop d i.who, true) := by
  unfold tasBit
  rw [if_neg (by omega), if_neg (by simp [hn]; omega), ho]

end

/-- The owner's write of a team bit replaces that bit in its group's store. -/
theorem team_putTeamBit (d : Device) (n : Fin 68) (b : Nat) (v : Bool) : (putTeamBit d n b v).team[teamGroup d n] =
    bitPut d.team[teamGroup d n] (b - 0xC00) v := by
  simp [putTeamBit, noteAcc, setAg]

/-- Settles O23: each kind of bit has its own store, or takes no write. -/
theorem bitsAreKept : Obligations.BitsAreKept := by
  unfold Obligations.BitsAreKept
  intro d n m b c v hn i
  have hl : i.slot = .long := rfl
  refine ⟨fun hb => ⟨?asWritten, fun hne hc => ?otherFlag, fun hm => ?otherEngine, ?team, ?tasReads, ?tasSets⟩,
    fun h1 h2 => ⟨writeBit_status h1 h2 v, tasBit_status h1 h2 hn⟩,
    fun h1 _ => ⟨fun ho => ⟨?ownerWrites, ?ownerTas⟩, fun ho => writeBit_mirror h1 hn ho v,
      fun ho => ⟨writeBit_fenced h1 hn ho v, tasBit_fenced h1 hn ho⟩⟩⟩
  case asWritten => rw [readBit_writeBit_flag hl hb hb, if_pos rfl]
  case otherFlag => rw [readBit_writeBit_flag hl hb hc, if_neg hne]
  case otherEngine => rw [writeBit_flag hb, ag_setAg_other d _ hm.symm]
  case team => rw [writeBit_flag hb]; rfl
  case tasReads => rw [tasBit_flag hb]
  case tasSets => rw [tasBit_flag hb, readBit_writeBit_flag hl hb hb, if_pos rfl]
  case ownerWrites => rw [writeBit_owner h1 hn ho, team_putTeamBit, bitAt_bitPut, if_pos rfl]
  case ownerTas => rw [tasBit_owner h1 hn ho, foundBit_team h1 hn hl]

end Sys2Proof.Machine
end

section
/-! PROOFS. Accesses of the engine and group windows (R108, R109, R168, R177, R181, R182). -/

namespace Sys2Proof.Machine

/-! ### Engine windows -/

section
variable {d : Device} {q : Req} {n : Fin 64} {o : Nat}

/-- An engine's window lies outside the views of delay memory. -/
theorem view_engine (n : Fin 64) (o : Nat) : delayView (engWindow n + o) = false :=
  decide_eq_false (by unfold engWindow; omega)

/-- The window of a substitute that is not in COPY refuses no write of local data (R109, R473). -/
theorem engRefusal_local {m : Fin 68} (hc : copyTarget d m = false) (ho : o < 0x30000) : engRefusal d m o = none := by
  unfold engRefusal
  rw [if_neg (by simp [hc]), if_neg (by omega)]

/-- A read of local data takes nothing with it. -/
theorem engWinTakes_local (m : Fin 68) (ho : o < 0x30000) : engWinTakes d m o = d := by
  unfold engWinTakes
  dsimp only
  rw [if_neg (by omega), if_neg (by omega), if_neg (by omega)]

theorem engWinRead_local (m : Fin 68) (len : Nat) (ho : o < 0x30000) : engWinRead d m o len =
    ⟨(localCell d m (o / 4)).w.p, (cellRead (localCell d m (o / 4))).t⟩ := by
  unfold engWinRead
  exact if_pos ho

/-- A whole word of local data as an access of 4 bytes returns it. -/
theorem lanes_local (n : Fin 64) (ho : o < 0x30000) (h4 : o % 4 = 0) (w : Word) : lanes (engWindow n + o) 4 w = w.toNat := by
  have ha : (engWindow n + o) % 4 = 0 := by unfold engWindow; omega
  have hw := w.isLt
  unfold lanes
  rw [area_engine n o (by omega)]
  dsimp only
  rw [if_neg (by simp; omega), ha]
  omega

/-- A word of local data read through the window of a present engine (R168). -/
theorem busRead_local (ho : o < 0x30000) (h4 : o % 4 = 0) (hn : n.val < engCount d) :
    busRead d q (engWindow n + o) 4 =
      answered (touch d (engWindow n + o)) q (localCell (touch d (engWindow n + o)) (engProc n) (o / 4)).w.p.toNat
        (cellRead (localCell (touch d (engWindow n + o)) (engProc n) (o / 4))).t := by
  have hp := engCount_variant (touch_variant d (engWindow n + o))
  have hr : readWord (touch d (engWindow n + o)) q (engWindow n + o) 4 =
      (touch d (engWindow n + o), engWinRead (touch d (engWindow n + o)) (engProc n) o 4) := by
    unfold readWord absentAt
    rw [area_engine n o (by omega)]
    dsimp only
    rw [if_neg (by simp [hp]; omega), engWinTakes_local _ ho]
  rw [busRead_eq]
  unfold busGet
  rw [settle_other _ (view_engine n o)]
  dsimp only
  rw [if_neg (by decide), hr, engWinRead_local _ _ ho, lanes_local n ho h4]

end

/-! ### Group windows -/

section
variable {d : Device} {q : Req} {g : Fin 64} {o len : Nat}

theorem view_group (g : Fin 64) (o : Nat) : delayView (0x14000000 + 0x100000 * g.val + o) = false :=
  decide_eq_false (by omega)

theorem absentAt_group (ho : o < 0x100000) : absentAt d (0x14000000 + 0x100000 * g.val + o) = false := by
  unfold absentAt
  rw [area_group g o ho]

theorem groupEmpty_group (ho : o < 0x100000) :
    groupEmpty d (0x14000000 + 0x100000 * g.val + o) = decide (members d g.val = []) := by
  unfold groupEmpty
  rw [area_group g o ho]

/-- A write of up to a word through a group window is one write of that word (R181). -/
theorem busWrite_groupWord (hl : len ≠ 8) (v : Nat) : busWrite d q (0x14000000 + 0x100000 * g.val + o) len v =
    written (writeWord (found d (0x14000000 + 0x100000 * g.val + o)) q (0x14000000 + 0x100000 * g.val + o) len
      (BitVec.ofNat 32 v) .sample) q (0x14000000 + 0x100000 * g.val + o) := by
  rw [busWrite_eq]
  unfold busPut
  rw [settle_other _ (view_group g o), if_neg hl]

/-- A write through the window of a group without members has no effect (R182). -/
theorem busWrite_emptyGroup {v : Nat} (ho : o < 0x100000) (hl : len ≠ 8)
    (hm : members (found d (0x14000000 + 0x100000 * g.val + o)) g.val = []) :
    busWrite d q (0x14000000 + 0x100000 * g.val + o) len v =
      written (ignored (found d (0x14000000 + 0x100000 * g.val + o))) q (0x14000000 + 0x100000 * g.val + o) := by
  rw [busWrite_groupWord hl]
  unfold writeWord
  rw [absentAt_group ho, groupEmpty_group ho]
  simp [hm]

/-- A word written through a group window reaches every member, where none refuses it (R181). -/
theorem busWrite_group {v : Nat} (ho : o < 0x100000)
    (hm : members (found d (0x14000000 + 0x100000 * g.val + o)) g.val ≠ [])
    (hr : ∀ m ∈ members (found d (0x14000000 + 0x100000 * g.val + o)) g.val,
      engRefusal (found d (0x14000000 + 0x100000 * g.val + o)) m o = none) :
    busWrite d q (0x14000000 + 0x100000 * g.val + o) 4 v =
      written ((members (found d (0x14000000 + 0x100000 * g.val + o)) g.val).foldl
        (fun d m => engWinPut d m o 4 (BitVec.ofNat 32 v) .sample) (found d (0x14000000 + 0x100000 * g.val + o)))
        q (0x14000000 + 0x100000 * g.val + o) := by
  rw [busWrite_groupWord (by decide)]
  generalize found d (0x14000000 + 0x100000 * g.val + o) = e at hm hr ⊢
  have hany : (members e g.val).any (fun m => (engRefusal e m o).isSome) = false :=
    List.any_eq_false.2 (fun m hmem => by simp [hr m hmem])
  unfold writeWord
  rw [absentAt_group ho, groupEmpty_group ho, area_group g o ho]
  simp [hm, groupWrite, hany]

end

/-! ### The commands -/

/-- A word written through the window of a present engine that does not refuse it, by the command that names the access. -/
theorem windowWrite_completes {c : Instr} {s : State} {q : Req} {n : Fin 64} {o v : Nat} {x : Word}
    (hx : exec c s = onAccess s (.write q (engWindow n + o) 4 v)) (h : mayReach s.dev = true) (ho : o < 0x100000)
    (hn : n.val < engCount s.dev) (hr : engRefusal (found s.dev (engWindow n + o)) (engProc n) o = none)
    (hv : BitVec.ofNat 32 v = x) :
    completes c s (written (engWinPut (found s.dev (engWindow n + o)) (engProc n) o 4 x .sample) q (engWindow n + o)) :=
  completes_access h hx (hv ▸ busWrite_engine ho hn hr)

theorem widthBytes_below {wd : Width} (h : wd ≠ .w64) : widthBytes wd ≠ 8 := by
  cases wd with
  | w64 => exact absurd rfl h
  | w8 | w16 | w32 => decide

/-- Settles O51, a clause per command: one access of an engine's or of a group's window. -/
theorem windowAccessesComplete : Obligations.WindowAccessesComplete := by
  unfold Obligations.WindowAccessesComplete
  intro s q n g o o18 o16 o20 v x b wd h
  have ho20 : o20.toNat < 0x100000 := o20.isLt
  refine ⟨fun hn => ⟨fun ho hr => ?register, fun hr => ?tagctl, fun h4 ho hc => ⟨?localWrite, ?localRead⟩,
    fun h4 hr => ?program⟩, fun h4 hm hr => ?group, fun hw hm => ?emptyGroup⟩
  case register =>
    refine windowWrite_completes ?_ h (by omega) hn hr ((BitVec.ofNat_toNat 32 v).trans v.setWidth_eq)
    rw [← Nat.add_assoc]
    rfl
  case tagctl => exact windowWrite_completes rfl h (by decide) hn hr ((BitVec.ofNat_toNat 32 v).trans v.setWidth_eq)
  case localWrite =>
    exact windowWrite_completes rfl h (by omega) hn (engRefusal_local hc ho) rfl
  case localRead => exact completes_access h rfl (busRead_local ho h4 hn)
  case program =>
    have ho16 : o16.toNat < 0x10000 := o16.isLt
    refine windowWrite_completes ?_ h (by split <;> omega) hn hr rfl
    rw [← Nat.add_assoc]
    rfl
  case group => exact completes_access h rfl (busWrite_group ho20 hm hr)
  case emptyGroup =>
    exact completes_access h rfl (busWrite_emptyGroup ho20 (widthBytes_below hw) hm)

end Sys2Proof.Machine
end

section
/-! PROOFS. The frame of the words that write one register, of the branches and of the accumulator words (R121, R124, R127,
R128, R144, R145, R151). -/

namespace Sys2Proof.Machine

/-! ### What a word of these kinds leaves of a record and of the device -/

/-- The part of a record that these words leave: it holds everything but what sequencing and results change. -/
def fixedPart (e : Engine) : Engine :=
  { e with
    w := Work.reset, pend := [], div := none, pc := 0, npc := 0, cur := 0, cyc := 0, repLeft := 0, repCur := 0, curt := 0,
    tierStk := [], lc := 0, acc := [], pair := none, statV := false, statSat := false, statDz := false, fTag := false,
    warn := false }

/-- A record with the fixed part of another is that record with its own sequencing and results. -/
theorem eq_of_fixedPart {e f : Engine} (h : fixedPart f = fixedPart e) : f = { e with
    w := f.w, pend := f.pend, div := f.div, pc := f.pc, npc := f.npc, cur := f.cur, cyc := f.cyc, repLeft := f.repLeft,
    repCur := f.repCur, curt := f.curt, tierStk := f.tierStk, lc := f.lc, acc := f.acc, pair := f.pair,
    statV := f.statV, statSat := f.statSat, statDz := f.statDz, fTag := f.fTag, warn := f.warn } := by
  calc f = { fixedPart f with
    w := f.w, pend := f.pend, div := f.div, pc := f.pc, npc := f.npc, cur := f.cur, cyc := f.cyc, repLeft := f.repLeft,
    repCur := f.repCur, curt := f.curt, tierStk := f.tierStk, lc := f.lc, acc := f.acc, pair := f.pair,
    statV := f.statV, statSat := f.statSat, statDz := f.statDz, fTag := f.fTag, warn := f.warn } := rfl
    _ = _ := by rw [h]; rfl

/-- The device apart from its processors and their activity counts. -/
def restOf (d : Device) : Device := { d with ag := Vector.replicate 68 (Engine.reset 0), act := [] }

theorem eq_of_restOf {d e : Device} (h : restOf e = restOf d) : e = { d with ag := e.ag, act := e.act } := by
  calc e = { restOf e with ag := e.ag, act := e.act } := rfl
    _ = _ := by rw [h]; rfl

/-- From `d` to `e` the device changes in the record of processor `n` alone, there but for the fixed part, and, for a control
core, in the activity counts. -/
structure RecordOnly (n : Fin 68) (d e : Device) : Prop where
  rest : restOf e = restOf d
  act : isCc n = false → e.act = d.act
  others : ∀ m, m ≠ n → ag e m = ag d m
  fixed : fixedPart (ag e n) = fixedPart (ag d n)

section
variable {n : Fin 68} {d e f : Device}

theorem RecordOnly.refl (n : Fin 68) (d : Device) : RecordOnly n d d := ⟨rfl, fun _ => rfl, fun _ _ => rfl, rfl⟩

theorem RecordOnly.trans (h : RecordOnly n d e) (g : RecordOnly n e f) : RecordOnly n d f :=
  ⟨g.rest.trans h.rest, fun hn => (g.act hn).trans (h.act hn), fun m hm => (g.others m hm).trans (h.others m hm),
    g.fixed.trans h.fixed⟩

theorem recordOnly_setAg {r : Engine} (h : fixedPart r = fixedPart (ag d n)) : RecordOnly n d (setAg d n r) :=
  ⟨rfl, fun _ => rfl, fun _ hm => ag_setAg_other d r hm.symm, by rw [ag_setAg_same, h]⟩

theorem recordOnly_tally (k j : Nat) (h : isCc n = true) : RecordOnly n d (tally d k j) :=
  ⟨rfl, fun hn => absurd (hn.symm.trans h) (by decide), fun _ _ => rfl, rfl⟩

end

/-! ### Issue -/

theorem fixedPart_fetched (e : Engine) : fixedPart (fetched e) = fixedPart e := by
  rw [fetched_eq, finishDiv_frame]
  rfl

theorem fixedPart_loopEnd (x : CoreX) (e : Engine) : fixedPart (loopEnd x e) = fixedPart e := by
  unfold loopEnd
  split
  · split <;> rfl
  · rfl

theorem recordOnly_fetchWord (d : Device) (n : Fin 68) : RecordOnly n d (fetchWord d n) := by
  unfold fetchWord
  dsimp only
  split
  · next hn =>
    exact (recordOnly_setAg ((fixedPart_loopEnd _ _).trans (fixedPart_fetched _))).trans (recordOnly_tally 7 1 hn)
  · exact recordOnly_setAg (fixedPart_fetched _)

theorem recordOnly_issued (d : Device) (i : Issue) : RecordOnly i.who d (issued d i) := by
  unfold issued
  split
  · exact .refl _ _
  · exact (recordOnly_fetchWord d i.who).trans (recordOnly_setAg rfl)
  · exact recordOnly_fetchWord d i.who

theorem recordOnly_pairDone (d : Device) (i : Issue) : RecordOnly i.who d (pairDone d i) := by
  unfold pairDone
  split
  · exact recordOnly_setAg rfl
  · exact .refl _ _

/-- A word changes what its effect and its issue change. -/
theorem recordOnly_word {d : Device} {i : Issue} {f : Device → Device}
    (h : RecordOnly i.who (issued d i) (f (issued d i))) : RecordOnly i.who d (wordEffect d i f) :=
  ((recordOnly_issued d i).trans h).trans (recordOnly_pairDone _ i)

/-- What results are read from in a record: the working registers, and the status and failure bits. -/
def results (e : Engine) : Work × Bool × Bool × Bool × Bool := (e.w, e.statDz, e.statV, e.statSat, e.fTag)

theorem results_loopEnd (x : CoreX) (e : Engine) : results (loopEnd x e) = results e := by
  unfold loopEnd
  split
  · split <;> rfl
  · rfl

/-- With no load and no division outstanding a fetch changes no register and no status bit. -/
theorem results_fetched {e : Engine} (hp : e.pend = []) (hd : e.div = none) : results (fetched e) = results e := by
  rw [fetched_eq, finishDiv_none hd]
  simp [results, landedWork, hp]

theorem results_fetchWord {d : Device} {n : Fin 68} (hp : (ag d n).pend = []) (hd : (ag d n).div = none) :
    results (ag (fetchWord d n) n) = results (ag d n) := by
  unfold fetchWord
  dsimp only
  split
  · rw [ag_congr (tally_proc _ _ _), ag_setAg_same, results_loopEnd, results_fetched hp hd]
  · rw [ag_setAg_same, results_fetched hp hd]

theorem results_issued {d : Device} {i : Issue} (hp : (ag d i.who).pend = []) (hd : (ag d i.who).div = none) :
    results (ag (issued d i) i.who) = results (ag d i.who) := by
  unfold issued
  split
  · rfl
  · rw [startPair, ag_setAg_same]
    exact results_fetchWord hp hd
  · exact results_fetchWord hp hd

theorem results_pairDone (d : Device) (i : Issue) : results (ag (pairDone d i) i.who) = results (ag d i.who) := by
  unfold pairDone
  split
  · rw [endPair, ag_setAg_same]; rfl
  · rfl

/-- An engine's loop count stands while a word issues. -/
theorem lc_issued {d : Device} {i : Issue} (hn : isCc i.who = false) : (ag (issued d i) i.who).lc = (ag d i.who).lc := by
  have hf : (ag (fetchWord d i.who) i.who).lc = (ag d i.who).lc := by
    rw [fetchWord_engine d hn, ag_setAg_same, fetched_eq, finishDiv_frame]
  unfold issued
  split
  · rfl
  · rw [startPair, ag_setAg_same]
    exact hf
  · exact hf

theorem lc_pairDone (d : Device) (i : Issue) : (ag (pairDone d i) i.who).lc = (ag d i.who).lc := by
  unfold pairDone
  split
  · rw [endPair, ag_setAg_same]
  · rfl

/-! ### Words that write one register -/

/-- The record once a result with its status bits has been written to a register (R124, R128, R130, R133). -/
def withResult (e : Engine) (g : GReg) (v : TWord) (ov sat fail : Bool) : Engine :=
  { e with
    w := writeG e.chk e.w g v
    pend := e.pend.filter (fun l => !decide (l.reg = g))
    statV := e.statV || ov
    statSat := e.statSat || sat
    fTag := e.fTag || fail
    warn := e.warn || fail }

/-- A command completes as a word that writes one result to `g`. -/
def WritesResult (c : Instr) (s : State) (i : Issue) (g : GReg) : Prop :=
  ∃ v ov sat fail, completes c s (wordEffect s.dev i (fun d =>
    setAg d i.who (withResult (ag d i.who) g v ov sat fail)))

theorem wrReg_eq (d : Device) (n : Fin 68) (g : GReg) (v : TWord) :
    wrReg d n g v = setAg d n (withResult (ag d n) g v false false false) := by
  simp [wrReg, withResult, supersede]

theorem putResult_eq (d : Device) (n : Fin 68) (g : GReg) (r : Narrowed) (t : Tag × Bool) :
    putResult d n g r t = setAg d n (withResult (ag d n) g ⟨BitVec.ofInt 32 r.r, t.1⟩ r.v r.sat t.2) :=
  resultIsWritten d n g r t

section
variable {c : Instr} {s : State} {i : Issue} {g ga gb : GReg} {b : Src} {ok : Bool} (h : mayIssue s.dev i true = true)
include h

/-- A word whose operation writes a register as MOV does. -/
theorem writes_reg {v : Device → TWord} (hok : ok = true)
    (hx : exec c s = onDev s (fun d => withWord i ok true d (fun d => wrReg d i.who g (v d)))) : WritesResult c s i g :=
  ⟨v (issued s.dev i), false, false, false, form_completes h hok hx (wrReg_eq _ _ _ _)⟩

/-- A word whose operation writes a narrowed result. -/
theorem writes_result {r : Device → Narrowed} {t : Device → Tag × Bool} (hok : ok = true)
    (hx : exec c s = onDev s (fun d => withWord i ok true d (fun d => putResult d i.who g (r d) (t d)))) :
    WritesResult c s i g :=
  ⟨_, _, _, _, form_completes h hok hx (putResult_eq _ _ _ _ _)⟩

theorem writes_alu2 {rule : KindRule} {f : Int → Int → Narrowed} (hok : ok = true)
    (hx : exec c s = onDev s (alu2 i ok rule g ga b f)) : WritesResult c s i g := writes_result h hok hx

theorem writes_alu1 {f : Int → Narrowed} (hok : ok = true) (hx : exec c s = onDev s (alu1 i ok g ga f)) :
    WritesResult c s i g := writes_result h hok hx

theorem writes_cmp {f : Int → Int → Bool} (hok : ok = true) (hx : exec c s = onDev s (aluCmp i ok g ga b f)) :
    WritesResult c s i g := writes_result h hok hx

theorem writes_bits {f : Word → Word → Word} (hok : ok = true) (hx : exec c s = onDev s (aluBits i ok g ga gb f)) :
    WritesResult c s i g := writes_result h hok hx

/-- A shift is defined as a long word, or with D registers and an immediate count (R120). -/
theorem writes_shift {k : Count} {f : Word → Int → Narrowed} (hok : (i.long || (g.isD && ga.isD && k.isImm)) = true)
    (hx : exec c s = onDev s (aluShift i g ga k f)) : WritesResult c s i g := by
  refine writes_result h ?_ hx
  simp only [long_eq, isD_eq, Bool.or_eq_true, Bool.and_eq_true, decide_eq_true_eq] at hok
  cases k <;> simp [shortOk, Count.isImm] at hok ⊢ <;> tauto

end

/-- A form of three G registers is defined as a long word, or with D registers (R120). -/
theorem shortOk_triple {i : Issue} {gd ga gb : GReg} (h : (i.long || (gd.isD && ga.isD && gb.isD)) = true) :
    shortOk i [gd, ga, gb] = true := by
  simpa [shortOk, long_eq, isD_eq, and_assoc] using h

theorem get_set_other {α : Type} {k : Nat} (v : Vector α k) {i j : Fin k} (x : α) (h : j ≠ i) : (v.set i x)[j] = v[j] :=
  Vector.getElem_set_ne i.isLt j.isLt (Fin.val_ne_of_ne h.symm)

/-- A part of another accumulator reads as before. -/
theorem readG_setQ_other {w : Work} {n : Fin 4} {x : QReg} {h : GReg} (hq : partOfQ n h = false) :
    readG { w with q := w.q.set n x } h = readG w h := by
  cases h with
  | ql j | qh j | qg j =>
    have hj : j ≠ n := by simpa [partOfQ] using hq
    simp only [readG, get_set_other w.q x hj]
  | _ => rfl

/-- A register reads as before where another one is written, which shares no accumulator with it (R95, R128). -/
theorem readG_writeG_other {chk : Bool} {w : Work} {v : TWord} {g h : GReg} (hne : h ≠ g)
    (hq : ∀ n, ¬ (partOfQ n g = true ∧ partOfQ n h = true)) : readG (writeG chk w g v) h = readG w h := by
  cases g with
  | d i =>
    cases h with
    | d j => simp only [readG, writeG, get_set_other _ _ (fun e : j = i => hne (congrArg _ e))]
    | _ => rfl
  | a i =>
    cases h with
    | a j => simp only [readG, writeG, get_set_other _ _ (fun e : j = i => hne (congrArg _ e))]
    | _ => rfl
  | m i =>
    cases h with
    | m j => simp only [readG, writeG, get_set_other _ _ (fun e : j = i => hne (congrArg _ e))]
    | _ => rfl
  | l i =>
    cases h with
    | l j => simp only [readG, writeG, get_set_other _ _ (fun e : j = i => hne (congrArg _ e))]
    | _ => rfl
  | e i =>
    cases h with
    | e j => simp only [readG, writeG, get_set_other _ _ (fun e : j = i => hne (congrArg _ e))]
    | _ => rfl
  | ql i | qh i | qg i =>
    exact readG_setQ_other (Bool.eq_false_iff.2 (fun hp => hq i ⟨decide_eq_true rfl, hp⟩))

/-- Each of the words that write one register completes as such a word. -/
theorem registerWord_writes {c : Instr} {s : State} {i : Issue} {sat : Bool} {gd ga gb : GReg} {k : Kind} {v : Word}
    {b : Src} {n : Count} {qa : Fin 4} {x : BitVec 8} {bit : BitRef}
    (hc : c ∈ [Instr.mov i gd ga, .movi i gd k v, .tagxR i gd ga, .tagxW i gd ga x, .tagxS i gd ga gb, .add i sat gd ga b,
      .sub i sat gd ga b, .neg i sat gd ga, .abs i sat gd ga, .min i gd ga b, .max i gd ga b, .cmplt i gd ga b,
      .cmple i gd ga b, .cmpeq i gd ga b, .and i gd ga gb, .or i gd ga gb, .xor i gd ga gb, .not i gd ga,
      .shl i sat gd ga n, .shra i sat gd ga n, .shrl i gd ga n, .mul i sat gd ga gb, .muli i sat gd ga gb,
      .qext i sat gd qa x, .btst i gd bit])
    (hw : c.wf = true) (h : mayIssue s.dev i true = true) : WritesResult c s i gd := by
  simp only [List.mem_cons, List.not_mem_nil, or_false] at hc
  rcases hc with rfl | rfl | rfl | rfl | rfl | rfl | rfl | rfl | rfl | rfl | rfl | rfl | rfl | rfl | rfl | rfl | rfl | rfl |
    rfl | rfl | rfl | rfl | rfl | rfl | rfl
  exacts [writes_reg h (shortOk_pair hw) rfl, writes_reg h (moviOk hw) rfl, writes_reg h hw rfl, writes_reg h hw rfl,
    writes_reg h hw rfl, writes_alu2 h (shortOk_src hw) rfl, writes_alu2 h (shortOk_src hw) rfl,
    writes_alu1 h (shortOk_pair hw) rfl, writes_alu1 h (shortOk_pair hw) rfl, writes_alu2 h (shortOk_src hw) rfl,
    writes_alu2 h (shortOk_src hw) rfl, writes_cmp h (shortOk_src hw) rfl, writes_cmp h hw rfl,
    writes_cmp h (shortOk_src hw) rfl, writes_bits h (shortOk_triple hw) rfl, writes_bits h (shortOk_triple hw) rfl,
    writes_bits h (shortOk_triple hw) rfl, writes_alu1 h hw rfl, writes_shift h hw rfl, writes_shift h hw rfl,
    writes_shift h hw rfl, writes_alu2 h (shortOk_triple hw) rfl, writes_alu2 h hw rfl, writes_result h hw rfl,
    writes_reg h (btstOk hw) rfl]

/-- What a command's own outcome says of the state that follows it. -/
theorem eq_of_completes {c : Instr} {s t : State} {d : Device} (h : completes c s d) (ht : exec c s = .next t) :
    t = { s with dev := d } := by
  rw [h] at ht
  exact (Host.Outcome.next.inj ht).symm

/-- Settles O34: `registerWord_writes` gives the one update of the record, and issue and the end of the word are frames of
their own. -/
theorem registerWordFrame : Obligations.RegisterWordFrame := by
  unfold Obligations.RegisterWordFrame
  intro s t c i sat gd ga gb k v b n qa x bit hc hw h ht
  obtain ⟨y, ov, st, fail, hy⟩ := registerWord_writes hc hw h
  rw [eq_of_completes hy ht]
  have frame := recordOnly_word (d := s.dev) (i := i) (f := fun d =>
    setAg d i.who (withResult (ag d i.who) gd y ov st fail)) (recordOnly_setAg rfl)
  refine ⟨rfl, eq_of_restOf frame.rest, frame.act, frame.others, eq_of_fixedPart frame.fixed, fun hn => ?loopCount,
    fun hp hd => ?registers⟩
  case loopCount =>
    dsimp only [wordEffect]
    rw [lc_pairDone, ag_setAg_same]
    exact lc_issued hn
  case registers =>
    have hi := results_issued (d := s.dev) (i := i) hp hd
    have hr := results_pairDone (setAg (issued s.dev i) i.who (withResult (ag (issued s.dev i) i.who) gd y ov st fail)) i
    simp only [ag_setAg_same, results, Prod.mk.injEq] at hi hr
    obtain ⟨hwork, hdz, -⟩ := hi
    obtain ⟨hwork', hdz', -⟩ := hr
    dsimp only [wordEffect]
    refine ⟨hdz'.trans hdz, fun g hne hq => ?_⟩
    rw [hwork', withResult, readG_writeG_other hne hq, hwork]

/-! ### Branches and accumulator words -/

/-- From `d` to `e` processor `n` sequences: no register and no status bit changes. -/
structure Sequences (n : Fin 68) (d e : Device) : Prop where
  record : RecordOnly n d e
  same : results (ag e n) = results (ag d n)

/-- From `d` to `e` processor `n` writes accumulator `q` at most, and status bits but DZ. -/
structure Accumulates (n : Fin 68) (q : Fin 4) (d e : Device) : Prop where
  record : RecordOnly n d e
  dz : (ag e n).statDz = (ag d n).statDz
  others : ∀ h, partOfQ q h = false → readG (ag e n).w h = readG (ag d n).w h

theorem Sequences.refl (n : Fin 68) (d : Device) : Sequences n d d := ⟨.refl n d, rfl⟩

theorem sequences_setAg {n : Fin 68} {d : Device} {r : Engine} (hf : fixedPart r = fixedPart (ag d n))
    (hr : results r = results (ag d n)) : Sequences n d (setAg d n r) :=
  ⟨recordOnly_setAg hf, by rw [ag_setAg_same, hr]⟩

theorem Sequences.trans {n : Fin 68} {d e f : Device} (h : Sequences n d e) (g : Sequences n e f) : Sequences n d f :=
  ⟨h.record.trans g.record, g.same.trans h.same⟩

theorem sequences_jump (n : Fin 68) (d : Device) (target : Nat) : Sequences n d (jump d n target) := sequences_setAg rfl rfl

theorem sequences_countDown (n : Fin 68) (d : Device) :
    Sequences n d (setAg d n { ag d n with lc := (ag d n).lc - 1 }) := sequences_setAg rfl rfl

section
variable {c : Instr} {s : State} {i : Issue}

theorem mayIssue_branch {rep : Bool} (h : mayIssue s.dev i (decide (c = .nop i)) = true) (hr : decide (c = .nop i) = rep) :
    mayIssue s.dev i rep = true := hr ▸ h

/-- Each branch sequences, taken or not. -/
theorem branch_sequences {g : GReg} {target : Nat}
    (hc : c ∈ [Instr.nop i, .br i target, .brz i g target, .brnz i g target, .brlc i target])
    (h : mayIssue s.dev i (decide (c = .nop i)) = true) (hw : c.wf = true) :
    ∃ f : Device → Device, completes c s (wordEffect s.dev i f) ∧ ∀ d, Sequences i.who d (f d) := by
  have jumps := fun d => sequences_jump i.who d target
  simp only [List.mem_cons, List.not_mem_nil, or_false] at hc
  rcases hc with rfl | rfl | rfl | rfl | rfl
  · exact ⟨fun d => d, form_completes (mayIssue_branch h (decide_eq_true rfl)) rfl rfl rfl, fun d => .refl _ d⟩
  all_goals have hm := mayIssue_branch h (rep := false) (by simp)
  · exact ⟨_, form_completes hm (flowOk hw) rfl rfl, jumps⟩
  · refine ⟨fun d => if (readG (srcWork d i) g).p = 0 then jump d i.who target else d,
      form_completes hm (flowOk hw) rfl rfl, fun d => ?_⟩
    dsimp only
    split
    · exact jumps d
    · exact .refl _ d
  · refine ⟨fun d => if (readG (srcWork d i) g).p = 0 then d else jump d i.who target,
      form_completes hm (flowOk hw) rfl rfl, fun d => ?_⟩
    dsimp only
    split
    · exact .refl _ d
    · exact jumps d
  · refine ⟨fun d => if (ag d i.who).lc = 0 then d
      else jump (setAg d i.who { ag d i.who with lc := (ag d i.who).lc - 1 }) i.who target,
      form_completes hm (flowOk hw) rfl rfl, fun d => ?_⟩
    dsimp only
    split
    · exact .refl _ d
    · exact (sequences_countDown i.who d).trans (jumps _)

end

/-! ### Accumulator words -/

section
variable {n : Fin 68} {q : Fin 4} {d e : Device}

theorem accumulates_wrQ (v : QReg) : Accumulates n q d (wrQ d n q v) :=
  ⟨recordOnly_setAg rfl, by rw [wrQ, ag_setAg_same]; rfl, fun h hh => by
    rw [wrQ, ag_setAg_same]
    exact readG_setQ_other hh⟩

theorem Accumulates.orStat (h : Accumulates n q d e) (v sat : Bool) : Accumulates n q d (orStat e n v sat) :=
  ⟨h.record.trans (recordOnly_setAg rfl), by rw [Machine.orStat, ag_setAg_same]; exact h.dz,
    by rw [Machine.orStat, ag_setAg_same]; exact h.others⟩

theorem Accumulates.tagFault (h : Accumulates n q d e) (b : Bool) : Accumulates n q d (tagFault e n b) :=
  ⟨h.record.trans (recordOnly_setAg rfl), by rw [ag_tagFault]; exact h.dz, by rw [ag_tagFault]; exact h.others⟩

end

/-- Each accumulator word writes Qd alone. -/
theorem accumulatorWord_accumulates {c : Instr} {s : State} {i : Issue} {sat : Bool} {g : GReg} {qd qa qb : Fin 4}
    {x : BitVec 8} (hc : c ∈ [Instr.qclr i qd, .qld i qd g, .qadd i sat qd qa qb, .qsub i sat qd qa qb,
      .qshl i sat qd qa x, .qshra i sat qd qa x])
    (h : mayIssue s.dev i true = true) (hw : c.wf = true) :
    ∃ f : Device → Device, completes c s (wordEffect s.dev i f) ∧ ∀ d, Accumulates i.who qd d (f d) := by
  simp only [List.mem_cons, List.not_mem_nil, or_false] at hc
  rcases hc with rfl | rfl | rfl | rfl | rfl | rfl
  exacts [⟨_, form_completes h hw rfl rfl, fun d => accumulates_wrQ _⟩,
    ⟨_, form_completes h hw rfl rfl, fun d => accumulates_wrQ _⟩,
    ⟨_, form_completes h hw rfl rfl, fun d => ((accumulates_wrQ _).orStat _ _).tagFault _⟩,
    ⟨_, form_completes h hw rfl rfl, fun d => ((accumulates_wrQ _).orStat _ _).tagFault _⟩,
    ⟨_, form_completes h hw rfl rfl, fun d => (accumulates_wrQ _).orStat _ _⟩,
    ⟨_, form_completes h hw rfl rfl, fun d => (accumulates_wrQ _).orStat _ _⟩]

/-- No accumulator word is a branch. -/
theorem accumulatorWord_not_branch {c : Instr} {i : Issue} {sat : Bool} {g : GReg} {qd qa qb : Fin 4} {x : BitVec 8}
    {target : Nat} (hc : c ∈ [Instr.qclr i qd, .qld i qd g, .qadd i sat qd qa qb, .qsub i sat qd qa qb,
      .qshl i sat qd qa x, .qshra i sat qd qa x]) :
    c ∉ [Instr.nop i, .br i target, .brz i g target, .brnz i g target, .brlc i target] := by
  simp only [List.mem_cons, List.not_mem_nil, or_false] at hc
  rcases hc with rfl | rfl | rfl | rfl | rfl | rfl <;> simp

/-- A word that sequences changes no result of a processor with nothing outstanding. -/
theorem results_word {d : Device} {i : Issue} {f : Device → Device} (hf : Sequences i.who (issued d i) (f (issued d i)))
    (hp : (ag d i.who).pend = []) (hd : (ag d i.who).div = none) :
    results (ag (wordEffect d i f) i.who) = results (ag d i.who) := by
  rw [wordEffect, results_pairDone, hf.same, results_issued hp hd]

/-- A word that accumulates changes no register beside its accumulator where nothing is outstanding. -/
theorem accumulates_word {d : Device} {i : Issue} {q : Fin 4} {f : Device → Device}
    (hf : Accumulates i.who q (issued d i) (f (issued d i))) (hp : (ag d i.who).pend = []) (hd : (ag d i.who).div = none) :
    (ag (wordEffect d i f) i.who).statDz = (ag d i.who).statDz ∧
      ∀ h, partOfQ q h = false → readG (ag (wordEffect d i f) i.who).w h = readG (ag d i.who).w h := by
  have hi := results_issued (d := d) (i := i) hp hd
  have hr := results_pairDone (f (issued d i)) i
  simp only [results, Prod.mk.injEq] at hi hr
  obtain ⟨hwork, hdz, -⟩ := hi
  obtain ⟨hwork', hdz', -⟩ := hr
  rw [wordEffect, hwork', hdz', hf.dz, hdz, ← hwork]
  exact ⟨rfl, hf.others⟩

/-- What sequences writes no accumulator. -/
theorem Sequences.accumulates {n : Fin 68} {d e : Device} (h : Sequences n d e) (q : Fin 4) : Accumulates n q d e := by
  have same := h.same
  simp only [results, Prod.mk.injEq] at same
  obtain ⟨hwork, hdz, -⟩ := same
  exact ⟨h.record, hdz, fun h _ => by rw [hwork]⟩

/-- Records with one fixed part agree in flags, captured bits, reservation, phase, return stack and faults. -/
theorem fields_of_fixedPart {e f : Engine} (h : fixedPart f = fixedPart e) :
    f.flags = e.flags ∧ f.captured = e.captured ∧ f.resv = e.resv ∧ f.phase = e.phase ∧ f.statRsw = e.statRsw ∧
      f.rs = e.rs ∧ f.rsTop = e.rsTop ∧ f.rsDepth = e.rsDepth ∧ f.fIll = e.fIll ∧ f.fAddr = e.fAddr ∧ f.fPar = e.fPar :=
  ⟨(congrArg Engine.flags h :), (congrArg Engine.captured h :), (congrArg Engine.resv h :), (congrArg Engine.phase h :),
    (congrArg Engine.statRsw h :), (congrArg Engine.rs h :), (congrArg Engine.rsTop h :), (congrArg Engine.rsDepth h :),
    (congrArg Engine.fIll h :), (congrArg Engine.fAddr h :), (congrArg Engine.fPar h :)⟩

/-- Settles O35: a branch sequences, an accumulator word accumulates, and the frame of issue holds around either. -/
theorem branchAndAccumulatorFrame : Obligations.BranchAndAccumulatorFrame := by
  unfold Obligations.BranchAndAccumulatorFrame
  intro s t c i sat g qd qa qb x target branches words hc hw ht
  have effect : ∃ f : Device → Device, completes c s (wordEffect s.dev i f) ∧
      (∀ d, Accumulates i.who qd d (f d)) ∧ (c ∈ branches → ∀ d, Sequences i.who d (f d)) := by
    rcases hc with ⟨hb, h⟩ | ⟨ha, h⟩
    · obtain ⟨f, hf, hs⟩ := branch_sequences hb h hw
      exact ⟨f, hf, fun d => (hs d).accumulates qd, fun _ => hs⟩
    · obtain ⟨f, hf, hs⟩ := accumulatorWord_accumulates ha h hw
      exact ⟨f, hf, hs, fun hb => absurd hb (accumulatorWord_not_branch ha)⟩
  obtain ⟨f, hf, hacc, hseq⟩ := effect
  rw [eq_of_completes hf ht]
  have frame := recordOnly_word (hacc (issued s.dev i)).record
  obtain ⟨hflags, hcapt, hresv, hphase, hrsw, hrs, htop, hdepth, hill, haddr, hpar⟩ := fields_of_fixedPart frame.fixed
  refine ⟨rfl, eq_of_restOf frame.rest, frame.act, frame.others, hflags, hcapt, hresv, hphase, hrsw, hrs, htop, hdepth, hill,
    haddr, hpar, fun hp hd => ?quiet⟩
  case quiet =>
    obtain ⟨hdz, hother⟩ := accumulates_word (hacc (issued s.dev i)) hp hd
    refine ⟨hdz, fun hb => ?_, hother⟩
    have same := results_word (hseq hb (issued s.dev i)) hp hd
    simp only [results, Prod.mk.injEq] at same
    obtain ⟨hwork, -, hv, hsat, htag⟩ := same
    exact ⟨hwork, hv, hsat, htag⟩

end Sys2Proof.Machine
end

section
/-! PROOFS. Logical operations, shifts, products, divisions, and words over a quad: a word in a form that is defined issues and
has its operation's effect (R129, R133, R145 to R149). -/

namespace Sys2Proof.Machine

/-! ### Logic and shifts -/

/-- The complement of a word as a signed integer. -/
theorem int_complement (p : Word) : (~~~p).toInt = -p.toInt - 1 := by
  simp only [BitVec.toInt_eq_toNat_cond, BitVec.toNat_not]
  omega

/-- A shift is defined as a long word, or with D registers and an immediate count (R120). -/
theorem shiftOk {i : Issue} {gd ga : GReg} {k : Count} (h : (i.long || (gd.isD && ga.isD && k.isImm)) = true) :
    (shortOk i [gd, ga] && (decide (i.slot = .long) || k.isImm)) = true := by
  simp only [shortOk, long_eq, isD_eq, List.all_cons, List.all_nil, Bool.and_true, Bool.or_eq_true, Bool.and_eq_true,
    decide_eq_true_eq] at h ⊢
  tauto

/-- A shift completes with its narrowed result, the count an immediate or in a register (R145). -/
theorem shift_completes {c : Instr} {s : State} {i : Issue} {gd ga : GReg} {k : Count} {f : Word → Int → Narrowed}
    (h : mayIssue s.dev i true = true) (hw : (i.long || (gd.isD && ga.isD && k.isImm)) = true)
    (hx : exec c s = onDev s (aluShift i gd ga k f)) :
    completes c s (wordEffect s.dev i (fun d => putResult d i.who gd
      (f (readG (srcWork d i) ga).p (readCount (srcWork d i) k)) (operandTag d i ga, false))) := by
  cases k with
  | imm => exact form_completes h (shiftOk hw) hx rfl
  | reg => exact form_completes h (shiftOk hw) hx rfl

/-- Settles O3, a clause per word: the form is defined, and the operation's result is the one stated. -/
theorem logicAndShiftsComplete : Obligations.LogicAndShiftsComplete := by
  unfold Obligations.LogicAndShiftsComplete
  intro s i sat gd ga gb k h
  refine ⟨fun hw => form_completes h (shortOk_triple hw) rfl rfl, fun hw => form_completes h (shortOk_triple hw) rfl rfl,
    fun hw => form_completes h (shortOk_triple hw) rfl rfl, fun hw => form_completes h hw rfl ?not,
    fun hw => shift_completes (f := fun x n => shlSigned 32 sat x.toInt n) h hw rfl,
    fun hw => shift_completes (f := fun x n => shraSigned 32 sat x.toInt n) h hw rfl,
    fun hw => shift_completes (f := fun x n => exact (shrlSigned x n).toInt) h hw rfl⟩
  case not => exact congrArg (fun r => putResult _ _ _ (exact r) _) (int_complement _).symm

/-! ### Products and quads -/

/-- Settles O4, a clause per word: DIV and DIVI, which no REP repeats, differ by their quotient alone. -/
theorem productsAndDivisionsComplete : Obligations.ProductsAndDivisionsComplete := by
  unfold Obligations.ProductsAndDivisionsComplete
  intro s i sat gd ga gb
  refine ⟨fun h => ⟨fun hw => form_completes h (shortOk_triple hw) rfl rfl, fun hw => form_completes h hw rfl rfl⟩,
    fun h hl frac => ?division⟩
  case division => cases frac <;> exact form_completes h (decide_long hl) rfl rfl

/-- Settles O6, a clause per word: the four products differ by sign and rotation, MAXI and MINI by what is better.
That the index stands over the address update where AM is the register of the access is the model's choice (log 76). -/
theorem quadWordsComplete : Obligations.QuadWordsComplete := by
  unfold Obligations.QuadWordsComplete
  refine ⟨fun s i sat rt minus m1 dk two h hl hk => ?products, fun s i max gd an am h hl => ?search⟩
  case products =>
    have ok : (decide (i.slot = .long) && decide (dk.val ≤ 12)) = true := by rw [decide_long hl, decide_eq_true hk]; rfl
    cases minus <;> cases rt <;> exact form_completes h ok rfl rfl
  case search =>
    have ok := decide_long hl
    cases max
    · refine form_completes h ok rfl ?_
      simp only [decide_eq_true_eq, Bool.false_eq_true, if_false]
    · refine form_completes h ok rfl ?_
      simp only [decide_eq_true_eq, if_true]

end Sys2Proof.Machine
end

section
/-! PROOFS. The values of the operations: narrowing (R130), the address update (R134), quotients (R146), and shifts at their
ends (R145, R155). -/

namespace Sys2Proof.Machine

/-! ### Narrowing -/

section
variable {w : Nat} {s : Bool} {r : Int}

theorem narrow_kept (h : -(2 ^ (w - 1) : Int) ≤ r ∧ r ≤ 2 ^ (w - 1) - 1) : narrow w s r = ⟨r, false, false⟩ := if_pos h

theorem narrow_beyond (h : r < -(2 ^ (w - 1) : Int) ∨ 2 ^ (w - 1) - 1 < r) : narrow w s r =
    if s then ⟨if 0 < r then 2 ^ (w - 1) - 1 else -(2 ^ (w - 1)), false, true⟩ else ⟨r.bmod (2 ^ w), true, false⟩ :=
  if_neg (by omega)

theorem narrow_above (h : 2 ^ (w - 1) - 1 < r) : narrow w true r = ⟨2 ^ (w - 1) - 1, false, true⟩ := by
  have hpos : (0 : Int) < 2 ^ (w - 1) := by positivity
  rw [narrow_beyond (.inr h), if_pos rfl, if_pos (by omega)]

theorem narrow_below (h : r < -(2 ^ (w - 1) : Int)) : narrow w true r = ⟨-(2 ^ (w - 1)), false, true⟩ := by
  have hpos : (0 : Int) < 2 ^ (w - 1) := by positivity
  rw [narrow_beyond (.inl h), if_pos rfl, if_neg (by omega)]

theorem narrow_wraps (h : r < -(2 ^ (w - 1) : Int) ∨ 2 ^ (w - 1) - 1 < r) :
    narrow w false r = ⟨r.bmod (2 ^ w), true, false⟩ := by
  rw [narrow_beyond h, if_neg Bool.false_ne_true]

/-- A value wrapped to a width lies in its range and differs by a multiple of its size. -/
theorem bmod_range (hw : 0 < w) : r.bmod (2 ^ w) % 2 ^ w = r % 2 ^ w ∧
    -(2 ^ (w - 1) : Int) ≤ r.bmod (2 ^ w) ∧ r.bmod (2 ^ w) ≤ 2 ^ (w - 1) - 1 := by
  have hpos : 0 < 2 ^ w := by positivity
  have hsize : ((2 ^ w : Nat) : Int) = 2 * 2 ^ (w - 1) := by
    rw [← pow_succ', Nat.sub_add_cancel hw, Nat.cast_pow, Nat.cast_ofNat]
  have hlow := Int.le_bmod (x := r) hpos
  have hhigh := Int.bmod_le (x := r) hpos
  have hmod := Int.bmod_emod (x := r) (m := 2 ^ w)
  rw [hsize] at hlow hhigh
  exact ⟨by exact_mod_cast hmod, by omega, by omega⟩

end

/-- Settles O13: a clause each for an exact result in the range of the width and beyond it on either side. -/
theorem narrowingFollowsTheWidth : Obligations.NarrowingFollowsTheWidth := by
  unfold Obligations.NarrowingFollowsTheWidth
  refine ⟨fun d n v sat => rfl, fun w r hw => ⟨fun h s => narrow_kept h, narrow_above, narrow_below, fun h => ?wraps⟩⟩
  case wraps =>
    rw [narrow_wraps h]
    exact ⟨rfl, rfl, bmod_range hw⟩

/-! ### The address update -/

section
variable {w : Work} {n m : Fin 8}

theorem updated_linear (h : w.l[n] = 0) : updated w n m = w.a[n] + w.m[m] := by
  have hl : ((w.l[n]).toNat : Int) = 0 := by rw [h]; rfl
  unfold updated
  rw [if_pos hl, BitVec.ofInt_add, BitVec.ofInt_natCast, BitVec.ofNat_toNat, BitVec.setWidth_eq, BitVec.ofInt_toInt]

/-- How far from En the updated address lies in its buffer (R134). -/
def circularOffset (w : Work) (n m : Fin 8) : Nat :=
  (((w.a[n]).toNat - (w.e[n]).toNat + (w.m[m]).toInt : Int) % (w.l[n]).toNat).toNat

theorem circularOffset_eq (h : (w.l[n]).toNat ≠ 0) :
    (circularOffset w n m : Int) = ((w.a[n]).toNat - (w.e[n]).toNat + (w.m[m]).toInt) % (w.l[n]).toNat :=
  Int.toNat_of_nonneg (Int.emod_nonneg _ (by exact_mod_cast h))

theorem circularOffset_lt (h : (w.l[n]).toNat ≠ 0) : circularOffset w n m < (w.l[n]).toNat := by
  have hlt := Int.emod_lt_of_pos ((w.a[n]).toNat - (w.e[n]).toNat + (w.m[m]).toInt)
    (b := (w.l[n]).toNat) (by omega)
  rw [← circularOffset_eq h] at hlt
  exact_mod_cast hlt

theorem updated_circular (h : (w.l[n]).toNat ≠ 0) :
    updated w n m = w.e[n] + BitVec.ofNat 32 (circularOffset w n m) := by
  unfold updated
  rw [if_neg (by exact_mod_cast h), ← circularOffset_eq h, BitVec.ofInt_add, BitVec.ofInt_natCast, BitVec.ofInt_natCast,
    BitVec.ofNat_toNat, BitVec.setWidth_eq]

end

/-- Settles O15: a buffer of Ln words holds the updated address at `circularOffset`. -/
theorem addressUpdateIsCircular : Obligations.AddressUpdateIsCircular := by
  unfold Obligations.AddressUpdateIsCircular
  refine fun w n m => ⟨updated_linear, fun h => ?circular⟩
  case circular =>
    have hl : (w.l[n]).toNat ≠ 0 := fun h0 => h (BitVec.eq_of_toNat_eq h0)
    refine ⟨circularOffset w n m, circularOffset_lt hl, updated_circular hl, ?_⟩
    rw [circularOffset_eq hl]
    exact Int.emod_eq_zero_of_dvd Int.dvd_emod_sub_self

/-! ### Quotients -/

/-- A division by zero gives full scale of the dividend's sign, or 0, with DZ (R146). -/
theorem divide_zero (frac s : Bool) (a : Int) : divide frac s a 0 =
    ⟨⟨if 0 < a then 2 ^ 31 - 1 else if a < 0 then -(2 ^ 31) else 0, false, false⟩, true⟩ := if_pos rfl

theorem divide_nonzero {frac s : Bool} {a b : Int} (h : b ≠ 0) :
    divide frac s a b = ⟨narrow 32 s ((if frac then a * 2 ^ 31 else a).fdiv b), false⟩ := if_neg h

/-- The floor of a quotient by a positive value. -/
theorem fdiv_bounds_of_pos (a : Int) {b : Int} (h : 0 < b) : a.fdiv b * b ≤ a ∧ a < (a.fdiv b + 1) * b := by
  have hdiv := Int.fdiv_mul_add_fmod a b
  have hnonneg := Int.fmod_nonneg_of_pos a h
  exact ⟨by omega, Int.lt_fdiv_add_one_mul_self a h⟩

/-- The floor of a quotient by a negative value. -/
theorem fdiv_bounds_of_neg (a : Int) {b : Int} (h : b < 0) : a ≤ a.fdiv b * b ∧ (a.fdiv b + 1) * b < a := by
  obtain ⟨hle, hlt⟩ := fdiv_bounds_of_pos (-a) (b := -b) (by omega)
  rw [Int.neg_fdiv_neg, mul_neg] at hle hlt
  exact ⟨by omega, by omega⟩

/-! ### Shifts -/

section
variable {w : Nat} {s : Bool} {a k : Int}

theorem shlSigned_neg (h : k < 0) : shlSigned w s a k = shraSigned w s a (-k) := by
  rw [shlSigned, shraSigned, if_neg (by omega), if_pos (by omega)]

theorem shraSigned_neg (h : k < 0) : shraSigned w s a k = shlSigned w s a (-k) := by
  rw [shlSigned, shraSigned, if_neg (by omega), if_pos (by omega)]

/-- SHL by the width or more shifts every bit out (R145). -/
theorem shlSigned_wide (h : (w : Int) ≤ k) : shlSigned w s a k =
    if a = 0 then ⟨0, false, false⟩
    else if s then ⟨if 0 < a then 2 ^ (w - 1) - 1 else -(2 ^ (w - 1)), false, true⟩ else ⟨0, true, false⟩ := by
  rw [shlSigned, if_pos (by omega), shlNat, if_neg (by omega)]
  rfl

theorem shlSigned_within (h0 : 0 ≤ k) (h : k < w) : shlSigned w s a k = narrow w s (a * 2 ^ k.toNat) := by
  rw [shlSigned, if_pos h0, shlNat, if_pos (by omega)]

theorem shraSigned_nonneg (h : 0 ≤ k) : shraSigned w s a k = ⟨a / 2 ^ k.toNat, false, false⟩ := if_pos h

/-- A value of the width shifted right by the width or more leaves its sign (R145). -/
theorem ediv_wide (h : (w : Int) ≤ k) (hlow : -(2 ^ (w - 1) : Int) ≤ a) (hhigh : a < 2 ^ (w - 1)) :
    a / 2 ^ k.toNat = if a < 0 then -1 else 0 := by
  have hpow : (2 ^ (w - 1) : Int) ≤ 2 ^ k.toNat := pow_le_pow_right₀ (by decide) (by omega)
  split
  · next hneg => exact Int.ediv_eq_neg_one_of_neg_of_le hneg (by omega)
  · next hpos => exact Int.ediv_eq_zero_of_lt (by omega) (by omega)

end

/-- Settles O16: the bounds of the floor for either sign of the divisor, and a clause for each range of the count. -/
theorem quotientsAndShiftsAtTheirEnds : Obligations.QuotientsAndShiftsAtTheirEnds := by
  unfold Obligations.QuotientsAndShiftsAtTheirEnds
  refine ⟨fun s a b => ⟨fun frac => divide_zero frac s a, fun hb => ?quotient⟩,
    fun w s a k hw => ⟨fun hk => ⟨shlSigned_neg hk, shraSigned_neg hk⟩, fun hk => ⟨?wraps, ?saturates, fun hl hh => ?sign⟩,
      fun h0 hk => ⟨shlSigned_within h0 hk, shraSigned_nonneg h0⟩⟩⟩
  case quotient =>
    exact ⟨a.fdiv b, (a * 2 ^ 31).fdiv b, divide_nonzero hb, divide_nonzero hb,
      fun h => and_assoc.1 ⟨fdiv_bounds_of_pos a h, fdiv_bounds_of_pos _ h⟩,
      fun h => and_assoc.1 ⟨fdiv_bounds_of_neg a h, fdiv_bounds_of_neg _ h⟩⟩
  case wraps => exact shlSigned_wide hk
  case saturates => exact shlSigned_wide hk
  case sign => rw [shraSigned_nonneg (by omega), ediv_wide hk hl hh]

end Sys2Proof.Machine
end

section
/-! PROOFS. Registers: what a G register reads after a write of it, or of another part of its accumulator (R95, R96, R127,
R128). -/

namespace Sys2Proof.Machine

/-! ### Parts of accumulators -/

/-- A run of bits of a run of bits lies that much further up. -/
theorem extractLsb'_extractLsb' {k : Nat} (x : BitVec k) {lo len lo' len' : Nat} (h : lo' + len' ≤ len) :
    (x.extractLsb' lo len).extractLsb' lo' len' = x.extractLsb' (lo + lo') len' := by
  ext j hj
  have hlen : lo' + j < len := by omega
  simp [BitVec.getElem_extractLsb', hlen, Nat.add_assoc]

/-- The part of Qn that was written reads as written, Qn.G sign-extended (R95, R128). The widths of a concatenation must stand
as sums for the lemmas about its bits to apply. -/
theorem readG_writeG_part_same (chk : Bool) (w : Work) (n : Fin 4) (v : TWord) :
    readG (writeG chk w (.ql n) v) (.ql n) = v ∧ readG (writeG chk w (.qh n) v) (.qh n) = v ∧
      readG (writeG chk w (.qg n) v) (.qg n) = ⟨(v.p.extractLsb' 0 16).signExtend 32, v.t⟩ := by
  simp (disch := omega) [-Nat.reduceAdd, readG, writeG, BitVec.extractLsb'_append_eq_of_add_le,
    BitVec.extractLsb'_append_eq_of_le]

/-- Another part of Qn keeps its bits and takes the tag written (R95, R128). -/
theorem readG_writeG_part_other {chk : Bool} {w : Work} {v : TWord} {n : Fin 4} {g h : GReg} (hg : partOfQ n g = true)
    (hh : partOfQ n h = true) (hne : g ≠ h) : readG (writeG chk w g v) h = ⟨(readG w h).p, v.t⟩ := by
  cases g with
  | ql i | qh i | qg i =>
    obtain rfl : i = n := of_decide_eq_true hg
    cases h with
    | ql j | qh j | qg j =>
      obtain rfl : j = i := of_decide_eq_true hh
      simp (disch := omega) [-Nat.reduceAdd, readG, writeG, BitVec.extractLsb'_append_eq_of_add_le,
        BitVec.extractLsb'_append_eq_of_le, extractLsb'_extractLsb'] at hne ⊢
    | _ => cases hh
  | _ => cases hg

/-- A tag sets the poison bit of an address register exactly when it is bad, or a kind that CHK refuses there (R96). -/
theorem poisons_iff (chk : Bool) (t : Tag) : poisons chk t = true ↔
    t = .poison ∨ t = .uninit ∨ t = .invalid ∨ (chk = true ∧ (t = .sample ∨ t = .coef)) := by
  cases t <;> simp [poisons]

/-- Settles O12, a clause per kind of register. -/
theorem registerReadsAsWritten : Obligations.RegisterReadsAsWritten := by
  unfold Obligations.RegisterReadsAsWritten
  intro chk w v
  refine ⟨fun i => by simp [readG, writeG], fun i => by simp [readG, writeG], fun i => by simp [readG, writeG],
    fun i => by simp [readG, writeG], fun i => ?address, fun n => ?part, fun g h hne hq => readG_writeG_other hne.symm hq⟩
  case address => simp [readG, writeG, poisons_iff]
  case part =>
    obtain ⟨hl, hh, hg⟩ := readG_writeG_part_same chk w n v
    exact ⟨hl, hh, hg, fun g h => readG_writeG_part_other⟩

end Sys2Proof.Machine
end

section
/-! PROOFS. Engine stores to delay memory, granted and not (R138, R141, R191 to R193, R206, R208). -/

namespace Sys2Proof.Machine

/-! ### Cells and reservations -/

/-- Every cell reads the same where both memories are the same. -/
theorem cells_of_mem {d e : Device} (h : e.delay = d.delay ∧ e.ccMem = d.ccMem) :
    (∀ x, delayCell e x = delayCell d x) ∧ (∀ x, ccCell e x = ccCell d x) :=
  ⟨fun x => by rw [delayCell, h.1, delayCell], fun x => by rw [ccCell, h.2, ccCell]⟩

/-- A word of delay memory reads as it was last written, and every other word as before (R206). -/
theorem delayCell_putDelay (d : Device) (w : Nat) (v : TWord) (x : Nat) :
    delayCell (putDelay d w v) x = if x = w then cellOf v else delayCell d x := by
  rw [putDelay, (cells_of_mem (mem_clearResv _ _)).1]
  exact sparseGet_put _ _ _ _ _

theorem ccCell_putDelay (d : Device) (w : Nat) (v : TWord) (x : Nat) : ccCell (putDelay d w v) x = ccCell d x := by
  rw [putDelay, (cells_of_mem (mem_clearResv _ _)).2]
  rfl

/-- No processor keeps a reservation that is cleared (R141). -/
theorem resv_clearResv (d : Device) (l : Loc) (n : Fin 68) : (ag (clearResv d l) n).resv ≠ some l := by
  rw [clearResv, ag_mapAg]
  split
  · exact (Option.some_ne_none l).symm
  · assumption

/-! ### Stores -/

section
variable {d : Device} {i : Issue} {port a w : Nat} {v : TWord}

theorem engStore_delay_performed (ht : engTarget a = .delay w) (hw : delayWay d i.who port w = .performed) :
    engStore d i port a v = delayStore d i w v := by
  simp only [engStore, ht, hw]

/-- A store to delay memory that is not granted changes no memory (R192, R193, R208). -/
theorem mem_engStore_denied (ht : engTarget a = .delay w) (hw : delayWay d i.who port w ≠ .performed) :
    (engStore d i port a v).delay = d.delay ∧ (engStore d i port a v).ccMem = d.ccMem := by
  unfold engStore
  simp only [ht]
  cases hway : delayWay d i.who port w with
  | absent => exact mem_absentAccess _ _ _ _
  | stopped => exact ⟨rfl, rfl⟩
  | violation => exact mem_violated _ _ _ _
  | notOwner =>
    dsimp only
    split
    · exact mem_fencedDrop _ _
    · exact ⟨rfl, rfl⟩
  | notReady => exact mem_offAccess _ _
  | performed => exact absurd hway hw

/-- What a performed store records beside its write changes no memory. -/
theorem mem_delayStore_record (d : Device) (i : Issue) (a w : Nat) (c : Cell) (v : TWord) :
    (noteAcc (keepUndo d i a c) i.who .delayWrite w v).delay = d.delay ∧
      (noteAcc (keepUndo d i a c) i.who .delayWrite w v).ccMem = d.ccMem := by
  simp

end

/-- Settles O20: a granted store is one write by `putDelay`, and a store that fares any other way keeps both memories. -/
theorem delayStoresWriteOneWord : Obligations.DelayStoresWriteOneWord := by
  unfold Obligations.DelayStoresWriteOneWord
  intro d i port a v w ht
  refine ⟨fun hw => ?granted, fun hw => cells_of_mem (mem_engStore_denied ht hw)⟩
  case granted =>
    obtain ⟨hdelay, hcc⟩ := cells_of_mem
      (mem_delayStore_record d i (0x01000000 + w) w (delayCell d w) (cellRead (delayCell d w)))
    rw [engStore_delay_performed ht hw, delayStore]
    refine ⟨?word, fun n => resv_clearResv _ _ n, fun x hx => ?other, fun x => ?core⟩
    case word => rw [delayCell_putDelay, if_pos rfl]; rfl
    case other => rw [delayCell_putDelay, if_neg hx, hdelay]
    case core => rw [ccCell_putDelay, hcc]

end Sys2Proof.Machine
end

section
/-! PROOFS. The kickoff rows (R159, R166, R169, R234, R303, R306): what marks, kickoffs, rally starts, cuts and frame resolutions
leave where their preconditions hold. -/

namespace Sys2Proof.Machine

/-! ### Marks -/

section
variable {d : Device} {k : Fin 4}

theorem kickoffMark_due (hp : produces d k = true) (hm : mayMark d k (nextCount d k) = true) :
    kickoffMark d k = markAt d k (nextCount d k).toNat := by
  unfold kickoffMark
  exact if_pos ⟨hp, hm⟩

/-- A shadow kickoff before the 64th aligned one, of a domain that its own PLL still drives, only counts (R306). -/
theorem shadowMark_counts {h : Handover} (ha : d.ho[k] = some h) (hl : getB d (F.CLK_PLLSTAT.LOCK (2 + h.pll)) = true)
    (hn : h.aligned < 63) (hd : ¬ (domConfigured d k ∧ awake d ∧ mediaMuted d (ratePll d k))) (within : Bool) :
    shadowMark d k within =
      { d with ho := d.ho.set k (some { h with aligned := if within then h.aligned + 1 else 0 }) } := by
  have hm : ¬ 64 ≤ if within then h.aligned + 1 else 0 := by split <;> omega
  unfold shadowMark
  rw [ha]
  dsimp only
  rw [if_neg (not_not_intro hl), if_neg hm]
  exact if_neg hd

/-! ### Kickoffs at the engines -/

theorem engineKickoff_oldest {n : Nat} {ns : List Nat} (h : d.marked[k] = n :: ns) :
    engineKickoff d k = kickoffAt { d with marked := d.marked.set k ns } k n := by
  unfold engineKickoff
  rw [h]

theorem overrunLen_due {n : Fin 68} (hp : (ag d n).phase = .rallying) (hc : (ag d n).limit ≤ (ag d n).cyc) :
    overrunLen d n = cutRally d n false :=
  if_pos (by simp [lenDue, hp, hc])

end

/-! ### Rally starts -/

/-- The record of an engine once the rallies of a domain have started (R166). -/
def startedRecord (d : Device) (k : Fin 4) (n : Fin 68) : Engine :=
  if (ag d n).phase = .overhead ∧ engDomain d n = k then { ag d n with phase := .rallying } else ag d n

/-- What the start of a domain's rallies does at one engine. -/
def startEngine (k : Fin 4) (d : Device) (n : Fin 68) : Device :=
  if (ag d n).phase = .overhead ∧ engDomain d n = k then setAg d n { ag d n with phase := .rallying } else d

theorem rallyStart_eq (d : Device) (k : Fin 4) : rallyStart d k = (engines d).foldl (startEngine k) d := rfl

section
variable (k : Fin 4) (d : Device)

theorem ag_startEngine_same (n : Fin 68) : ag (startEngine k d n) n = startedRecord d k n := by
  unfold startEngine startedRecord
  split
  · exact ag_setAg_same d n _
  · rfl

theorem ag_startEngine_other {n m : Fin 68} (h : n ≠ m) : ag (startEngine k d n) m = ag d m := by
  unfold startEngine
  split
  · exact ag_setAg_other d _ h
  · rfl

theorem reg_startEngine (n : Fin 68) (a : Nat) : reg (startEngine k d n) a = reg d a := by
  unfold startEngine
  split <;> rfl

theorem startedRecord_startEngine_other {n m : Fin 68} (h : n ≠ m) :
    startedRecord (startEngine k d n) k m = startedRecord d k m := by
  simp only [startedRecord, engDomain, engField, ag_startEngine_other k d h, reg_startEngine]

/-- An engine that has started is no longer in its overhead: it starts once. -/
theorem startedRecord_startEngine_same (n : Fin 68) : startedRecord (startEngine k d n) k n = startedRecord d k n := by
  by_cases h : (ag d n).phase = .overhead ∧ engDomain d n = k
  · have hs : startedRecord d k n = { ag d n with phase := .rallying } := if_pos h
    rw [startedRecord, ag_startEngine_same, hs]
    exact if_neg (fun hp => nomatch hp.1)
  · rw [startEngine, if_neg h]

/-- The engines of a list start, each by its own record as found, and no other engine changes. -/
theorem ag_foldl_startEngine (l : List (Fin 68)) (a : Fin 68) :
    ag (l.foldl (startEngine k) d) a = if a ∈ l then startedRecord d k a else ag d a := by
  induction l generalizing d with
  | nil => rfl
  | cons n l ih =>
    rw [List.foldl_cons, ih]
    by_cases h : n = a
    · subst h
      rw [startedRecord_startEngine_same, ag_startEngine_same]
      simp
    · rw [startedRecord_startEngine_other k d h, ag_startEngine_other k d h]
      simp [Ne.symm h]

theorem ag_rallyStart {a : Fin 68} (h : a ∈ engines d) : ag (rallyStart d k) a = startedRecord d k a := by
  rw [rallyStart_eq, ag_foldl_startEngine, if_pos h]

end

/-! ### Frames -/

/-- Settles O36, a clause per command. -/
theorem kickoffsComplete : Obligations.KickoffsComplete := by
  unfold Obligations.KickoffsComplete
  intro s k n p ns tods within h m hheld
  refine ⟨fun hp hm => ?mark, fun ha hl hn hd => ?shadow, fun hk => ?kickoff,
    ⟨rallyStart (serveAll s.dev) k, ?start, fun a ha => ?started⟩, fun hp hc => ?cut, fun hr => ?frame⟩
  case mark => exact device_completes (f := (kickoffMark · k)) hheld rfl (kickoffMark_due hp hm)
  case shadow => exact device_completes (f := (shadowMark · k within)) hheld rfl (shadowMark_counts ha hl hn hd within)
  case kickoff => exact device_completes (f := (engineKickoff · k)) hheld rfl (engineKickoff_oldest hk)
  case start => exact device_completes (f := fun d => rallyStart (serveAll d) k) hheld rfl rfl
  case started => exact ag_rallyStart k (serveAll s.dev) ha
  case cut => exact device_completes (f := (overrunLen · (engProc m))) hheld rfl (overrunLen_due hp hc)
  case frame =>
    refine device_completes (f := (frameResolve · k tods)) hheld rfl ?_
    unfold frameResolve
    rw [hr]

end Sys2Proof.Machine
end

section
/-! PROOFS. Commands that store nothing keep delay memory and the memories of the control cores, and every command keeps
their canonical form (R186, R187, R210, R372). -/

namespace Sys2Proof.Machine

/-! ### Effects that the layers before do not name -/

theorem mem_trans {d e f : Device} (hf : f.delay = e.delay ∧ f.ccMem = e.ccMem) (he : e.delay = d.delay ∧ e.ccMem = d.ccMem) :
    f.delay = d.delay ∧ f.ccMem = d.ccMem := ⟨hf.1.trans he.1, hf.2.trans he.2⟩

theorem mem_holdoverTimeout (d : Device) : (holdoverTimeout d).delay = d.delay ∧ (holdoverTimeout d).ccMem = d.ccMem :=
  mem_ite (mem_enterHoldover d) ⟨rfl, rfl⟩

theorem mem_ppsPulse (d : Device) : (ppsPulse d).delay = d.delay ∧ (ppsPulse d).ccMem = d.ccMem :=
  mem_ite ⟨rfl, rfl⟩ ⟨rfl, rfl⟩

theorem mem_ppsFall (d : Device) : (ppsFall d).delay = d.delay ∧ (ppsFall d).ccMem = d.ccMem :=
  mem_ite ⟨rfl, rfl⟩ ⟨rfl, rfl⟩

/-! ### Commands that store nothing -/

section
variable {s t : State} {f : Device → Device}

theorem mem_onPins (h : onPins s f = .next t) (hf : ∀ d, (f d).delay = d.delay ∧ (f d).ccMem = d.ccMem) :
    t.dev.delay = s.dev.delay ∧ t.dev.ccMem = s.dev.ccMem := by
  cases h
  exact hf s.dev

theorem mem_onDev (h : onDev s f = .next t) (hf : ∀ d, (f d).delay = d.delay ∧ (f d).ccMem = d.ccMem) :
    t.dev.delay = s.dev.delay ∧ t.dev.ccMem = s.dev.ccMem := by
  cases h
  exact mem_ite ⟨rfl, rfl⟩ (hf s.dev)

theorem mem_onBus (h : onBus s f = .next t) (hf : ∀ d, (f d).delay = d.delay ∧ (f d).ccMem = d.ccMem) :
    t.dev.delay = s.dev.delay ∧ t.dev.ccMem = s.dev.ccMem := mem_onDev h fun d => mem_ite (hf d) ⟨rfl, rfl⟩

theorem mem_onWord {i : Issue} {ok : Device → Bool} {rep : Bool} (h : onDev s (fun d => withWord i (ok d) rep d f) = .next t)
    (hf : ∀ d, (f d).delay = d.delay ∧ (f d).ccMem = d.ccMem) : t.dev.delay = s.dev.delay ∧ t.dev.ccMem = s.dev.ccMem :=
  mem_onDev h fun d => mem_withWord i (ok d) rep d f hf

end

/-- A word that makes no access of memory reaches no cell of either memory, whatever its form. -/
theorem mem_exec_word {c : Instr} (hw : c.word.isSome = true) (hc : c.mayWrite = false) {s t : State}
    (h : exec c s = .next t) : t.dev.delay = s.dev.delay ∧ t.dev.ccMem = s.dev.ccMem := by
  unfold exec at h
  cases c
  case nop => exact mem_onWord h fun d => ⟨rfl, rfl⟩
  case done => exact mem_onWord h fun d => mem_endRally d _ _ _
  case br => exact mem_onWord h fun d => mem_jump d _ _
  case brz => exact mem_onWord h fun d => mem_ite (mem_jump d _ _) ⟨rfl, rfl⟩
  case brnz => exact mem_onWord h fun d => mem_ite ⟨rfl, rfl⟩ (mem_jump d _ _)
  case brlc => exact mem_onWord h fun d => mem_ite ⟨rfl, rfl⟩ (mem_trans (mem_jump _ _ _) (mem_setAg d _ _))
  case call => exact mem_onWord h fun d => mem_doCall d _ _
  case callz => exact mem_onWord h fun d => mem_ite (mem_doCall d _ _) ⟨rfl, rfl⟩
  case callnz => exact mem_onWord h fun d => mem_ite ⟨rfl, rfl⟩ (mem_doCall d _ _)
  case ret => exact mem_onWord h fun d => mem_ite (mem_rsFault d _) (mem_trans (mem_jump _ _ _) (mem_setAg d _ _))
  case rep => exact mem_onWord h fun d => mem_setAg d _ _
  case tmark => exact mem_onWord h fun d => mem_ite (mem_illFault d _ _) (mem_ite (mem_setAg d _ _) (mem_jump d _ _))
  case illegalWord => exact mem_onDev h fun d => mem_ite (mem_illWord d _ _) ⟨rfl, rfl⟩
  case mov | movi | movcRead | tagxR | tagxW | tagxS | btst | band | bor => exact mem_onWord h fun d => mem_wrReg d _ _ _
  case movcWrite => exact mem_onWord h fun d => mem_putControlReg d _ _ _
  case add | sub | min | max | addi | mul | muli => exact mem_onDev h fun d => mem_alu2 _ _ _ _ _ _ _ d
  case neg | abs | not => exact mem_onDev h fun d => mem_alu1 _ _ _ _ _ d
  case cmplt | cmple | cmpeq => exact mem_onDev h fun d => mem_aluCmp _ _ _ _ _ _ d
  case and | or | xor => exact mem_onDev h fun d => mem_aluBits _ _ _ _ _ _ d
  case shl | shra | shrl => exact mem_onDev h fun d => mem_aluShift _ _ _ _ _ d
  case div | divi => exact mem_onDev h fun d => mem_startDiv _ _ _ _ _ _ d
  case qext => exact mem_onWord h fun d => mem_putResult d _ _ _ _
  case qclr | qld => exact mem_onWord h fun d => mem_wrQ d _ _ _
  case qadd | qsub => exact mem_onDev h fun d => mem_accumOp _ _ _ _ _ d
  case qshl | qshra => exact mem_onDev h fun d => mem_accumShift _ _ _ _ d
  case bset | bclr | btgl | bmovFromBit | bmovFromRegister => exact mem_onWord h fun d => mem_writeBit d _ _ _
  case bitTas => exact mem_onWord h fun d => mem_trans (mem_wrReg _ _ _ _) (mem_tasBit d _ _)
  case spinIssue => exact mem_onWord h fun d => mem_spinIssue d _ _ _
  case spinGet => exact mem_onWord h fun d => mem_trans (mem_wrReg _ _ _ _) (mem_spinGet d _ _)
  case spinXg =>
    exact mem_onWord h fun d => mem_trans (mem_spinIssue _ _ _ _) (mem_trans (mem_wrReg _ _ _ _) (mem_spinGet d _ _))
  all_goals
    -- The others are words that access memory, and no words.
    cases hc <;> cases hw

/-- An event, and a word of a control core that makes no access of memory, reaches no cell of either memory. -/
theorem mem_exec_event {c : Instr} (hw : c.word.isSome = false) (ha : c.access = false) (hc : c.mayWrite = false) {s t : State}
    (h : exec c s = .next t) : t.dev.delay = s.dev.delay ∧ t.dev.ccMem = s.dev.ccMem := by
  unfold exec at h
  cases c
  case divisionResult =>
    refine mem_onDev h fun d => ?_
    dsimp only
    split
    · exact ⟨rfl, rfl⟩
    · exact mem_ite (mem_setAg d _ _) ⟨rfl, rfl⟩
  case spinResult => exact mem_onDev h fun d => mem_spinResult d _
  case loadResult =>
    refine mem_onDev h fun d => ?_
    dsimp only
    split
    · exact ⟨rfl, rfl⟩
    · exact mem_ite (mem_setAg d _ _) ⟨rfl, rfl⟩
  case wait => exact mem_onWord h fun d => ⟨rfl, rfl⟩
  case waitResume => exact mem_onDev h fun d => mem_ite ⟨rfl, rfl⟩ ⟨rfl, rfl⟩
  case reti =>
    refine mem_onWord h fun d => ?_
    dsimp only
    split
    · exact mem_rsFault d _
    · exact mem_trans (mem_jump _ _ _) (mem_setAg _ _ _)
  case doLoop => exact mem_onWord h fun d => mem_ite (mem_trans (mem_jump _ _ _) (mem_setAg _ _ _)) (mem_setAg _ _ _)
  case interruptEntry =>
    refine mem_onDev h fun d => mem_ite ?_ ⟨rfl, rfl⟩
    split
    · exact ⟨rfl, rfl⟩
    · exact mem_trans (mem_takeEvent _ _ _ _) (mem_setAg d _ _)
  case kickoffMark =>
    refine mem_onDev h fun d => ?_
    split
    · exact mem_kickoffMark d _
    · exact mem_shadowMark d _ _
  case engineKickoff => exact mem_onDev h fun d => mem_engineKickoff d _
  case overrunLen => exact mem_onDev h fun d => mem_overrunLen d _
  case frameResolve => exact mem_onDev h fun d => mem_frameResolve d _ _
  case sapFrameBoundary => exact mem_onDev h fun d => mem_sapBoundary d _ _ _ _ _
  case sapRxFrameEnd => exact mem_onDev h fun d => mem_sapRxEnd d _ _ _
  case sapClockLoss => exact mem_onDev h fun d => mem_sapClockLoss d _
  case asrcLock => exact mem_onDev h fun d => mem_asrcLock d _ _
  case asrcUnlock => exact mem_onDev h fun d => mem_asrcUnlock d _ _ _
  case whistleAssert => exact mem_onPins h fun d => mem_ite ⟨rfl, rfl⟩ (mem_whistleAssert d)
  case whistleRelease => exact mem_onPins h fun d => mem_ite ⟨rfl, rfl⟩ (mem_whistleRelease d)
  case regionQuiesced => exact mem_onDev h fun d => mem_regionQuiesced d _
  case commandedLoadEnd => exact mem_onDev h fun d => mem_loadEnd d
  case mediaWriteComplete => exact mem_onBus h fun d => mem_mediaDone d _
  case aonWriteComplete => exact mem_onDev h fun d => mem_aonDone d _
  case bankSweepDone => exact mem_onDev h fun d => mem_trans (mem_bootProgress _) (mem_sweepDone d _)
  case watchdogExpiry => exact mem_onDev h fun d => mem_wdExpire d
  case eventDelivery => exact mem_onDev h fun d => mem_eventDelivery d _
  case queueCrossingEntry => exact mem_onDev h fun d => mem_queArrive d _
  case pllLock => exact mem_onDev h fun d => mem_trans (mem_bootProgress _) (mem_pllLock d _)
  case pllLockTimeout => exact mem_onDev h fun d => mem_pllTimeout d _
  case pllLossOfLock => exact mem_onDev h fun d => mem_pllLose d _
  case ppsInEdge => exact mem_onDev h fun d => mem_ppsEdge d _
  case wclkInEdge => exact mem_onDev h fun d => mem_wclkEdge d _ _
  case holdoverTimeout => exact mem_onDev h fun d => mem_holdoverTimeout d
  case aonCalibrationWindow => exact mem_onDev h fun d => mem_calWindow d
  case ppsOutPulse => exact mem_onDev h fun d => mem_ppsPulse d
  case linkSignalDetect => exact mem_onDev h fun d => mem_linkSignal d _
  case cdrLock => exact mem_onDev h fun d => mem_linkCdr d _
  case blockLock => exact mem_onDev h fun d => mem_linkBlock d _
  case trainingSetRx => exact mem_onDev h fun d => mem_linkSet d _ _ _ _
  case rateChangeDone => exact mem_onDev h fun d => mem_linkRated d _
  case rateFallback => exact mem_onDev h fun d => mem_linkFallback d _
  case linkTrainTimeout => exact mem_onDev h fun d => mem_linkTimeout d _
  case linkHiber => exact mem_onDev h fun d => mem_linkHiber d _ _
  case lyathFrameRx => exact mem_onDev h fun d => mem_lyathRx d _ _ _
  case hello => exact mem_onDev h fun d => mem_helloCell d _
  case lsa => exact mem_onDev h fun d => mem_lsaCell d _
  case captain => exact mem_onDev h fun d => mem_captainCell d _
  case grant => exact mem_onDev h fun d => mem_grantCell d _
  case runReq => exact mem_onDev h fun d => mem_runReqCell d _
  case runAck => exact mem_onDev h fun d => mem_runAckCell d _
  case runNak => exact mem_onDev h fun d => mem_runNakCell d _
  case runTear => exact mem_onDev h fun d => mem_runTearCell d _
  case user => exact mem_onDev h fun d => mem_userCell d _
  case isolatedRejoin => exact mem_onDev h fun d => mem_isolatedRejoin d
  case adjacencyDead => exact mem_onDev h fun d => mem_adjacencyDead d _
  case helloKeepalive => exact mem_onDev h fun d => mem_helloKeepalive d _
  case endOfQuiet => exact mem_onDev h fun d => mem_endOfQuiet d
  case grantDeadline => exact mem_onDev h fun d => mem_grantDeadline d
  case tombstoneCreate => exact mem_onDev h fun d => mem_tombCreate d _
  case tombstoneExpiry => exact mem_onDev h fun d => mem_tombExpire d _
  case lsaReflood => exact mem_onDev h fun d => mem_lsaReflood d
  case runTimeout => exact mem_onDev h fun d => mem_runTimeout d _
  case fabricGateOpen => exact mem_onDev h fun d => mem_fabGateOpen d
  case coachDecision => exact mem_onDev h fun d => mem_coachDecide d _ _
  case thermalSensorConversion => exact mem_onDev h fun d => mem_thermalConvert d _
  case voltageConfirm => exact mem_onDev h fun d => mem_voltageRead d _
  case voltageStepFail => exact mem_onDev h fun d => mem_voltageFail d _ _
  case domainIdleTimeout => exact mem_onDev h fun d => mem_domainIdle d _
  case domainDownTimeout => exact mem_onDev h fun d => mem_domainDown d _
  case domainWakeDone => exact mem_onDev h fun d => mem_ite (mem_domainWake d _) ⟨rfl, rfl⟩
  case deviceTimerExpiry => exact mem_onDev h fun d => mem_deviceTimer d
  case wakeNAssert => exact mem_onDev h fun d => mem_wakePin d
  case senseCrossing => exact mem_onDev h fun d => mem_senseCrossing d _ _
  case linkSquelchWake => exact mem_onDev h fun d => mem_squelchWake d _
  case hspiCsWake => exact mem_onDev h fun d => mem_hostWake d
  case pcieL1Exit => exact mem_onDev h fun d => mem_ite (mem_hostWake d) ⟨rfl, rfl⟩
  case perstNRise => exact mem_onPins h fun d => mem_ite ⟨rfl, rfl⟩ (mem_perstRise d)
  case perstNFall => exact mem_onPins h fun d => mem_ite ⟨rfl, rfl⟩ (mem_perstFall d)
  case aonAlarm => exact mem_onDev (f := aonAlarm) h mem_aonAlarm
  case pmbAlert => exact mem_onDev h fun d => mem_pmbAlert d _
  case loadBegin => exact mem_onDev h fun d => mem_loadBegin d
  case loaderGateOpen => exact mem_onDev h fun d => mem_gateOpen d
  case hostPushTimeout => exact mem_onDev h fun d => mem_pushTimeout d
  case subCopyDone => exact mem_onDev h fun d => mem_subCopied d
  case fspiCommandDone => exact mem_onDev h fun d => mem_fspiDone d _
  case tamperAssert => exact mem_onPins h fun d => mem_tamper d
  case partitionWipeDone => exact mem_onPins h fun d => mem_wipeDone d
  case hspiWrite => exact mem_onDev h fun d => mem_hspiWrite d _ _ _
  case hspiStatus => exact mem_onDev h fun d => mem_hspiStatus d _ _
  case hspiQread => exact mem_onDev h fun d => mem_hspiQread d _ _
  case hspiFetch => exact mem_onDev h fun d => mem_hspiFetch d _ _
  case hspiReservedFrame => exact mem_onDev h fun d => mem_hspiReserved d _ _
  case cspiDone => exact mem_onBus h fun d => mem_cspiDone d _
  case pcieUnsupportedRequest => exact mem_onDev h fun d => mem_pcieUnsupported d
  case pciePoisonedWrite => exact mem_onDev h fun d => mem_pciePoisoned d
  case pcieLinkChange => exact mem_onDev h fun d => mem_pcieLink d _ _ _ _
  case pcieConfigurationRequest => exact mem_onDev h fun d => mem_pcieConfig d _
  case membusyNPulseEnd => exact mem_onDev h fun d => ⟨rfl, rfl⟩
  case ppsOutFall => exact mem_onDev h fun d => mem_ppsFall d
  case gpioInputChange => exact mem_onPins h fun d => mem_gpioChange d _ _
  case ts2Sent => exact mem_onDev h fun d => mem_linkTs2 d _
  all_goals
    -- The others are words, accesses, and events that store.
    cases hw <;> cases ha <;> cases hc

theorem mem_exec {c : Instr} (ha : c.access = false) (hc : c.mayWrite = false) {s t : State} (h : exec c s = .next t) :
    t.dev.delay = s.dev.delay ∧ t.dev.ccMem = s.dev.ccMem := by
  cases hw : c.word.isSome with
  | true => exact mem_exec_word hw hc h
  | false => exact mem_exec_event hw ha hc h

/-- Settles O33: where both memories are the same, so is every cell. -/
theorem nonStoringCommandsKeepMemory : Obligations.NonStoringCommandsKeepMemory := by
  unfold Obligations.NonStoringCommandsKeepMemory
  exact fun c s t ha hc h => cells_of_mem (mem_exec ha hc h)

/-! ### The canonical form -/

section
variable {s t : State} {f : Device → Device}

theorem wf_onDev (hs : Memory.wf s.dev = true) (h : onDev s f = .next t) (hf : Memory.wf (f s.dev) = true) :
    Memory.wf t.dev = true := by
  cases h
  exact wf_ite hs hf

theorem wf_onBus (hs : Memory.wf s.dev = true) (h : onBus s f = .next t) (hf : Memory.wf (f s.dev) = true) :
    Memory.wf t.dev = true := wf_onDev hs h (wf_ite hf hs)

theorem wf_onWord {i : Issue} {ok : Device → Bool} {rep : Bool} (hs : Memory.wf s.dev = true)
    (h : onDev s (fun d => withWord i (ok d) rep d f) = .next t) (hf : ∀ d, Memory.wf d = true → Memory.wf (f d) = true) :
    Memory.wf t.dev = true := wf_onDev hs h (wf_withWord hs i _ rep f hf)

end

/-- A core's 64-bit load delivers its two words after it. -/
theorem wf_giveBoth {d : Device} (h : Memory.wf d = true) (i : Issue) (w : Work) (m : Ma) (q : Fin 4) (lo hi : TWord) :
    Memory.wf (giveReg (giveReg d i w m (.ql q) lo) i w m (.qh q) hi) = true :=
  wf_frame (mem_trans (mem_giveReg _ i w m (.qh q) hi) (mem_giveReg d i w m (.ql q) lo)) h

section
variable {d : Device} (h : Memory.wf d = true)
include h

theorem wf_rstLow (low : Bool) : Memory.wf { d with rstLow := low } = true := wf_frame (d := d) ⟨rfl, rfl⟩ h

theorem wf_supply (powered low : Bool) : Memory.wf { d with powered := powered, rstLow := low } = true :=
  wf_frame (d := d) ⟨rfl, rfl⟩ h

theorem wf_tampered (b : Bool) : Memory.wf { d with tampered := b } = true := wf_frame (d := d) ⟨rfl, rfl⟩ h

end

theorem wf_poweredUp (d : Device) (low tampering : Bool) : Memory.wf (poweredUp d low tampering) = true :=
  have h := wf_supply (wf_inReset d .powerOn) true low
  wf_ite (wf_frame (mem_tamper _) h) h

theorem wf_of_completes {c : Instr} {s t : State} {d : Device} (hd : Memory.wf d = true) (hc : completes c s d)
    (h : exec c s = .next t) : Memory.wf t.dev = true := by
  cases hc.symm.trans h
  exact hd

/-- The commands that store keep the form, each by the operations it is made of. -/
theorem wf_exec_storing {c : Instr} (hc : c.mayWrite = true) {s t : State} (hs : Memory.wf s.dev = true)
    (h : exec c s = .next t) : Memory.wf t.dev = true := by
  unfold exec at h
  cases c
  case ld =>
    refine wf_onWord hs h fun d hd => ?_
    dsimp only
    split
    · exact wf_doLoad hd _ _ _ _ _
    · exact wf_doLoad (wf_doLoad hd _ _ _ _ _) _ _ _ _ _
  case st =>
    refine wf_onWord hs h fun d hd => ?_
    dsimp only
    split
    · exact wf_doStore hd _ _ _ _ _
    · exact wf_doStore (wf_doStore hd _ _ _ _ _) _ _ _ _ _
  case ldst => exact wf_onWord hs h fun d hd => wf_doStore (wf_doLoad hd _ _ _ _ _) _ _ _ _ _
  case tas =>
    exact wf_onWord hs h fun d hd => wf_doAtomic hd _ _ _ _ _ _ fun d a hd => wf_ite_fst (wf_ccTas hd _ a) (wf_engTas hd _ a)
  case ldrv =>
    exact wf_onWord hs h fun d hd => wf_doAtomic hd _ _ _ _ _ _ fun d a hd =>
      wf_ite_fst (wf_ccLdrv hd _ a) (wf_frame (mem_engLdrv d _ a) hd)
  case stcn =>
    exact wf_onWord hs h fun d hd => wf_doAtomic hd _ _ _ _ _ _ fun d a hd =>
      wf_ite_fst (wf_ccStcn hd _ a _) (wf_engStcn hd _ a _)
  case maxi | mini => exact wf_onDev hs h (wf_extreme hs _ _ _ _ _)
  case qmac | qmacRt | qmsb | qmsbRt => exact wf_onDev hs h (wf_quadMac hs _ _ _ _ _ _ _)
  case ldw =>
    refine wf_onWord hs h fun d hd => ?_
    have hp : ∀ i w m, Memory.wf (stepPtr d i w m) = true := fun i w m => wf_frame (mem_stepPtr d i w m) hd
    dsimp only
    split
    · exact wf_giveBoth (wf_frame (mem_tagFault _ _ _) (hp _ _ _)) _ _ _ _ _ _
    · exact wf_giveBoth (wf_frame (mem_addrFault _ _) (hp _ _ _)) _ _ _ _ _ _
    · exact wf_giveBoth (wf_ccLoadPair (hp _ _ _) _ _) _ _ _ _ _ _
  case stw =>
    refine wf_onWord hs h fun d hd => ?_
    have hp : ∀ i w m, Memory.wf (stepPtr d i w m) = true := fun i w m => wf_frame (mem_stepPtr d i w m) hd
    dsimp only
    split
    · exact wf_frame (mem_tagFault _ _ _) (hp _ _ _)
    · exact wf_frame (mem_addrFault _ _) (hp _ _ _)
    · exact wf_busWrite (hp _ _ _) _ _ _ _ _
  case rallyStart => exact wf_onDev hs h (wf_frame (mem_rallyStart _ _) (wf_serveAll hs))
  case writeRecord | fillRecord | tableRecord | programRecord | commitRecord | endRecord =>
    exact wf_onDev hs h (wf_recordRow hs _ _ _)
  case queue0GapTimeout => exact wf_onDev hs h (wf_pushGap (wf_frame (mem_gapTimeout _) hs))
  case bankTransitionDone => exact wf_onDev hs h (wf_transitionDone hs _ _)
  case entryCommitPoint => exact wf_onDev hs h (wf_entryCommit (wf_hspiDrain hs) _)
  case exitComplete => exact wf_onDev hs h (wf_runStalled (wf_exitComplete hs _ _))
  case offWakeBoot => exact wf_onDev hs h (wf_ite (wf_bootStart _ _ _ _) hs)
  case vddAonPowerOn sel tampering =>
    exact wf_of_completes (wf_ite (wf_poweredUp _ _ _) (wf_tampered (wf_bootStart _ _ _ _) _))
      (vddAonPowerOn_completes s sel tampering) h
  case vddAonRemoval => exact wf_of_completes (wf_supply (wf_inReset _ _) _ _) (vddAonRemoval_completes s) h
  case resetNAssert => exact wf_of_completes (wf_ite (wf_rstLow (wf_inReset _ _) _) (wf_rstLow hs _)) (resetNAssert_completes s) h
  case resetNRise sel =>
    exact wf_of_completes (wf_ite (wf_tampered (wf_bootStart _ _ _ _) _) (wf_rstLow hs _)) (resetNRise_completes s sel) h
  case slotHeaderRead => exact wf_onDev hs h (wf_headerRead hs _ _)
  case blockReadDone => exact wf_onDev hs h (wf_blockReadDone hs _ _)
  case recordsBlock => exact wf_onDev hs h (wf_recordsBlock hs)
  case memoryBlock => exact wf_onDev hs h (wf_memoryBlock hs)
  case startBlock => exact wf_onDev hs h (wf_startBlock hs)
  case hspiRead => exact wf_onDev hs h (wf_hspiRead hs _ _ _)
  case hspiPostedAccess => exact wf_onBus hs h (wf_hspiPosted hs)
  all_goals cases hc

theorem wf_exec {c : Instr} {s t : State} (hs : Memory.wf s.dev = true) (h : exec c s = .next t) : Memory.wf t.dev = true := by
  cases ha : c.access with
  | true =>
    obtain ⟨op, hop⟩ := exec_access ha
    exact wf_onDev hs ((hop s).symm.trans h) (wf_access hs op)
  | false =>
    cases hc : c.mayWrite with
    | true => exact wf_exec_storing hc hs h
    | false => exact wf_frame (mem_exec ha hc h) hs

theorem wf_idleStep {d : Device} (h : Memory.wf d = true) : Memory.wf (idleStep d) = true :=
  wf_serveAll (wf_frame (mem_idleEdge d) h)

/-- Settles O31: a step is one command, or one edge of the clock with the accesses that wait at the banks. -/
theorem everyStepKeepsMemoryCanonical : Obligations.EveryStepKeepsMemoryCanonical := by
  unfold Obligations.EveryStepKeepsMemoryCanonical
  intro s t hs h
  obtain ⟨pending, d⟩ := s
  cases pending with
  | nil => exact wf_onDev hs h (wf_idleStep hs)
  | cons c cs => exact wf_exec (s := ⟨cs, d⟩) hs h

/-- Settles O30: reset leaves both memories empty. -/
theorem resetMemoryIsCanonical : Obligations.ResetMemoryIsCanonical := wf_reset

end Sys2Proof.Machine
end

section
/-! PROOFS. Host-side accesses of delay memory, and the rows of its banks (R187, R188, R196 to R201, R207 to R211). -/

namespace Sys2Proof.Machine

/-! ### What waits at the banks, beside an access's effect -/

/-- A device with other accesses waiting at its banks. -/
def withWaits (d : Device) (l : List HostAcc) : Device := { d with waits := l }

section
variable (d : Device) (l : List HostAcc)

theorem withWaits_self {d : Device} {l : List HostAcc} (h : d.waits = l) : withWaits d l = d := by
  subst h
  rfl

theorem withWaits_withWaits (m : List HostAcc) : withWaits (withWaits d l) m = withWaits d m := rfl

theorem placing_withWaits (p : Option Place) (a len : Nat) (write : Bool) :
    placing (withWaits d l) p a len write = placing d p a len write := rfl

theorem bankPresent_withWaits (w : Nat) : bankPresent (withWaits d l) w = bankPresent d w := rfl

theorem bankReady_withWaits (b : Fin 128) : bankReady (withWaits d l) b = bankReady d b := rfl

theorem bankIdle_withWaits (b : Fin 128) : bankIdle (withWaits d l) b = bankIdle d b := rfl

theorem delayCell_withWaits (w : Nat) : delayCell (withWaits d l) w = delayCell d w := rfl

theorem putDelay_withWaits (w : Nat) (v : TWord) : putDelay (withWaits d l) w v = withWaits (putDelay d w v) l := by
  unfold putDelay clearResv mapAg
  rfl

theorem respond_withWaits (q : Req) (v : Nat) (t : Tag) : respond (withWaits d l) q v t = withWaits (respond d q v t) l := by
  have hr : (withWaits d l).resp = d.resp := rfl
  unfold respond
  rw [hr]
  generalize sparsePut _ d.resp _ _ = x
  rfl

theorem setReg_withWaits (a : Nat) (v : Word) : setReg (withWaits d l) a v = withWaits (setReg d a v) l := by
  unfold setReg
  rfl

theorem setReg64_withWaits (a v : Nat) : setReg64 (withWaits d l) a v = withWaits (setReg64 d a v) l := by
  unfold setReg64
  rw [setReg_withWaits, setReg_withWaits]

theorem journal_withWaits (q : Req) (a : Nat) (noeffect : Bool) :
    journal (withWaits d l) q a noeffect = withWaits (journal d q a noeffect) l := by
  have hr : reg64 (withWaits d l) Adr.JRN_COUNT = reg64 d Adr.JRN_COUNT := rfl
  unfold journal journalPut
  rw [hr]
  split
  · rw [setReg64_withWaits, setReg_withWaits, setReg_withWaits]
  · rfl

theorem touch_mem (a : Nat) : (touch d a).toDevMem = d.toDevMem := by
  unfold touch
  split
  · unfold domainWake
    split
    · unfold setDomain
      split
      · unfold settlePstate
        split
        · exact setF_mem _ _ _
        · exact setF_mem _ _ _
      · rfl
    · rfl
  · rfl

theorem touch_waits (a : Nat) : (touch d a).waits = d.waits := congrArg DevMem.waits (touch_mem d a)

end

/-! ### The views of delay memory -/

section
variable {a : Nat}

theorem area_delay (h : a < 0x4000000) : areaOf a = .delay := if_pos h

theorem area_aliasA (o : BitVec 26) : areaOf (0x4000000 + o.toNat) = .aliases false := by
  have := o.isLt
  unfold areaOf
  rw [if_neg (by omega), if_pos (by omega)]

theorem area_aliasB (o : BitVec 26) : areaOf (0x8000000 + o.toNat) = .aliases true := by
  have := o.isLt
  unfold areaOf
  rw [if_neg (by omega), if_neg (by omega), if_pos (by omega)]

theorem area_tags (o : BitVec 24) : areaOf (0xC000000 + o.toNat) = .tags := by
  have := o.isLt
  unfold areaOf
  rw [if_neg (by omega), if_neg (by omega), if_neg (by omega), if_pos (by omega)]

theorem delayWordOf_delay (ha : a < 0x4000000) : delayWordOf a = a / 4 := by
  unfold delayWordOf
  rw [if_neg (by omega), Nat.mod_eq_of_lt ha]

/-- A whole word of delay memory as an access of 4 bytes returns it. -/
theorem lanes_delay (h : a < 0x4000000) (h4 : a % 4 = 0) (w : Word) : lanes a 4 w = w.toNat := by
  have hw := w.isLt
  unfold lanes
  rw [area_delay h]
  dsimp only
  rw [if_neg (by simp), h4]
  omega

end

/-- The windows of a group that is not set to bits add and swap (R200). -/
theorem aliasOp_arithmetic {d : Device} {w : Nat} (h : getB d (F.S_DLY.CTL.ALIAS (groupRegion (bankOf w))) = false)
    (windowB : Bool) : aliasOp d w windowB = if windowB then .swap else .add := by
  simp [aliasOp, h]

theorem aliasOp_bits {d : Device} {w : Nat} (h : getB d (F.S_DLY.CTL.ALIAS (groupRegion (bankOf w))) = true)
    (windowB : Bool) : aliasOp d w windowB = if windowB then .clear else .set := by
  simp [aliasOp, h]

/-- What an atomic through a window of aliases leaves at a bank that takes it (R200, R201). -/
def atomicDone (d : Device) (q : Req) (w : Nat) (op : AliasOp) (v : Word) : Device :=
  let c := delayCell d w
  let e := { hostParity d q w with
    oldAtomic := sparsePut (fun _ => TWord.zero .uninit) (hostParity d q w).oldAtomic (reqIdx q) (cellRead c) }
  match op with
  | .add => putDelay e w ⟨c.w.p + v, (cellRead c).t⟩
  | .swap => putDelay e w ⟨v, .sample⟩
  | .set => putDelay e w ⟨c.w.p ||| v, (cellRead c).t⟩
  | .clear => putDelay e w ⟨c.w.p &&& ~~~v, (cellRead c).t⟩

section
variable {d : Device} {q : Req} {a w : Nat} (hp : bankPresent d w = true) (hr : bankReady d (bankOf w) = true)
include hp hr

/-- A bank that is present and ready takes host-side accesses (R43, R208). -/
theorem hostDelayBlocked_ready : hostDelayBlocked d q w a = none := by
  unfold hostDelayBlocked
  rw [if_neg (by simp [hp]), if_neg (by simp [hr])]

theorem hostAtomic_ready (op : AliasOp) (v : Word) : hostAtomic d q w a op v = atomicDone d q w op v := by
  unfold hostAtomic
  rw [hostDelayBlocked_ready hp hr]
  rfl

end

/-- The tag view writes the tag alone (R188). -/
theorem hostTagWrite_good {d : Device} {w : Nat} (hb : (delayCell d w).bad = false) (q : Req) (code : Nat) :
    hostTagWrite d q w code = putDelay d w ⟨(delayCell d w).w.p, tagOfCode (code % 16)⟩ := by
  unfold hostTagWrite hostParity
  simp [hb]

/-- An access that no other waits before finds its bank as it is. -/
theorem settle_none {d : Device} (h : d.waits = []) (a : Nat) : settle d a = d := if_neg (fun hw => hw.2 h)

/-! ### One word at the bus -/

section
variable {d : Device} {q : Req} {a w : Nat}

theorem writeWord_delay (ha : a < 0x4000000) (hp : bankPresent d (a / 4) = true)
    (hr : bankReady d (bankOf (a / 4)) = true) (v : Word) (t : Tag) :
    writeWord d q a 4 v t = putDelay d (a / 4) ⟨v, .sample⟩ := by
  have hw : a % 0x4000000 / 4 = a / 4 := by rw [Nat.mod_eq_of_lt ha]
  unfold writeWord absentAt groupEmpty registerArea
  rw [area_delay ha]
  simp [hw, hostDelayWrite, hostDelayBlocked_ready hp hr, delayPayloadWrite]

theorem readWord_delay (ha : a < 0x4000000) (hp : bankPresent d (a / 4) = true) (hr : bankReady d (bankOf (a / 4)) = true)
    (hb : (delayCell d (a / 4)).bad = false) (len : Nat) :
    readWord d q a len = (d, ⟨(delayCell d (a / 4)).w.p, .sample⟩) := by
  have hw : a % 0x4000000 / 4 = a / 4 := by rw [Nat.mod_eq_of_lt ha]
  unfold readWord absentAt
  rw [area_delay ha]
  simp [hw, hostDelayBlocked_ready hp hr, deadOr, hostParity, hb]

theorem writeWord_alias {b : Bool} (ha : areaOf a = .aliases b) (h4 : a % 4 = 0) (hw : a % 0x4000000 / 4 = w)
    (v : Word) (t : Tag) : writeWord d q a 4 v t = hostAtomic d q w a (aliasOp d w b) v := by
  have hl : laneWord a 4 v = v := by
    unfold laneWord
    rw [h4, Nat.mul_zero, Nat.pow_zero, Nat.mul_one, Nat.mod_eq_of_lt v.isLt, BitVec.ofNat_toNat, BitVec.setWidth_eq]
  unfold writeWord absentAt groupEmpty registerArea
  rw [ha]
  simp [hw, hl]

theorem writeWord_tag (o : BitVec 24) (hp : bankPresent d o.toNat = true) (hr : bankReady d (bankOf o.toNat) = true)
    (hb : (delayCell d o.toNat).bad = false) (v : Word) (t : Tag) :
    writeWord d q (0xC000000 + o.toNat) 1 v t =
      putDelay d o.toNat ⟨(delayCell d o.toNat).w.p, tagOfCode (v.toNat % 256 % 16)⟩ := by
  have hw : 0xC000000 + o.toNat - 0xC000000 = o.toNat := Nat.add_sub_cancel_left _ _
  unfold writeWord absentAt groupEmpty registerArea
  rw [area_tags]
  simp only [delayTagWrite, hw, hostDelayBlocked_ready hp hr]
  rw [← hostTagWrite_good hb q (v.toNat % 256)]
  simp

end

/-! ### An access placed in a bank cycle (R196, R197) -/

/-- An access of one word that has reached its bank: a write of `y`, or a read. -/
def wordAccess (q : Req) (a : Nat) (y : Option (BitVec 64)) : HostAcc := ⟨q, a, 4, y, 0, true, 0, .uninit⟩

section
variable {d : Device} {q : Req} {a : Nat} {pl : Place}

theorem accStep_complete {p : Option Place} {g : HostAcc} (h : accWords g ≤ g.done) : accStep p (d, g) = (d, g) := if_pos h

theorem accStep_perform {p : Option Place} {y : Option (BitVec 64)} (h : placing d p a 4 y.isSome = .perform) :
    accStep p (d, wordAccess q a y) = accWord d (wordAccess q a y) := by
  unfold accStep
  rw [if_neg (by simp [wordAccess, accWords])]
  simp [wordAccess, h]

theorem accStep_again {p : Option Place} {y : Option (BitVec 64)} (h : placing d p a 4 y.isSome = .again) :
    accStep p (d, wordAccess q a y) = (d, wordAccess q a y) := by
  unfold accStep
  rw [if_neg (by simp [wordAccess, accWords])]
  simp [wordAccess, h]

/-- An access performed whole in the cycle named takes no further cycle. -/
theorem accSteps_perform {p p' : Option Place} {y : Option (BitVec 64)} {e : Device} {g : HostAcc}
    (h : placing d p a 4 y.isSome = .perform) (hw : accWord d (wordAccess q a y) = (e, g)) (hg : accWords g ≤ g.done) :
    accStep p' (accStep p' (accStep p (d, wordAccess q a y))) = (e, g) := by
  rw [accStep_perform h, hw, accStep_complete hg, accStep_complete hg]

/-- R187: a write performed stores its word, and its journal entry follows. -/
theorem accServe_write (ha : a < 0x4000000) (hp : bankPresent d (a / 4) = true)
    (hr : bankReady d (bankOf (a / 4)) = true) {x : BitVec 64} (h : placing d (some pl) a 4 true = .perform) :
    accServe (some pl) d (wordAccess q a (some x)) =
      (journal (putDelay { d with wrNone := false } (a / 4) ⟨BitVec.ofNat 32 x.toNat, .sample⟩) q a false, none) := by
  have hput := writeWord_delay (d := { d with wrNone := false }) (q := q) ha hp hr (BitVec.ofNat 32 x.toNat) .sample
  have hword : accWord d (wordAccess q a (some x)) =
      (putDelay { d with wrNone := false } (a / 4) ⟨BitVec.ofNat 32 x.toNat, .sample⟩,
      { wordAccess q a (some x) with done := 1, inert := false }) := by
    simp only [accWord, wordAccess, Nat.mul_zero, Nat.add_zero, Nat.pow_zero, Nat.div_one,
      Nat.min_eq_left (by decide : 4 ≤ 4), hput]
    rfl
  unfold accServe
  dsimp only
  rw [accSteps_perform h hword (by exact Nat.le_refl 1)]
  rfl

/-- R187: a read performed gives the payload of its word. -/
theorem accServe_read (ha : a < 0x4000000) (h4 : a % 4 = 0) (hp : bankPresent d (a / 4) = true)
    (hr : bankReady d (bankOf (a / 4)) = true) (hb : (delayCell d (a / 4)).bad = false)
    (h : placing d (some pl) a 4 false = .perform) :
    accServe (some pl) d (wordAccess q a none) = (accGives d { wordAccess q a none with
      done := 1, got := (delayCell d (a / 4)).w.p.toNat, tag := .sample }, none) := by
  have hword : accWord d (wordAccess q a none) = (d, { wordAccess q a none with
      done := 1, got := (delayCell d (a / 4)).w.p.toNat, tag := .sample }) := by
    unfold accWord wordAccess
    simp [readWord_delay ha hp hr hb, lanes_delay ha h4]
  unfold accServe
  dsimp only
  rw [accSteps_perform h hword (by exact Nat.le_refl 1)]
  rfl

/-- R196: an access for which neither the cycle named nor a certainly idle one is free is left as it was. -/
theorem accServe_again {y : Option (BitVec 64)} (h : placing d (some pl) a 4 y.isSome = .again)
    (hi : bankIdle d (bankOf (a / 4)) = false) (ha : a < 0x4000000) :
    accServe (some pl) d (wordAccess q a y) = (d, some (wordAccess q a y)) := by
  have hidle : placing d (some .idle) a 4 y.isSome = .again := by simp [placing, delayWordOf_delay ha, hi]
  unfold accServe
  simp only [Option.isNone_some, Bool.false_eq_true, if_false, accStep_again h, accStep_again hidle]
  rfl

/-- R196: the one access that waits at a bank is served there, and waits on where it has words left. -/
theorem serveBank_single {h : HostAcc} (hw : d.waits = [h]) (p : Place) :
    serveBank d (bankOf (delayWordOf h.addr)) (some p) =
      withWaits (accServe (some p) d h).1 (accServe (some p) d h).2.toList := by
  unfold serveBank
  rw [hw]
  simp [waitsAt, serveNext, withWaits]

end

section
variable {d : Device} {q : Req} {a : Nat} {pl : Place}

/-- What a completed read of one word gives its requester (R198). -/
def givenWord (d : Device) (q : Req) (p : Word) : Device :=
  let e := respond d q p.toNat .sample
  match q with
  | .pcie => { e with pcieCpl := [p] }
  | .hspi => { e with hspiOut := [p] }
  | _ => e

theorem accGives_word (p : Word) :
    accGives d { wordAccess q a none with done := 1, got := p.toNat, tag := .sample } = givenWord d q p := by
  unfold accGives givenWord
  cases q <;> simp [wordAccess, accWords]

theorem givenWord_withWaits (l : List HostAcc) (p : Word) :
    givenWord (withWaits d l) q p = withWaits (givenWord d q p) l := by
  unfold givenWord
  rw [respond_withWaits]
  cases q <;> rfl

/-- An access that its bank takes, and that no other waits before, is served as it reaches the bank. -/
theorem placedAccess_ready (hw : d.waits = []) (ha : a < 0x4000000) (hp : bankPresent (touch d a) (a / 4) = true)
    (hr : bankReady (touch d a) (bankOf (a / 4)) = true) (y : Option (BitVec 64)) :
    placedAccess d q a 4 y pl =
      (let r := accServe (some pl) (withWaits (touch d a) [wordAccess q a y]) (wordAccess q a y)
       entryCheck (withWaits r.1 r.2.toList)) := by
  have hnone : deadAccess (touch d a) q a = none := by
    unfold deadAccess absentAt
    rw [area_delay ha, delayWordOf_delay ha, hostDelayBlocked_ready hp hr]
    simp
  have hone : (touch d a).waits ++ [wordAccess q a y] = [wordAccess q a y] := by rw [touch_waits, hw, List.nil_append]
  have hview : delayView a = true := decide_eq_true (by omega)
  unfold placedAccess
  dsimp only
  rw [if_pos ⟨hview, by rw [hnone]; rfl⟩]
  exact congrArg entryCheck ((congrArg (serveBank · _ _) (congrArg (withWaits (touch d a)) hone)).trans
    (serveBank_single (h := wordAccess q a y) rfl pl))

/-- R187: a write performed in the cycle where it is placed stores its word, tagged SAMPLE. -/
theorem placedAccess_write (hw : d.waits = []) (ha : a < 0x4000000) (hp : bankPresent (touch d a) (a / 4) = true)
    (hr : bankReady (touch d a) (bankOf (a / 4)) = true) {x : BitVec 64}
    (h : placing (touch d a) (some pl) a 4 true = .perform) :
    placedAccess d q a 4 (some x) pl = written (putDelay (found d a) (a / 4) ⟨BitVec.ofNat 32 x.toNat, .sample⟩) q a := by
  have hf : withWaits (found d a) [] = found d a := withWaits_self ((touch_waits d a).trans hw)
  have hs := accServe_write (q := q) (x := x) ha
    ((bankPresent_withWaits _ [wordAccess q a (some x)] _).trans hp)
    ((bankReady_withWaits _ _ _).trans hr) ((placing_withWaits _ _ _ _ _ _).trans h)
  have he : ({ withWaits (touch d a) [wordAccess q a (some x)] with wrNone := false } : Device) =
    withWaits (found d a) [wordAccess q a (some x)] := rfl
  rw [placedAccess_ready hw ha hp hr]
  dsimp only
  rw [hs, he]
  dsimp only [Option.toList]
  rw [putDelay_withWaits, journal_withWaits, withWaits_withWaits, ← journal_withWaits, ← putDelay_withWaits, hf]
  rfl

/-- R187: a read performed in the cycle where it is placed gives the payload of its word to its requester. -/
theorem placedAccess_read (hw : d.waits = []) (ha : a < 0x4000000) (h4 : a % 4 = 0)
    (hp : bankPresent (touch d a) (a / 4) = true) (hr : bankReady (touch d a) (bankOf (a / 4)) = true)
    (hb : (delayCell (touch d a) (a / 4)).bad = false)
    (h : placing (touch d a) (some pl) a 4 false = .perform) :
    placedAccess d q a 4 none pl = entryCheck (givenWord (touch d a) q (delayCell (touch d a) (a / 4)).w.p) := by
  have ht : withWaits (touch d a) [] = touch d a := withWaits_self ((touch_waits d a).trans hw)
  have hc := delayCell_withWaits (touch d a) [wordAccess q a none] (a / 4)
  have hs := accServe_read (q := q) ha h4 ((bankPresent_withWaits _ [wordAccess q a none] _).trans hp)
    ((bankReady_withWaits _ _ _).trans hr) ((congrArg Cell.bad hc).trans hb) ((placing_withWaits _ _ _ _ _ _).trans h)
  rw [placedAccess_ready hw ha hp hr]
  dsimp only
  rw [hs, hc]
  dsimp only [Option.toList]
  rw [accGives_word, givenWord_withWaits, withWaits_withWaits, ← givenWord_withWaits, ht]

/-- R196: an access for which no cycle is free waits at its bank. -/
theorem placedAccess_again (hw : d.waits = []) (ha : a < 0x4000000) (hp : bankPresent (touch d a) (a / 4) = true)
    (hr : bankReady (touch d a) (bankOf (a / 4)) = true) {y : Option (BitVec 64)}
    (h : placing (touch d a) (some pl) a 4 y.isSome = .again) (hi : bankIdle (touch d a) (bankOf (a / 4)) = false) :
    placedAccess d q a 4 y pl = entryCheck (withWaits (touch d a) [wordAccess q a y]) := by
  have hs := accServe_again (q := q) ((placing_withWaits _ [wordAccess q a y] _ _ _ _).trans h)
    ((bankIdle_withWaits _ _ _).trans hi) ha
  rw [placedAccess_ready hw ha hp hr, hs]
  rfl

end

/-! ### The rows of the banks -/

section
variable {d : Device} {b : Fin 128}

/-- The canaries written one after another, in a list of them, stand (R211). -/
theorem canary_foldl_putCanary (l : List (Fin 4)) (d : Device) (i : Fin 4) :
    sparseGet cellUninit (l.foldl (fun d i => putCanary b d (i, canaryWord i)) d).canary (4 * b.val + i.val) =
      if i ∈ l then canaryWord i else sparseGet cellUninit d.canary (4 * b.val + i.val) := by
  induction l generalizing d with
  | nil => rfl
  | cons j l ih =>
    have hput : sparseGet cellUninit (putCanary b d (j, canaryWord j)).canary (4 * b.val + i.val) =
        if i = j then canaryWord j else sparseGet cellUninit d.canary (4 * b.val + i.val) := by
      unfold putCanary
      rw [sparseGet_put]
      simp [Fin.ext_iff]
    rw [List.foldl_cons, ih, hput]
    by_cases hj : i = j
    · subst hj
      simp
    · simp [hj]

theorem canary_setBank (d : Device) (b : Fin 128) (st : BankSt) : (setBank d b st).canary = d.canary := by
  unfold setBank clearDelayResv mapAg
  exact (apply_ite (fun e : Device => e.canary) _ _ _).trans (ite_self _)

/-- R211: a bank that has just entered retention compares equal. -/
theorem canariesOk_retain (d : Device) (b : Fin 128) : canariesOk (retain d b) b = true := by
  refine List.all_eq_true.2 (fun i hi => decide_eq_true ?_)
  unfold retain
  rw [canary_setBank]
  exact (canary_foldl_putCanary (List.finRange 4) d i).trans (if_pos hi)

theorem transitionDone_waking (h : d.banks[b] = .waking) (lost : List (Fin 4 × Cell)) :
    transitionDone d b lost = retainEnd d b lost (fun d => setBank d b .on) := by
  simp only [transitionDone, h]

theorem transitionDone_starting (h : d.banks[b] = .starting) (lost : List (Fin 4 × Cell)) :
    transitionDone d b lost = startSweep d b := by
  simp only [transitionDone, h]

/-- R210: after its sweep a bank is in the state its field asks for. -/
theorem sweepDone_sweeping (h : d.banks[b] = .sweeping) (hb : b.val < bankCount d) : sweepDone d b =
    (let f := getF d (F.DLY_BANKPWR.PWR (b.val / 16) (b.val % 16))
     if f = 1 then retain d b else setBank d b (if f = 2 then .off else .on)) := by
  unfold sweepDone
  rw [if_pos ⟨h, hb⟩]
  dsimp only
  rw [apply_ite (setBank d b)]

theorem present_DLY (d : Device) {a : Nat} (hb : a / 0x10000 = 0x1C12) : subAbsent d a = false := by
  simp only [subAbsent, hb]

theorem row_DLY_BANKPWR : ∀ k : Fin 8, regRow (Adr.DLY_BANKPWR k.val) = some (rowsDLY[1], false) := by decide

theorem block_DLY_BANKPWR (k : Fin 8) : Adr.DLY_BANKPWR k.val / 0x10000 = 0x1C12 := by
  unfold Adr.DLY_BANKPWR
  omega

theorem applyReg_DLY_BANKPWR (d : Device) (q : Req) (k : Fin 8) (r : RegRow) (v : Word) :
    applyReg d q (Adr.DLY_BANKPWR k.val) r v = bankPowerWrite d k v := by
  have hk : (⟨(Adr.DLY_BANKPWR k.val - 0x1C120010) / 4 % 8, by omega⟩ : Fin 8) = k :=
    Fin.ext (by unfold Adr.DLY_BANKPWR; dsimp only; omega)
  simp only [applyReg, block_DLY_BANKPWR]
  rw [if_pos (by unfold Adr.DLY_BANKPWR; omega), hk]

end

/-! ### The commands -/

section
variable {c : Instr} {s : State} {q : Req} {a w : Nat} {v : Word} {e : Device}

/-- A write of up to a word through a view of delay memory is, with no access waiting, one write of that word. -/
theorem viewWrite_completes {len : Nat} (hx : exec c s = onAccess s (.write q a len v.toNat)) (h : mayReach s.dev = true)
    (hw : s.dev.waits = []) (hl : len ≠ 8) (he : writeWord (found s.dev a) q a len v .sample = e) :
    completes c s (written e q a) := by
  refine completes_access h hx ?_
  have hput : busPut (found s.dev a) q a len v.toNat .sample = e := by
    unfold busPut
    rw [settle_none (d := found s.dev a) ((touch_waits s.dev a).trans hw)]
    dsimp only
    rw [if_neg hl, BitVec.ofNat_toNat, BitVec.setWidth_eq, he]
  rw [← hput]
  rfl

/-- R200: an atomic through a window of aliases does the operation its group's setting gives the window. -/
theorem aliasWrite_completes {windowB : Bool} {op : AliasOp} (hx : exec c s = onAccess s (.write q a 4 v.toNat))
    (h : mayReach s.dev = true) (hw : s.dev.waits = []) (ha : areaOf a = .aliases windowB) (h4 : a % 4 = 0)
    (hi : a % 0x4000000 / 4 = w) (hp : bankPresent (found s.dev a) w = true)
    (hr : bankReady (found s.dev a) (bankOf w) = true) (hop : aliasOp (found s.dev a) w windowB = op) :
    completes c s (written (atomicDone (found s.dev a) q w op v) q a) := by
  refine viewWrite_completes hx h hw (by decide) ?_
  rw [writeWord_alias ha h4 hi, hop, hostAtomic_ready hp hr]

end

/-- Settles O52, a clause per row. -/
theorem delayAccessesComplete : Obligations.DelayAccessesComplete := by
  unfold Obligations.DelayAccessesComplete
  intro s q addr o26 o24 v x k b pl lost
  refine ⟨fun h hw => ⟨?placed, ?atomic, ?tag, ?power⟩, fun hheld => ⟨fun hb => ⟨fun hc => ?kept, fun hc => ?lost⟩,
    canariesOk_retain s.dev b, fun hb => ?starting, fun hb hn => ?swept, ?busy⟩⟩
  case placed =>
    intro a w d h4 ha hp hr
    refine ⟨fun hpl => ?write, fun hpl hb => ?read, fun y hpl hi => ?again⟩
    case write => exact completes_access h rfl (placedAccess_write hw ha hp hr hpl)
    case read =>
      refine completes_access h rfl ((placedAccess_read hw ha h4 hp hr hb hpl).trans ?_)
      cases q <;> rfl
    case again =>
      exact completes_access h rfl ((placedAccess_again hw ha hp hr hpl hi).trans rfl)
  case atomic =>
    intro w base _ a d c e h4 hp hr
    have hlt := o26.isLt
    refine ⟨fun hal => ⟨fun hb => ?add, fun hb => ?swap⟩, fun hal => ⟨fun hb => ?set, fun hb => ?clear⟩⟩ <;> subst hb
    case add =>
      exact aliasWrite_completes (op := .add) rfl h hw (area_aliasA o26) (by omega) (by omega) hp hr
        (aliasOp_arithmetic hal _)
    case swap =>
      exact aliasWrite_completes (op := .swap) rfl h hw (area_aliasB o26) (by omega) (by omega) hp hr
        (aliasOp_arithmetic hal _)
    case set =>
      exact aliasWrite_completes (op := .set) rfl h hw (area_aliasA o26) (by omega) (by omega) hp hr
        (aliasOp_bits hal _)
    case clear =>
      exact aliasWrite_completes (op := .clear) rfl h hw (area_aliasB o26) (by omega) (by omega) hp hr
        (aliasOp_bits hal _)
  case tag =>
    intro a w d hp hr hb
    exact viewWrite_completes rfl h hw (by decide) (writeWord_tag o24 hp hr hb v .sample)
  case power =>
    intro a
    have hb := block_DLY_BANKPWR k
    exact plainReg_completes rfl h (regs_addr (by omega) (by omega)) (present_DLY _ hb)
      ⟨_, row_DLY_BANKPWR k, rfl⟩ (mediaReg_block (by omega) (by omega)) (aonReg_block (by omega) (by omega))
      (fun r => applyReg_DLY_BANKPWR _ q k r v)
  case kept =>
    exact device_completes (f := (transitionDone · b lost)) hheld rfl ((transitionDone_waking hb lost).trans (if_pos hc))
  case lost =>
    exact device_completes (f := (transitionDone · b lost)) hheld rfl
      ((transitionDone_waking hb lost).trans (if_neg (by simp [hc])))
  case starting =>
    exact device_completes (f := (transitionDone · b lost)) hheld rfl (transitionDone_starting hb lost)
  case swept =>
    exact device_completes (f := fun d => bootProgress (sweepDone d b)) hheld rfl
      (congrArg bootProgress (sweepDone_sweeping hb hn))
  case busy => exact device_completes (f := fun d => { d with memBusy := false }) hheld rfl rfl

end Sys2Proof.Machine
end

section
/-! PROOFS. The Spin words and the delivery of a due result (R212, R213, R215, R217, R218). -/

namespace Sys2Proof.Machine

/-- A Spin word is defined as a long word of an engine (R371). -/
theorem spinOk {i : Issue} (hl : i.slot = .long) (hn : isCc i.who = false) :
    (decide (i.slot = .long) && !isCc i.who) = true := by
  rw [decide_long hl, hn]
  rfl

/-- A role's substitute in mirror mode is found by the roles and the mirror modes alone. -/
theorem mirrorOf_setAg {d : Device} {n : Fin 68} {e : Engine} (hm : e.mirror = (ag d n).mirror)
    (hr : e.role = (ag d n).role) (role : Nat) : mirrorOf (setAg d n e) role = mirrorOf d role := by
  have same : ∀ m, (ag (setAg d n e) m).mirror = (ag d m).mirror ∧ (ag (setAg d n e) m).role = (ag d m).role := by
    intro m
    by_cases h : n = m
    · subst h
      rw [ag_setAg_same]
      exact ⟨hm, hr⟩
    · rw [ag_setAg_other d e h]
      exact ⟨rfl, rfl⟩
  simp only [mirrorOf, same]

theorem mirrorOf_tagFault (d : Device) (n : Fin 68) (b : Bool) (role : Nat) :
    mirrorOf (tagFault d n b) role = mirrorOf d role := by
  unfold tagFault
  refine mirrorOf_setAg ?_ ?_ role <;> rfl

/-- What an issue that its unit accepts puts in flight: its slot and program, the result with its status, the owner and a
substitute in mirror mode as destinations, and the cycle of NSTAGE + 2 cycles later (R213, R215, R217). -/
def acceptedFly (d : Device) (n : Fin 68) (p : Fin 8) (x : TWord) : SpinFly :=
  let u := d.spin[spinUnitOf d n]
  let r := spinEval u p x (ag d n).chk
  ⟨spinSlotOf d n, p, r.1, r.2.1, r.2.2, n :: (mirrorOf d (ag d n).role).toList, (ag d n).cur + spinStages u p + 2⟩

/-- An issue by a role's owner in its slot, to a unit that runs, adds its result to the unit's results in flight, and
records a failed type check of the operand (R213, R217, R218). -/
theorem spinIssue_accepted {d : Device} {n : Fin 68} (p : Fin 8) (x : TWord) (ho : (ag d n).own = .owner)
    (hlive : Regions.live d.regions (spinRegion (spinUnitOf d n)) = true)
    (hslot : (ag d n).cur % 4 = (spinSlotOf d n).val) :
    spinIssue d n p x = { tally (tagFault d n ((ag d n).chk && decide (x.t = .addr))) 3 1 with
      spin := d.spin.set (spinUnitOf d n) { d.spin[spinUnitOf d n] with
        fly := d.spin[spinUnitOf d n].fly ++ [acceptedFly d n p x] } } := by
  unfold spinIssue
  simp only [ho, hslot, hlive, mirrorOf_tagFault, ne_eq, not_true_eq_false, if_false]
  rfl

/-- A due result of a unit leaves its list of results in flight and is delivered (R217). -/
theorem spinResult_due {d : Device} {u : Fin 16} {f : SpinFly} {fs : List SpinFly}
    (h : takeDue (spinDue d) d.spin[u].fly = some (f, fs)) :
    spinResult d u = spinDeliver { d with spin := d.spin.set u { d.spin[u] with fly := fs } } u f := by
  unfold spinResult
  rw [h]

/-- Settles O24: the words are defined as long words of an engine, the first due result is the one delivered, and the
clause of the issue is `spinIssue_accepted` for one operand. -/
theorem spinCompletes : Obligations.SpinCompletes := by
  unfold Obligations.SpinCompletes
  intro s i gd ga p u f fs
  refine ⟨fun h hl hn => ?words, fun hheld hdue => ?result, fun d ho hlive hslot => ?accepted⟩
  case words =>
    have ok := spinOk hl hn
    exact ⟨form_completes h ok rfl rfl, form_completes h ok rfl rfl, form_completes h ok rfl rfl⟩
  case result => exact device_completes (f := (spinResult · u)) hheld rfl (spinResult_due hdue)
  case accepted =>
    rw [spinIssue_accepted p _ ho hlive hslot]
    simp [acceptedFly]

end Sys2Proof.Machine
end

section
/-! PROOFS. Register writes of the route, the generators, the mix units, the ports and the Guard (R238, R239, R247, R249, R250,
R253, R270, R287 to R291). -/

namespace Sys2Proof.Machine

/-! ### The registers' rows and blocks -/

theorem row_GEN_SINE : ∀ g : Fin 16, regRow (Adr.GEN_SINE g.val) = some (rowsROUTE[15], false) := by decide

theorem row_GEN_SINE_high : ∀ g : Fin 16, regRow (Adr.GEN_SINE g.val + 4) = some (rowsROUTE[15], true) := by decide

theorem row_GEN_NOISE : ∀ g : Fin 16, regRow (Adr.GEN_NOISE g.val) = some (rowsROUTE[16], false) := by decide

theorem row_GEN_NOISE_high : ∀ g : Fin 16, regRow (Adr.GEN_NOISE g.val + 4) = some (rowsROUTE[16], true) := by decide

theorem row_MIX_CTL : ∀ m : Fin 16, regRow (Adr.MIX_CTL m.val) = some (rowsMIX[0], false) := by decide

theorem row_MIX_XPCMD : ∀ m : Fin 16, regRow (Adr.MIX_XPCMD m.val) = some (rowsMIX[2], false) := by decide

theorem row_MIX_XPCMD_high : ∀ m : Fin 16, regRow (Adr.MIX_XPCMD m.val + 4) = some (rowsMIX[2], true) := by decide

theorem row_SAP_CTL : ∀ n : Fin 32, regRow (Adr.SAP_CTL n.val) = some (rowsSAP[0], false) := by decide

theorem block_GEN_SINE (g : Fin 16) : Adr.GEN_SINE g.val / 0x10000 = 0x1C05 := by
  unfold Adr.GEN_SINE
  omega

theorem block_GEN_NOISE (g : Fin 16) : Adr.GEN_NOISE g.val / 0x10000 = 0x1C05 := by
  unfold Adr.GEN_NOISE
  omega

theorem block_MIX_XPCMD (m : Fin 16) : Adr.MIX_XPCMD m.val / 0x10000 = 0x1C06 := by
  unfold Adr.MIX_XPCMD
  omega

theorem block_MIX_CTL (m : Fin 16) : Adr.MIX_CTL m.val / 0x10000 = 0x1C06 := by
  unfold Adr.MIX_CTL
  omega

theorem block_SAP_CTL (n : Fin 32) : Adr.SAP_CTL n.val / 0x10000 = 0x1C09 := by
  unfold Adr.SAP_CTL
  omega

theorem block_GUARD_CEIL (c : Fin 1024) : Adr.GUARD_CEIL c.val / 0x10000 = 0x1C07 := by
  unfold Adr.GUARD_CEIL
  omega

theorem row_GUARD_CEIL (c : Fin 1024) : regRow (Adr.GUARD_CEIL c.val) = some (rowsGUARD[0], false) := by
  simp only [regRow, blockRows, block_GUARD_CEIL]
  exact rowOf_member c.isLt (by decide) (by decide) rfl

section
variable {d : Device} {a : Nat}

theorem present_ROUTE (d : Device) (hb : a / 0x10000 = 0x1C05) : subAbsent d a = false := by
  simp only [subAbsent, hb]

theorem present_MIX (d : Device) (hb : a / 0x10000 = 0x1C06) : subAbsent d a = false := by
  simp only [subAbsent, hb]

/-- The registers of a port that the part has are present (R43). -/
theorem present_SAP_CTL {n : Fin 32} (h : n.val < sapCount d) : subAbsent d (Adr.SAP_CTL n.val) = false := by
  have ho : Adr.SAP_CTL n.val % 0x10000 / 0x800 = n.val := by unfold Adr.SAP_CTL; omega
  simp [subAbsent, block_SAP_CTL, ho, h]

/-- The Guard's channels of a port that the part has are present (R43). -/
theorem present_GUARD_CEIL {c : Fin 1024} (h : c.val / 32 < sapCount d) : subAbsent d (Adr.GUARD_CEIL c.val) = false := by
  have ho : Adr.GUARD_CEIL c.val % 0x10000 = 0x20 * c.val := by unfold Adr.GUARD_CEIL; omega
  have hn : 0x20 * c.val / 0x400 = c.val / 32 := by omega
  have hlow : 0x20 * c.val < 0x8000 := by omega
  simp [subAbsent, block_GUARD_CEIL, ho, hn, hlow, h]

end

theorem sapCount_found (d : Device) (a : Nat) : sapCount (found d a) = sapCount d := by
  unfold sapCount
  rw [found_variant]

section
variable {c : Instr} {s : State} {q : Req} {a : Nat} {e : Device}

/-- No register of the blocks ROUTE to SAP waits for a handshake: a write command of one completes with what its rule leaves. -/
theorem audioReg_completes {v : Word} (hx : exec c s = onAccess s (.write q a 4 v.toNat)) (h : mayReach s.dev = true)
    (hlo : 0x1C05 ≤ a / 0x10000) (hhi : a / 0x10000 ≤ 0x1C09) (hs : subAbsent s.dev a = false)
    (hr : ∃ r, regRow a = some (r, false) ∧ r.wide = false) (he : ∀ r, applyReg (found s.dev a) q a r v = e) :
    completes c s (written e q a) :=
  plainReg_completes hx h (regs_addr (by omega) (by omega)) hs hr (mediaReg_block (by omega) (by omega))
    (aonReg_block (by omega) (by omega)) he

/-- A command that writes both halves of a W register of ROUTE or MIX completes with what the register's rule leaves. -/
theorem audioPair_completes {v : BitVec 64} (hx : exec c s = onAccess s (.pair q a v.toNat)) (h : mayReach s.dev = true)
    (hb : a / 0x10000 = 0x1C05 ∨ a / 0x10000 = 0x1C06) (h8 : a % 8 = 0)
    (hr : ∃ r, regRow a = some (r, false) ∧ regRow (a + 4) = some (r, true) ∧ r.wide = true)
    (he : ∀ r, applyWide (foundPair s.dev q a v.toNat) q a (lastAt q a) r v.toNat = e) :
    completes c s (written e q (lastAt q a)) := by
  have hs : ∀ b, b / 0x10000 = a / 0x10000 → subAbsent s.dev b = false := fun b hba =>
    hb.elim (fun h5 => present_ROUTE _ (hba.trans h5)) (fun h6 => present_MIX _ (hba.trans h6))
  exact pair_completes hx h (regs_addr (by omega) (by omega)) (regs_addr (by omega) (by omega)) (hs a rfl) (hs _ (by omega)) hr
    (mediaReg_block (by omega) (by omega)) (aonReg_block (by omega) (by omega)) he

end

/-- A bit that is 0 is a digit 0 of the value. -/
theorem digit_zero_of_getLsbD {v : Word} {i : Nat} (h : v.getLsbD i = false) : v.toNat / 2 ^ i % 2 = 0 := by
  have hd := of_decide_eq_false ((getLsbD_eq_digit v i).symm.trans h)
  omega

/-! ### The route (R238, R239, R247) -/

section
variable {d : Device} {q : Req} {k : Fin 4} {x src i v : Nat}

theorem applyReg_ROUTE_CHG (d : Device) (q : Req) (r : RegRow) (v : Word) :
    applyReg d q Adr.ROUTE_CHG r v = routeChg d q v.toNat := rfl

theorem applyReg_ROUTE_CTL (d : Device) (q : Req) (r : RegRow) (v : Word) :
    applyReg d q Adr.ROUTE_CTL r v = routeCtl d q v.toNat := rfl

theorem applyReg_ROUTE_BYPSEL (d : Device) (q : Req) (r : RegRow) (v : Word) :
    applyReg d q Adr.ROUTE_BYPSEL r v = bypWrite d q v.toNat := rfl

/-- R238: a legal change that fits is staged behind those of its domain, while the list has room. -/
theorem routeChg_stages (hx : v % 2 ^ 15 = x) (hs : v / 2 ^ 16 % 2 ^ 15 = src) (hk : sinkDom d x = some k)
    (hb : sinkBypassed d x = false) (hl : routeLegal d k x src = true) (hf : changeFits d k x src = true)
    (hn : d.rtStage[k].length < 1024) : routeChg d q v = { d with
      rtStage := d.rtStage.set k (d.rtStage[k] ++ [⟨x, src, getF d F.ROUTE_CTL.FADE, reqPath q⟩]) } := by
  unfold routeChg
  rw [hx, hs]
  simp only [hk]
  rw [if_neg (by simp [hb]), if_neg (by simp [hl, hf]), if_neg (Nat.not_le.2 hn)]

/-- R239: DISCARD empties the staged list of the domain named. -/
theorem routeCtlTaken_discard (h : v / 16 % 2 = 1) : routeCtlTaken d v =
    { setF (setF (setF d F.ROUTE_CTL.DOMAIN (v % 4)) F.ROUTE_CTL.NEXT (v / 4)) F.ROUTE_CTL.FADE (v / 2 ^ 8) with
      rtStage := d.rtStage.set (dom v) [] } := by
  unfold routeCtlTaken
  simp only [setF_route]
  rw [if_pos h]

theorem rtStage_routeCtlTaken_discard (h : v / 16 % 2 = 1) : (routeCtlTaken d v).rtStage[dom v] = [] := by
  rw [routeCtlTaken_discard h]
  simp

theorem routeCtl_noGo (hc : domConfigured d (dom v) = true) (hg : v / 8 % 2 = 0) : routeCtl d q v = routeCtlTaken d v := by
  unfold routeCtl
  dsimp only
  rw [if_neg (by simp [hc]), if_pos hg]

/-- R239: GO arms what is staged, where no list of the domain is armed; a list that is still staged has met no DISCARD. -/
theorem routeCtl_arms (hg : v / 8 % 2 = 1) (hc : domConfigured d (dom v) = true) (hs : (routeCtlTaken d v).rtStage[dom v] ≠ [])
    (ha : (routeCtlTaken d v).rtArmed[dom v] = none) : routeCtl d q v = routeArm (routeCtlTaken d v) (dom v) := by
  have hd : ¬ v / 16 % 2 = 1 := fun h => hs (rtStage_routeCtlTaken_discard h)
  unfold routeCtl
  dsimp only
  rw [if_neg (by simp [hc]), if_neg (by omega), if_neg hd, if_neg (by simp [ha])]

theorem routeArm_staged (h : d.rtStage[k] ≠ []) : routeArm d k = { d with
    rtArmed := d.rtArmed.set k (some ⟨targetOf d k (getB d F.ROUTE_CTL.NEXT) (getF d F.ROUTE_APPLYKO.KICKOFF), d.rtStage[k]⟩)
    rtStage := d.rtStage.set k [] } := if_neg h

/-- R247: the indexed entry of an engine that the part has takes a source that is legal for it, or no bypass. -/
theorem bypWrite_taken (hi : getF d F.ROUTE_BYPIDX.ENTRY = i) (he : i / 64 < engCount d)
    (hs : v % 2 ^ 16 = 0x8000 ∨ v % 2 ^ 16 = 0x8001 ∨
      (v % 2 ^ 16 < 0x8000 ∧ routeLegal d (rgnDomain d (i / 64)) i (v % 2 ^ 16) = true)) :
    bypWrite d q v = bypIndexNext { d with bypSel := sparsePut (fun _ => 0x8000) d.bypSel i (v % 2 ^ 16) } := by
  have hlegal : ¬ (v % 2 ^ 16 < 0x8000 ∧ ¬ routeLegal d (rgnDomain d (i / 64)) i (v % 2 ^ 16) = true) := by
    rintro ⟨hlt, hill⟩
    obtain h | h | ⟨-, h⟩ := hs
    · omega
    · omega
    · exact hill h
  unfold bypWrite
  simp only [hi]
  rw [if_neg (Nat.not_le.2 he), if_neg (by omega), if_neg hlegal]

end

/-! ### The generators (R249, R250) -/

section
variable {d : Device} {q : Req} {r : RegRow} {addr v : Nat}

theorem applyWide_GEN_SINE (g : Fin 16) : applyWide d q (Adr.GEN_SINE g.val) addr r v = sineWrite d g.val v := by
  have hg : (Adr.GEN_SINE g.val - 0x1C050000) % 0x80 / 8 = g.val := by unfold Adr.GEN_SINE; omega
  simp only [applyWide, block_GEN_SINE, hg]
  rw [if_neg (by unfold Adr.GEN_SINE Adr.ROUTE_CONST; omega), if_neg (by unfold Adr.GEN_SINE; omega),
    if_pos (by unfold Adr.GEN_SINE; omega)]

theorem applyWide_GEN_NOISE (g : Fin 16) : applyWide d q (Adr.GEN_NOISE g.val) addr r v = noiseWrite d g.val v := by
  have hg : (Adr.GEN_NOISE g.val - 0x1C050000) % 0x80 / 8 = g.val := by unfold Adr.GEN_NOISE; omega
  simp only [applyWide, block_GEN_NOISE, hg]
  rw [if_neg (by unfold Adr.GEN_NOISE Adr.ROUTE_CONST; omega), if_pos (by unfold Adr.GEN_NOISE; omega)]

end

/-! ### The mix units (R253) -/

section
variable {d : Device} {q : Req} {r : RegRow} {m : Fin 16} {addr v : Nat}

theorem applyReg_MIX_CTL (d : Device) (q : Req) (r : RegRow) (m : Fin 16) (v : Word) :
    applyReg d q (Adr.MIX_CTL m.val) r v = mixCtl d q m v.toNat := by
  have ho : Adr.MIX_CTL m.val % 0x10000 = 0x1000 * m.val := by unfold Adr.MIX_CTL; omega
  have hm : (⟨0x1000 * m.val / 0x1000 % 16, by omega⟩ : Fin 16) = m := Fin.ext (by dsimp only; omega)
  simp only [applyReg, block_MIX_CTL, mixApplyReg, ho, hm]
  rw [if_pos (by omega)]

theorem applyWide_MIX_XPCMD (m : Fin 16) : applyWide d q (Adr.MIX_XPCMD m.val) addr r v = xpCommand d q addr m v := by
  have hm : (⟨(Adr.MIX_XPCMD m.val - 0x1C060000) / 0x1000 % 16, by omega⟩ : Fin 16) = m :=
    Fin.ext (by unfold Adr.MIX_XPCMD; dsimp only; omega)
  simp only [applyWide, block_MIX_XPCMD, hm]
  rw [if_pos (by unfold Adr.MIX_XPCMD; omega)]

/-- R253: a command for a crosspoint that the unit has is staged behind the others, while the list has room. -/
theorem xpCommand_stages (hi : v % 2 ^ 8 < mixNin d m) (ho : v / 2 ^ 8 % 2 ^ 6 < mixNout d m)
    (hn : (mixUnit d m).staged.length < 1024) :
    xpCommand d q addr m v = setMix d m { mixUnit d m with
      staged := (mixUnit d m).staged ++
        [⟨v % 2 ^ 8, v / 2 ^ 8 % 2 ^ 6, (BitVec.ofNat 32 (v / 2 ^ 32)).toInt, v / 2 ^ 14 % 4⟩] } := by
  unfold xpCommand
  dsimp only
  rw [if_neg (by omega), if_neg (Nat.not_le.2 hn)]

theorem mixUnit_setMix_same (d : Device) (m : Fin 16) (x : MixUnit) : mixUnit (setMix d m x) m = x := by
  simp [mixUnit, setMix]

/-- R253: DISCARD empties the unit's staged list. -/
theorem mixCtlTaken_discard (h : v / 4 % 2 = 1) : mixCtlTaken d m v =
    setMix (setF d (F.MIX_CTL.NEXT m.val) (v / 2)) m
      { mixUnit (setF d (F.MIX_CTL.NEXT m.val) (v / 2)) m with staged := [] } := if_pos h

theorem staged_mixCtlTaken_discard (h : v / 4 % 2 = 1) : (mixUnit (mixCtlTaken d m v) m).staged = [] := by
  rw [mixCtlTaken_discard h, mixUnit_setMix_same]

theorem mixCtl_noGo (hg : v % 2 = 0) : mixCtl d q m v = mixCtlTaken d m v := if_pos hg

/-- R253: GO arms what is staged, where no list of the unit is armed; a list that is still staged has met no DISCARD. -/
theorem mixCtl_arms (hg : v % 2 = 1) (hc : domConfigured d (mixDom d m) = true) (hs : (mixUnit (mixCtlTaken d m v) m).staged ≠ [])
    (ha : (mixUnit (mixCtlTaken d m v) m).armed = none) : mixCtl d q m v = mixArm (mixCtlTaken d m v) m := by
  have hd : ¬ v / 4 % 2 = 1 := fun h => hs (staged_mixCtlTaken_discard h)
  unfold mixCtl
  dsimp only
  rw [if_neg (by omega), if_neg (by simp [hc]), if_neg hd, if_neg (by simp [ha])]

theorem mixArm_staged (h : (mixUnit d m).staged ≠ []) : mixArm d m = setMix d m { mixUnit d m with
    armed := some (targetOf d (mixDom d m) (getB d (F.MIX_CTL.NEXT m.val)) (getF d (F.MIX_APPLYKO.KICKOFF m.val)),
      (mixUnit d m).staged)
    staged := [] } := if_neg h

end

/-! ### The ports and the Guard (R270, R287 to R291) -/

section
variable {d : Device} {q : Req} {r : RegRow} {v : Word}

theorem applyReg_SAP_CTL (n : Fin 32) (hv : v.getLsbD 0 = true) : applyReg d q (Adr.SAP_CTL n.val) r v = sapUnmute d n := by
  have hn : (⟨(Adr.SAP_CTL n.val - 0x1C090000) / 0x800 % 32, by omega⟩ : Fin 32) = n :=
    Fin.ext (by unfold Adr.SAP_CTL; dsimp only; omega)
  simp only [applyReg, block_SAP_CTL, hn, hv, if_true]
  rw [if_pos (by unfold Adr.SAP_CTL; omega)]

theorem applyReg_GUARD_CEIL (c : Fin 1024) :
    applyReg d q (Adr.GUARD_CEIL c.val) r v = guardRtWrite d q (Adr.GUARD_CEIL c.val) v.toNat := by
  simp only [applyReg, block_GUARD_CEIL]
  unfold guardApply
  rw [if_neg (by unfold Adr.GUARD_CEIL Adr.GUARD_CTL; omega), if_pos (by unfold Adr.GUARD_CEIL; omega)]

theorem applyReg_GUARD_CTL (hv : v.getLsbD 0 = true) :
    applyReg d q Adr.GUARD_CTL r v = guardRelease d (getB d F.WDOG_CTL.EN) :=
  show (if v.getLsbD 0 = true then guardRelease d (getB d F.WDOG_CTL.EN) else d) = _ from if_pos hv

/-- R291: the watchdog's hold ends where the watchdog runs and a kick has come since. -/
theorem guardRelease_held {running : Bool} (hw : d.wdHold ≠ none) (hr : running = true) (hk : d.wdRestarted = true) :
    guardRelease d running = fadeInAll (setB { d with wdHold := none } F.GUARD_STAT.WDHOLD false) := if_pos ⟨hw, hr, hk⟩

section
variable {a n : Nat} {x : RtField}

/-- R6, R287: a register's one RT field takes a value in its range that is at least as tight. -/
theorem guardRtWrite_tightens (hf : rtFields a = [x]) (hr : rtInRange x (rtNew x n) = true)
    (ht : rtTighter x (getF d x.f) (rtNew x n) = true) : guardRtWrite d q a n = setF d x.f (rtNew x n) := by
  unfold guardRtWrite
  simp [hf, rtField, rtLoosens, hr, ht]

/-- R6, R288, R289: a value in range that would loosen a register's one RT field is not taken; it is counted and reported. -/
theorem guardRtWrite_loosens (hf : rtFields a = [x]) (hr : rtInRange x (rtNew x n) = true)
    (ht : rtTighter x (getF d x.f) (rtNew x n) = false) : guardRtWrite d q a n =
      raiseEv (setF (setF (incF (ignored d) F.GUARD_STAT.LOOSEN_CNT) F.GUARD_STAT.LPATH (reqPath q))
        F.GUARD_LOOSEN_ADDR.ADDR a) 0x197 := by
  unfold guardRtWrite
  simp [hf, rtField, rtLoosens, hr, ht]

end

/-- The RT field of GUARD_CEIL: a smaller ceiling is tighter, and none is out of range. -/
def ceilField (c : Fin 1024) : RtField := ⟨F.GUARD_CEIL.CEIL c.val, false, 0, 0x7FFFFFFF⟩

theorem rtFields_GUARD_CEIL (c : Fin 1024) : rtFields (Adr.GUARD_CEIL c.val) = [ceilField c] := by
  have hc : (Adr.GUARD_CEIL c.val - 0x1C070000) / 32 = c.val := by unfold Adr.GUARD_CEIL; omega
  have hz : Adr.GUARD_CEIL c.val % 32 = 0 := by unfold Adr.GUARD_CEIL; omega
  unfold rtFields
  rw [if_neg (by unfold Adr.GUARD_CEIL Adr.GUARD_WDOG; omega), if_pos (by unfold Adr.GUARD_CEIL; omega)]
  simp only [hc, hz, ceilField]

theorem rtNew_ceilField (c : Fin 1024) {n : Nat} (h : n < 2 ^ 31) : rtNew (ceilField c) n = n := by
  have hc : rtNew (ceilField c) n = n / 2 ^ 0 % 2 ^ 31 := rfl
  rw [hc, Nat.pow_zero, Nat.div_one, Nat.mod_eq_of_lt h]

theorem rtInRange_ceilField (c : Fin 1024) {n : Nat} (h : n < 2 ^ 31) : rtInRange (ceilField c) n = true := by
  have hc : rtInRange (ceilField c) n = decide (0 ≤ n ∧ n ≤ 0x7FFFFFFF) := rfl
  rw [hc, decide_eq_true_eq]
  omega

theorem rtTighter_ceilField (c : Fin 1024) (cur n : Nat) : rtTighter (ceilField c) cur n = decide (n ≤ cur) := rfl

end

/-! ### The commands -/

section
variable {s : State} {q : Req} {c : Instr} {e : Device} {v : Word}

theorem routeCtl_completes (hx : exec c s = onAccess s (.write q Adr.ROUTE_CTL 4 v.toNat)) (h : mayReach s.dev = true)
    (he : routeCtl (found s.dev Adr.ROUTE_CTL) q v.toNat = e) : completes c s (written e q Adr.ROUTE_CTL) :=
  audioReg_completes hx h (by decide) (by decide) (present_ROUTE _ (by decide)) ⟨_, rfl, rfl⟩
    (fun r => (applyReg_ROUTE_CTL _ q r v).trans he)

theorem mixCtl_completes {m : Fin 16} (hx : exec c s = onAccess s (.write q (Adr.MIX_CTL m.val) 4 v.toNat))
    (h : mayReach s.dev = true) (he : mixCtl (found s.dev (Adr.MIX_CTL m.val)) q m v.toNat = e) :
    completes c s (written e q (Adr.MIX_CTL m.val)) := by
  have hb := block_MIX_CTL m
  exact audioReg_completes hx h (by omega) (by omega) (present_MIX _ hb) ⟨_, row_MIX_CTL m, rfl⟩
    (fun r => (applyReg_MIX_CTL _ q r m v).trans he)

/-- GUARD_RT_WRITE at GUARD_CEIL completes with what the tighten-only rule leaves. -/
theorem guardCeil_completes {k : Fin 1024} (h : mayReach s.dev = true) (hp : k.val / 32 < sapCount s.dev)
    (he : guardRtWrite (found s.dev (Adr.GUARD_CEIL k.val)) q (Adr.GUARD_CEIL k.val) v.toNat = e) :
    completes (.guardRtWrite q (BitVec.ofNat 32 (Adr.GUARD_CEIL k.val)) v) s (written e q (Adr.GUARD_CEIL k.val)) := by
  have hb := block_GUARD_CEIL k
  have ha : (BitVec.ofNat 32 (Adr.GUARD_CEIL k.val)).toNat = Adr.GUARD_CEIL k.val := by
    rw [BitVec.toNat_ofNat]
    omega
  have hx : exec (.guardRtWrite q (BitVec.ofNat 32 (Adr.GUARD_CEIL k.val)) v) s =
      onAccess s (.write q (BitVec.ofNat 32 (Adr.GUARD_CEIL k.val)).toNat 4 v.toNat) := rfl
  rw [ha] at hx
  exact audioReg_completes hx h (by omega) (by omega) (present_GUARD_CEIL hp) ⟨_, row_GUARD_CEIL k, rfl⟩
    (fun r => (applyReg_GUARD_CEIL k).trans he)

end

/-- Settles O53, a clause per command: the access reaches the register's own rule, whose accepting case the hypotheses name. -/
theorem audioRegistersComplete : Obligations.AudioRegistersComplete := by
  unfold Obligations.AudioRegistersComplete
  intro s q v y k g m n c h
  refine ⟨fun hk hb hl hf hn => ?change, ⟨fun hg hc hs ha => ?routeGo, fun hd hg hc => ?routeDiscard⟩, fun hi hs => ?bypass,
    ?sine, ?noise, fun hi ho hn => ?crosspoint, ⟨fun hg hc hs ha => ?mixGo, fun hd hg => ?mixDiscard⟩, fun hp hm => ?unmute,
    fun hp hv => ⟨fun ht => ?tighten, fun ht => ?loosen⟩, fun hw hen hk => ?release⟩
  case change =>
    exact audioReg_completes rfl h (by decide) (by decide) (present_ROUTE _ (by decide)) ⟨_, rfl, rfl⟩
      (fun r => (applyReg_ROUTE_CHG _ q r v).trans (routeChg_stages rfl rfl hk hb hl hf hn))
  case routeGo =>
    exact routeCtl_completes rfl h ((routeCtl_arms ((getLsbD_iff v 3).1 hg) hc hs ha).trans (routeArm_staged hs))
  case routeDiscard =>
    have hgo : v.toNat / 8 % 2 = 0 := digit_zero_of_getLsbD (i := 3) hg
    exact routeCtl_completes rfl h ((routeCtl_noGo hc hgo).trans (routeCtlTaken_discard ((getLsbD_iff v 4).1 hd)))
  case bypass =>
    exact audioReg_completes rfl h (by decide) (by decide) (present_ROUTE _ (by decide)) ⟨_, rfl, rfl⟩
      (fun r => (applyReg_ROUTE_BYPSEL _ q r v).trans (bypWrite_taken rfl hi hs))
  case sine =>
    exact audioPair_completes rfl h (.inl (block_GEN_SINE g)) (by unfold Adr.GEN_SINE; omega)
      ⟨_, row_GEN_SINE g, row_GEN_SINE_high g, rfl⟩ (fun r => applyWide_GEN_SINE g)
  case noise =>
    exact audioPair_completes rfl h (.inl (block_GEN_NOISE g)) (by unfold Adr.GEN_NOISE; omega)
      ⟨_, row_GEN_NOISE g, row_GEN_NOISE_high g, rfl⟩ (fun r => applyWide_GEN_NOISE g)
  case crosspoint =>
    exact audioPair_completes rfl h (.inr (block_MIX_XPCMD m)) (by unfold Adr.MIX_XPCMD; omega)
      ⟨_, row_MIX_XPCMD m, row_MIX_XPCMD_high m, rfl⟩ (fun r => (applyWide_MIX_XPCMD m).trans (xpCommand_stages hi ho hn))
  case mixGo =>
    have hgo : v.toNat % 2 = 1 := by simpa using (getLsbD_iff v 0).1 hg
    exact mixCtl_completes rfl h ((mixCtl_arms hgo hc hs ha).trans (mixArm_staged hs))
  case mixDiscard =>
    have hgo : v.toNat % 2 = 0 := by simpa using digit_zero_of_getLsbD (i := 0) hg
    exact mixCtl_completes rfl h ((mixCtl_noGo hgo).trans (mixCtlTaken_discard ((getLsbD_iff v 2).1 hd)))
  case unmute =>
    have hb := block_SAP_CTL n
    rw [sapCount_found] at hp
    exact audioReg_completes (v := 1) rfl h (by omega) (by omega) (present_SAP_CTL hp) ⟨_, row_SAP_CTL n, rfl⟩
      (fun r => (applyReg_SAP_CTL n (by decide)).trans (if_pos hm))
  case tighten =>
    rw [sapCount_found] at hp
    have hset := guardRtWrite_tightens (d := found s.dev (Adr.GUARD_CEIL c.val)) (q := q) (rtFields_GUARD_CEIL c)
      (n := v.toNat) (by rw [rtNew_ceilField c hv, rtInRange_ceilField c hv])
      (by rw [rtNew_ceilField c hv, rtTighter_ceilField]; exact decide_eq_true ht)
    rw [rtNew_ceilField c hv] at hset
    exact guardCeil_completes h hp hset
  case loosen =>
    rw [sapCount_found] at hp
    exact guardCeil_completes h hp (guardRtWrite_loosens (rtFields_GUARD_CEIL c)
      (by rw [rtNew_ceilField c hv, rtInRange_ceilField c hv])
      (by rw [rtNew_ceilField c hv, rtTighter_ceilField]; exact decide_eq_false (Nat.not_le.2 ht)))
  case release =>
    exact audioReg_completes (v := 1) rfl h (by decide) (by decide) rfl ⟨_, rfl, rfl⟩
      (fun r => (applyReg_GUARD_CTL (by decide)).trans (guardRelease_held hw hen hk))

end Sys2Proof.Machine
end

section
/-! PROOFS. The rows of the audio ports, the rate converters, the Guard's pin and the watchdog (R57, R260, R263, R276, R290,
R292, R294, R382, R429). -/

namespace Sys2Proof.Machine

section
variable {d : Device} {n : Fin 32} {u : Fin 8}

/-! ### Ports -/

theorem sapBoundary_reached (hb : mayBound d n = true) (len : Option Nat) (phase ready zeroFrom : Nat) :
    sapBoundary d n len phase ready zeroFrom =
      startFrame (padBoundary (boundaryStatus (endFrame d n len zeroFrom) n len phase) n) n ready := if_pos hb

/-- R260: the frame that a running port in frame mode receives through pads that are not held enters as received. -/
theorem sapRxEnd_frame (ho : laneOn d n = true) (hp : padInOff d n = false) (hm : laneMode d n = 0) (bits : Nat)
    (ws : List Word) : sapRxEnd d n bits ws = setSap d n { sap d n with
      rx := (sap d n).rx ++ [rxWords d n (badLength d n (some bits)) ws], rxSeen := true } := by
  unfold sapRxEnd
  rw [if_neg (by simp [ho, hp]), hm]
  simp only [hp, Bool.false_eq_true, if_false]

theorem sapClockLoss_clocked (hc : (laneOn d n && laneMaster d n) = false) : sapClockLoss d n =
    setB (setSap d n { sap d n with fresh := true }) (F.SAP_STAT.CLKOK n.val) false :=
  if_neg (ne_true_of_eq_false hc)

/-! ### Rate converters -/

theorem asrcLock_unlocked (hl : Regions.live d.regions 0xA4 = true) (hk : getB d (F.ASRC_STAT.LOCK u) = false)
    (ratio : Word) : asrcLock d u ratio =
      setF (setB (setB (setB d (F.ASRC_STAT.LOCK u) true) (F.ASRC_STAT.RANGE u) false) (F.ASRC_STAT.STARVE u) false)
        (F.ASRC_RATIO.RATIO u) ratio.toNat :=
  if_neg (by simp [hl, hk])

/-- The status bit that records why a unit lost its lock (R276); a jump of the ratio has none. -/
def markUnlock (d : Device) (u : Fin 8) : Unlock → Device
  | .range => setB d (F.ASRC_STAT.RANGE u) true
  | .starve => setB d (F.ASRC_STAT.STARVE u) true
  | .jump => d

theorem getB_LOCK_setF_RATIO (d : Device) (u : Fin 8) (v : Nat) :
    getB (setF d (F.ASRC_RATIO.RATIO u) v) (F.ASRC_STAT.LOCK u) = getB d (F.ASRC_STAT.LOCK u) := by
  unfold getB
  rw [getF_setF_apart d _ _ v (by decide : 0 + 1 ≤ 64)
    (Or.inl (by simp [fldWords, F.ASRC_RATIO.RATIO, F.ASRC_STAT.LOCK]))]

/-- The reason stands beside LOCK in ASRC_STAT. -/
theorem getB_LOCK_markUnlock (d : Device) (u : Fin 8) (why : Unlock) :
    getB (markUnlock d u why) (F.ASRC_STAT.LOCK u) = getB d (F.ASRC_STAT.LOCK u) := by
  cases why with
  | range => exact getB_setB_apart d true (by decide : 0 + 1 ≤ 64) (Or.inr ⟨rfl, Or.inl (by decide : 0 + 1 ≤ 1)⟩)
  | starve => exact getB_setB_apart d true (by decide : 0 + 1 ≤ 64) (Or.inr ⟨rfl, Or.inl (by decide : 0 + 1 ≤ 2)⟩)
  | jump => rfl

/-- R276: neither the measured ratio nor the reason touches LOCK, so a locked unit still counts and raises its event. -/
theorem asrcUnlock_locked (hk : getB d (F.ASRC_STAT.LOCK u) = true) (why : Unlock) (ratio : Word) :
    asrcUnlock d u why ratio =
      raiseEv (incF (setB (markUnlock (setF d (F.ASRC_RATIO.RATIO u) ratio.toNat) u why) (F.ASRC_STAT.LOCK u) false)
        (F.ASRC_STAT.UNLOCKCNT u)) (0x170 + u.val) := by
  have hl : getB (markUnlock (setF d (F.ASRC_RATIO.RATIO u) ratio.toNat) u why) (F.ASRC_STAT.LOCK u) = true := by
    rw [getB_LOCK_markUnlock, getB_LOCK_setF_RATIO, hk]
  unfold asrcUnlock
  cases why <;> simp only [reduceCtorEq, if_true, if_false] <;> exact if_pos hl

/-! ### The Guard's pin and the watchdog -/

theorem whistleAssert_high (hw : d.whistle = false) (ho : d.pstate ≠ .off) : whistleAssert d =
    raiseEv (setB { d with whistle := true, sap := d.sap.map (fun x => { x with whSeen := true }) }
      F.GUARD_STAT.WHISTLE true) 0x199 := by
  unfold whistleAssert
  rw [if_neg ho, if_neg (ne_true_of_eq_false hw)]

theorem whistleAssert_off (ho : d.pstate = .off) : whistleAssert d = { d with whistle := true } := if_pos ho

theorem wdExpire_due (he : getB d F.WDOG_CTL.EN = true) (hl : getF d F.WDOG_CTL.LIMIT ≤ wdCount d) : wdExpire d =
    guardExpire { setB (setB d F.WDOG_STAT.EXPIRED true) F.WDOG_STAT.KICKED false with wdCycles := 0 } := if_pos ⟨he, hl⟩

end

/-- A row of WHISTLE_N has, in a device that is not held, the effect `f`; a held one only keeps the level of the pin. -/
theorem whistle_completes {c : Instr} {s : State} {f : Device → Device} {d : Device} {level : Bool} (h : held s.dev = false)
    (hx : exec c s = onPins s (fun d => if held d then { d with whistle := level } else f d)) (hf : f s.dev = d) :
    completes c s d :=
  hx.trans (comp_pins ((if_neg (ne_true_of_eq_false h)).trans hf))

/-- Settles O37, a clause per row: the row's effect on a device that is not held, in the case its hypotheses name. -/
theorem audioRowsComplete : Obligations.AudioRowsComplete := by
  unfold Obligations.AudioRowsComplete
  intro s n u len bits phase ready zeroFrom sent ws ratio why h
  refine ⟨fun hb => ?boundary, fun ho hp hm => ?rxEnd, fun hc => ?clockLoss, fun hl hk => ?lock, fun hk => ?unlock,
    fun hw ho => ?assert, fun ho => ?assertOff, ?release, fun he hl => ?expiry⟩
  case boundary =>
    exact device_completes (f := (sapBoundary · n (if sent then some len else none) phase ready zeroFrom)) h rfl
      (sapBoundary_reached hb _ phase ready zeroFrom)
  case rxEnd => exact device_completes (f := (sapRxEnd · n bits ws)) h rfl (sapRxEnd_frame ho hp hm bits ws)
  case clockLoss => exact device_completes (f := (sapClockLoss · n)) h rfl (sapClockLoss_clocked hc)
  case lock => exact device_completes (f := (asrcLock · u ratio)) h rfl (asrcLock_unlocked hl hk ratio)
  case unlock =>
    refine device_completes (f := (asrcUnlock · u why ratio)) h rfl ((asrcUnlock_locked hk why ratio).trans ?_)
    cases why <;> rfl
  case assert => exact whistle_completes h rfl (whistleAssert_high hw ho)
  case assertOff => exact whistle_completes h rfl (whistleAssert_off ho)
  case release => exact whistle_completes h rfl rfl
  case expiry => exact device_completes (f := wdExpire) h rfl (wdExpire_due he hl)

end Sys2Proof.Machine
end

section
/-! PROOFS. A popped word whose parity fails (R399). -/

namespace Sys2Proof.Machine

theorem getF_raiseEv (d : Device) (v : Nat) (f : Fld) : getF (raiseEv d v) f = getF d f := by
  unfold raiseEv
  split <;> rfl

theorem getF_queEvent (d : Device) (q : Fin 256) (en : Fld) (b : Bool) (f : Fld) : getF (queEvent d q en b) f = getF d f := by
  unfold queEvent
  split
  · exact getF_raiseEv d _ f
  · rfl

/-- R400: the watermark and its events are in no register. -/
theorem getF_queSettle (d : Device) (q : Fin 256) (n : Nat) (f : Fld) : getF (queSettle d q n) f = getF d f := by
  unfold queSettle
  simp only [getF_queEvent]
  rfl

theorem getF_incF_same (d : Device) (f : Fld) (h : f.lo + f.len ≤ 64) :
    getF (incF d f) f = Nat.min (getF d f + 1) (2 ^ f.len - 1) := by
  unfold incF
  rw [getF_setF_same _ _ _ h, Nat.mod_eq_of_lt]
  exact Nat.lt_of_le_of_lt (Nat.min_le_right _ _) (Nat.sub_lt (by positivity) (by decide))

/-- R399: a head whose parity fails is counted in PAR. -/
theorem par_queTake {d : Device} {q : Fin 256} {c : Cell} {cs : List Cell} (h : (que d q).words = c :: cs) (hb : c.bad = true) :
    getF (queTake d q).1 (F.QUE_STAT.PAR q.val) =
      Nat.min (getF d (F.QUE_STAT.PAR q.val) + 1) (2 ^ (F.QUE_STAT.PAR q.val).len - 1) := by
  unfold queTake
  dsimp only
  rw [h]
  dsimp only
  rw [getF_queSettle, if_pos hb, getF_queEvent, getF_incF_same _ _ (by decide : 0 + 8 ≤ 64)]
  rfl

/-- Settles O60: the pop takes the head, which the failed parity makes POISON. -/
theorem failedParityIsDeliveredOnce : Obligations.FailedParityIsDeliveredOnce := by
  unfold Obligations.FailedParityIsDeliveredOnce
  intro d q w cs ht hs hw
  rw [quePop_cons ht hs hw]
  obtain ⟨hread, hleft⟩ := queTake_cons hw
  exact ⟨hread, par_queTake hw rfl, hleft⟩

end Sys2Proof.Machine
end

section
/-! PROOFS. The rows of the PLLs, of the time reference and of its pins (R298 to R300, R311 to R321). -/

namespace Sys2Proof.Machine

section
variable {d : Device}

/-! ### PLLs -/

theorem pllLock_locks {j : Nat} (hj : j < 6) (hr : pllRuns d j = true) (hn : getB d (F.CLK_PLLSTAT.NOBAND j) = false)
    (hl : getB d (F.CLK_PLLSTAT.LOCK j) = false) : pllLock d j =
      (let e := timeSrcState (setB (setB d (F.CLK_PLLSTAT.LOCK j) true) (F.CLK_PLLSTAT.MUTED j) false)
       match e.timeWait with
       | some a1 => if timeSrcLocked e = true then restartDomains (timeRestart e a1) (fun _ => true) else e
       | none =>
         if getB d (F.CLK_PLLSTAT.MUTED j) = true ∧ 2 ≤ j
           then restartDomains e (fun k => decide (ratePll e k = j - 2)) else e) :=
  if_pos ⟨hj, hr, ne_true_of_eq_false hn, ne_true_of_eq_false hl⟩

theorem pllTimeout_unlocked {j : Nat} (hj : j < 6) (hr : pllRuns d j = true) (hl : getB d (F.CLK_PLLSTAT.LOCK j) = false) :
    pllTimeout d j = raiseEv (setB d (F.CLK_PLLSTAT.FAIL j) true) (0x180 + j) :=
  if_pos ⟨hj, hr, ne_true_of_eq_false hl⟩

theorem pllLose_locked {j : Nat} (hj : j < 6) (hl : getB d (F.CLK_PLLSTAT.LOCK j) = true) : pllLose d j =
    (let e := raiseEv (incF (setB d (F.CLK_PLLSTAT.LOCK j) false) (F.CLK_PLLSTAT.UNLOCKCNT j)) (0x178 + j)
     if j < 2 then e else coachCheck (timeSrcCheck (setB e (F.CLK_PLLSTAT.MUTED j) true))) := by
  unfold pllLose
  rw [if_pos ⟨hj, hl⟩]
  by_cases h : j < 2
  · rw [if_neg (by omega), if_pos h]
  · rw [if_pos (by omega), if_neg h]

/-! ### The time reference -/

/-- R312: an edge of PPS_IN that lies nearest to one second is an event with its distance from it. -/
theorem ppsEdge_near (hr : getF d F.TIME_CTL.REFSEL = 3) {ts : Nat} (hn : (nearest ts (10 ^ 9)).2 = false) :
    ppsEdge d ts = servoEvent d ((nearest ts (10 ^ 9)).1 * 10 ^ 9 - ts) := by
  unfold ppsEdge
  rw [if_pos hr]
  dsimp only
  rw [hn]
  simp only [Bool.false_eq_true, if_false]

/-- R312: an edge of the selected WCLK_IN is an event with its distance from the nearest ideal instant of the domain. -/
theorem wclkEdge_near {pin : Fin 2} {ts : Nat} (hr : getF d F.TIME_CTL.REFSEL = 1 + pin.val)
    (hp : pin.val = 0 ∨ hasPcie d = true) {k : Fin 4} (hk : k = dom (getF d F.TIME_CTL.WDOM)) {m : Int × Bool}
    (hm : nearest (((ts : Int) * d.anchors[k].den - d.anchors[k].num) * rateFs d k) (10 ^ 9 * d.anchors[k].den) = m)
    (ht : m.2 = false) : wclkEdge d pin.val ts =
      servoEvent d (((ideal d k (d.anchors[k].n + m.1)).1 - ts * (ideal d k (d.anchors[k].n + m.1)).2) /
        (ideal d k (d.anchors[k].n + m.1)).2) := by
  subst hk
  unfold wclkEdge
  dsimp only
  rw [if_pos ⟨hr, hp, pin.isLt⟩, hm, ht]
  simp only [Bool.false_eq_true, if_false]

theorem holdoverTimeout_late (hs : getF d F.TIME_STAT.STATE = 2) (hl : 3 * refInterval d ≤ 2 * d.refNs) :
    holdoverTimeout d = setTimeState (setEps d (servoMean d)) 3 := if_pos ⟨hs, hl⟩

/-- R321: a window that nothing spoilt gives the calibration its length. -/
theorem calWindow_good (hb : d.winBad = false) {e : Device}
    (he : winBegin (setF d F.TIME_AON.COUNT ((getF d F.TIME_AON.COUNT + 65536) % 2 ^ 48)) = e)
    (hl : timeSrcLocked e = true) (hw : awake e = true) : calWindow d =
      setF (setF { e with aonWins := ((tod d - d.winStart) :: e.aonWins).take 16 }
          F.TIME_AONCAL.PERIOD (tod d - d.winStart))
        F.TIME_AONQ.SPREAD (Nat.min 0xFFFF (spreadPpb (((tod d - d.winStart) :: e.aonWins).take 16))) := by
  unfold calWindow
  dsimp only
  rw [he, if_neg (by simp [hb, hl, hw])]

/-! ### PPS_OUT -/

theorem ppsPulse_due (hd : d.ppsDue = true) (he : getB d F.CLK_PPSOUT.EN = true) (hl : getB d F.TIME_STAT.LOCKED = true)
    (hg : d.gated = false) : ppsPulse d =
      { d with ppsOut := true, ppsDue := false, ppsLeft := getF d F.CLK_PPSOUT.WIDTH * 1000 * 2 ^ 32 } :=
  if_pos (by simp [hd, he, hl, hg])

theorem ppsFall_over (h : d.ppsLeft = 0) : ppsFall d = { d with ppsOut := false } := if_pos h

end

/-- Settles O38, a clause per row: the row's effect in the case its hypotheses name. -/
theorem clockRowsComplete : Obligations.ClockRowsComplete := by
  unfold Obligations.ClockRowsComplete
  intro s j ts pin h
  refine ⟨fun hr hn hl => ?lock, fun hr hl => ?timeout, fun hl => ?loss, fun hr hn => ?pps, fun hr hp ht => ?wclk,
    fun hs hl => ?holdover, fun hb hl hw => ?window, fun hd he hl hg => ?pulse, fun ho => ?fall⟩
  case lock =>
    exact device_completes (f := fun d => bootProgress (pllLock d j.val)) h rfl
      (congrArg bootProgress (pllLock_locks j.isLt hr hn hl))
  case timeout => exact device_completes (f := (pllTimeout · j.val)) h rfl (pllTimeout_unlocked j.isLt hr hl)
  case loss => exact device_completes (f := (pllLose · j.val)) h rfl (pllLose_locked j.isLt hl)
  case pps => exact device_completes (f := (ppsEdge · ts)) h rfl (ppsEdge_near hr hn)
  case wclk => exact device_completes (f := (wclkEdge · pin.val ts)) h rfl (wclkEdge_near hr hp rfl rfl ht)
  case holdover => exact device_completes (f := holdoverTimeout) h rfl (holdoverTimeout_late hs hl)
  case window => exact device_completes (f := calWindow) h rfl (calWindow_good hb rfl hl hw)
  case pulse => exact device_completes (f := ppsPulse) h rfl (ppsPulse_due hd he hl hg)
  case fall => exact device_completes (f := ppsFall) h rfl (ppsFall_over ho)

end Sys2Proof.Machine
end

section
/-! PROOFS. The cells of the fabric (R347 to R366) and its timers (R349, R350, R352, R354, R356, R358, R360, R364, R369). -/

namespace Sys2Proof.Machine

/-! ### Cells -/

section
variable {d : Device} {n : Fin 8} {c : LyCell} {cs : List LyCell}

/-- The oldest cell of a link is taken by the row of its type. -/
theorem takeCell_oldest (h : (lk d n).rxCells = c :: cs) {t : Nat} (ht : c.ctype = t) (f : Device → LyCell → Device) :
    takeCell d n t f = fabRefresh (f (setLk d n { lk d n with rxCells := cs }) c) := by
  unfold takeCell
  dsimp only
  rw [h]
  exact if_pos ht

/-- R352: a cell of a node without a tombstone passes. -/
theorem passTomb_alive (h : cellTomb d c = none) (f : Device → Device) : passTomb d c f = f d := by
  unfold passTomb
  rw [h]

/-- R348: a new cell of a node without a tombstone is noted, acted on and sent on. -/
theorem floodAct_new (h : cellTomb d c = none) (hn : cellNew d c = true) (f : Device → Device) :
    floodAct d n c f = floodCell (f (noteSeen d c)) (some n) c :=
  (passTomb_alive h _).trans (if_pos hn)

end

/-- Settles O43, a clause per type: the oldest cell is taken, passes R352 and R348 where they apply, and is acted on. -/
theorem fabricCellsComplete : Obligations.FabricCellsComplete := by
  unfold Obligations.FabricCellsComplete
  intro s n c cs hh hc d
  have takes := fun (t : Nat) (ht : c.ctype = t) => takeCell_oldest hc ht
  refine ⟨fun ht => ?hello, fun ha => ⟨fun hn => ⟨fun ht => ?lsa, fun ht hm => ?captain, fun ht => ?grant⟩,
    fun ht hb => ?runReq, fun ht => ?user⟩, fun ht => ?runAck, fun ht => ?runNak, fun ht => ?runTear⟩
  case hello => exact device_completes (f := (helloCell · n)) hh rfl (takes 1 ht _)
  case lsa =>
    exact device_completes (f := (lsaCell · n)) hh rfl
      ((takes 2 ht _).trans (congrArg fabRefresh (floodAct_new ha hn fun d => lsaAct d c)))
  case captain =>
    exact device_completes (f := (captainCell · n)) hh rfl ((takes 3 ht _).trans
      (congrArg fabRefresh ((if_pos hm).trans (floodAct_new ha hn fun d => captainAct d c))))
  case grant =>
    exact device_completes (f := (grantCell · n)) hh rfl
      ((takes 4 ht _).trans (congrArg fabRefresh (floodAct_new ha hn fun d => grantAct d c)))
  case runReq =>
    exact device_completes (f := (runReqCell · n)) hh rfl ((if_neg (ne_true_of_eq_false hb)).trans
      ((takes 5 ht _).trans (congrArg fabRefresh (passTomb_alive ha fun d => runReqAct d n c))))
  case user =>
    exact device_completes (f := (userCell · n)) hh rfl
      ((takes 9 ht _).trans (congrArg fabRefresh (passTomb_alive ha fun d => userAct d n c)))
  case runAck => exact device_completes (f := (runAckCell · n)) hh rfl (takes 6 ht _)
  case runNak => exact device_completes (f := (runNakCell · n)) hh rfl (takes 7 ht _)
  case runTear => exact device_completes (f := (runTearCell · n)) hh rfl (takes 8 ht _)

/-! ### Timers -/

section
variable {d : Device} {n : Fin 8} {f : Nat}

theorem isolatedRejoin_due (hf : anyFull d = false) (hh : d.fab.held = true) (hr : d.fab.rejoined = false)
    (ha : d.fab.aloneAt + deadInt d ≤ d.fab.frame) :
    isolatedRejoin d = join { d with fab := { d.fab with rejoined := true } } :=
  if_neg (by simp [hf, hh, hr, ha])

theorem adjacencyDead_due (hf : adjFull d n = true) (ha : (adj d n).accAt + deadInt d ≤ d.fab.frame) :
    adjacencyDead d n = fabRefresh (adjDrop d n) := if_pos ⟨hf, ha⟩

theorem helloKeepalive_due (hf : adjFull d n = true)
    (ha : (adj d n).helloAt + getF d (F.S_FAB.TIMERS.HELLOINT 0xFF) ≤ d.fab.frame) :
    helloKeepalive d n = sendHello d n := if_pos ⟨hf, ha⟩

theorem endOfQuiet_due (hf : anyFull d = true) (hq : d.fab.quiet = false) (ha : d.fab.dbAt + 8 ≤ d.fab.frame) :
    endOfQuiet d =
      (let b := (bestCapt d).map (·.uid)
       let e := setB { d with fab := { d.fab with quiet := true, choice := b } } F.FAB_STAT.NOCAPT (decide (b = none))
       let e := if e.fab.capt.map (·.1) = b then e else setCapt e none
       fabRefresh (if b = some (ownUid e) then becomeCapt e else e)) :=
  if_neg (by simp [hf, hq, ha])

theorem grantDeadline_due (hg : d.fab.genAt = some f) (ha : f + 64 ≤ d.fab.frame) : grantDeadline d =
    if d.fab.genMine = true then { d with fab := { d.fab with genAt := none } }
    else fabRefresh (setB (setAddr { d with fab := { d.fab with genAt := none } } 0x3FF) F.FAB_STAT.NOADDR true) := by
  unfold grantDeadline
  rw [hg]
  exact if_neg (Nat.not_lt.2 ha)

theorem tombCreate_due {uid : Nat} {x : DbNode} (hx : d.fab.db.find? (fun y => decide (y.uid = uid)) = some x)
    (hl : x.lost = some f) (ha : f + deadInt d ≤ d.fab.frame) : tombCreate d uid =
      (let addr := (x.p0.map (·.addr)).getD 0x3FF
       let e := tombEnd d uid
       let e := { e with fab := { e.fab with
         tombs := e.fab.tombs ++ [⟨uid, x.epoch, e.fab.frame, addr⟩]
         db := e.fab.db.filter (fun y => decide (y.uid ≠ uid)) } }
       fabRefresh (dbTouch (nodeGone e addr x.epoch))) := by
  unfold tombCreate
  rw [hx]
  dsimp only
  rw [hl]
  exact if_neg (Nat.not_lt.2 ha)

theorem tombExpire_due {uid : Nat} {t : Tomb} (ht : tombOf d uid = some t)
    (ha : t.at_ + getF d (F.S_FAB.TOMB.FRAMES 0xFF) ≤ d.fab.frame) : tombExpire d uid = tombEnd d uid := by
  unfold tombExpire
  rw [ht]
  exact if_pos ha

theorem lsaReflood_due (ha : d.fab.refloodAt + 65536 ≤ d.fab.frame) : lsaReflood d =
    (let e := { d with fab := { d.fab with refloodAt := d.fab.frame } }
     (List.finRange 8).foldl (fun d m => originate d 2 0x3FF (partBytes d m))
       (originate e 2 0x3FF (part0Bytes e (ownPart0 e)))) := if_neg (Nat.not_lt.2 ha)

theorem runTimeout_due {r : Nat} (hs : (ownRun d r).st = 1) (ha : (ownRun d r).at_ + 1024 ≤ d.fab.frame) :
    runTimeout d r = fabRefresh (runFail (sendTear d r 4) r 4 0) := if_pos ⟨hs, ha⟩

theorem fabGateOpen_due (hg : getB d F.FAB_STAT.GATED = true) (hl : getB d F.TIME_STAT.LOCKED = true)
    (hc : isCapt d = true ∨ d.fab.tup.isSome = true) : fabGateOpen d = fadeInAll (setB d F.FAB_STAT.GATED false) :=
  if_pos ⟨hg, hl, hc⟩

end

/-- Settles O44, a clause per timer: the row's effect at its bound. -/
theorem fabricTimersComplete : Obligations.FabricTimersComplete := by
  unfold Obligations.FabricTimersComplete
  intro s n uid r f x t h
  refine ⟨fun hf hh hr ha => ?rejoin, fun hf ha => ?dead, fun hf ha => ?keepalive, fun hf hq ha => ?quiet, fun hg ha => ?grant,
    fun hx hl ha => ?tomb, fun ht ha => ?expiry, fun ha => ?reflood, fun hs ha => ?timeout, fun hg hl hc => ?gate⟩
  case rejoin => exact device_completes (f := isolatedRejoin) h rfl (isolatedRejoin_due hf hh hr ha)
  case dead => exact device_completes (f := (adjacencyDead · n)) h rfl (adjacencyDead_due hf ha)
  case keepalive => exact device_completes (f := (helloKeepalive · n)) h rfl (helloKeepalive_due hf ha)
  case quiet => exact device_completes (f := endOfQuiet) h rfl (endOfQuiet_due hf hq ha)
  case grant => exact device_completes (f := grantDeadline) h rfl (grantDeadline_due hg ha)
  case tomb => exact device_completes (f := (tombCreate · uid.toNat)) h rfl (tombCreate_due hx hl ha)
  case expiry => exact device_completes (f := (tombExpire · uid.toNat)) h rfl (tombExpire_due ht ha)
  case reflood => exact device_completes (f := lsaReflood) h rfl (lsaReflood_due ha)
  case timeout => exact device_completes (f := (runTimeout · r.toNat)) h rfl (runTimeout_due hs ha)
  case gate => exact device_completes (f := fabGateOpen) h rfl (fabGateOpen_due hg hl hc)

end Sys2Proof.Machine
end

section
/-! PROOFS. The lane of a link: what the scrambler gives the descrambler takes back (R322), a block is coded as R323 says, and a
frame that comes block by block is the frame that was sent (R329 to R334, R345). -/

namespace Sys2Proof.Machine

/-! ### The scrambler -/

/-- The lane's bits: 58 earlier ones, then those of a payload. -/
theorem lane_getLsbD {m : Nat} (p : BitVec 58) (s : BitVec m) {k : Nat} (hk : k < 122) :
    (s.zeroExtend 122 <<< 58 ||| p.zeroExtend 122).getLsbD k = if k < 58 then p.getLsbD k else s.getLsbD (k - 58) := by
  by_cases h : k < 58
  · simp [h, hk]
  · simp [h, hk, BitVec.getLsbD_of_ge p k (by omega)]

/-- The bits of a scrambled payload that depend on the lane before it only. -/
def scrambledLow (p : BitVec 58) (w : BitVec 64) : BitVec 39 :=
  w.extractLsb' 0 39 ^^^ p.extractLsb' 19 39 ^^^ p.extractLsb' 0 39

theorem scramble_low (p : BitVec 58) (w : BitVec 64) {i : Nat} (h : i < 39) :
    (scramble p w).1.getLsbD i = (scrambledLow p w).getLsbD i := by
  simp [scramble, scrambledLow, h, show i < 64 by omega]

/-- R322: each bit of the lane is the sum of the payload's bit and of the bits 39 and 58 before it. -/
theorem scramble_getLsbD (p : BitVec 58) (w : BitVec 64) {i : Nat} (hi : i < 64) :
    (scramble p w).1.getLsbD i = (w.getLsbD i ^^
      (if 19 + i < 58 then p.getLsbD (19 + i) else (scramble p w).1.getLsbD (19 + i - 58)) ^^
      (if i < 58 then p.getLsbD i else (scramble p w).1.getLsbD (i - 58))) := by
  by_cases h : i < 39
  · rw [scramble_low p w h, if_pos (by omega), if_pos (by omega)]
    simp [scrambledLow, h]
  · have hhigh : (scramble p w).1.getLsbD i = (w.getLsbD i ^^
        ((scrambledLow p w).zeroExtend 122 <<< 58 ||| p.zeroExtend 122).getLsbD (58 + (i - 39)) ^^
        ((scrambledLow p w).zeroExtend 122 <<< 58 ||| p.zeroExtend 122).getLsbD (39 + (i - 39))) := by
      simp [scramble, scrambledLow, h, hi, show i - 39 < 25 by omega, show 39 + (i - 39) = i by omega]
    rw [hhigh, lane_getLsbD _ _ (by omega), lane_getLsbD _ _ (by omega), if_neg (show ¬ 58 + (i - 39) < 58 by omega),
      if_neg (show ¬ 19 + i < 58 by omega), show 58 + (i - 39) - 58 = 19 + i - 58 by omega, show 39 + (i - 39) = i by omega,
      scramble_low p w (by omega : 19 + i - 58 < 39)]
    by_cases hp : i < 58
    · rw [if_pos hp, if_pos hp]
    · rw [if_neg hp, if_neg hp, scramble_low p w (by omega : i - 58 < 39)]
    

theorem descramble_scramble (p : BitVec 58) (w : BitVec 64) :
    descramble p (scramble p w).1 = (w, (scramble p w).2) := by
  refine Prod.ext ?_ rfl
  refine BitVec.eq_of_getLsbD_eq fun i hi => ?_
  have h := scramble_getLsbD p w hi
  unfold descramble
  simp only [BitVec.getLsbD_xor, BitVec.getLsbD_extractLsb', hi, decide_true, Bool.true_and]
  rw [lane_getLsbD _ _ (by omega), lane_getLsbD _ _ (by omega), Nat.zero_add, h]
  generalize (if 19 + i < 58 then _ else _ : Bool) = x
  generalize (if i < 58 then _ else _ : Bool) = y
  cases x <;> cases y <;> simp

/-! ### Blocks -/

theorem typed_low {m : Nat} (x : BitVec m) (ty : BitVec 8) :
    (x.zeroExtend 64 <<< 8 ||| ty.zeroExtend 64).extractLsb' 0 8 = ty := by
  ext i hi
  simp [hi, show i < 64 by omega]

theorem typed_high (x : BitVec 56) (ty : BitVec 8) : (x.zeroExtend 64 <<< 8 ||| ty.zeroExtend 64).extractLsb' 8 56 = x := by
  ext i hi
  simp [hi, show 8 + i < 64 by omega]

theorem blockOf_start (h : BitVec 56) : blockOf (LyBlock.start h).code = some (.start h) := by
  have hp : (LyBlock.start h).code = ⟨0b10, h.zeroExtend 64 <<< 8 ||| (0x78 : BitVec 8).zeroExtend 64⟩ := rfl
  rw [hp]
  unfold blockOf
  dsimp only
  rw [typed_low, typed_high]
  rfl

theorem blockOf_term (t : BitVec 56) : blockOf (LyBlock.term t).code = some (.term t) := by
  have hp : (LyBlock.term t).code = ⟨0b10, t.zeroExtend 64 <<< 8 ||| (0xFF : BitVec 8).zeroExtend 64⟩ := rfl
  rw [hp]
  unfold blockOf
  dsimp only
  rw [typed_low, typed_high]
  rfl

theorem blockOf_data (w : BitVec 64) : blockOf (LyBlock.data w).code = some (.data w) := rfl

/-! ### A frame block by block -/

section
variable {d : Device} {n : Fin 8}

@[simp] theorem lk_setLk_same (d : Device) (n : Fin 8) (x : LinkX) : lk (setLk d n x) n = x := by simp [lk, setLk]

@[simp] theorem setLk_setLk (d : Device) (n : Fin 8) (x y : LinkX) : setLk (setLk d n x) n y = setLk d n y := by
  simp [setLk]

@[simp] theorem linkState_setLk (d : Device) (n m : Fin 8) (x : LinkX) : linkState (setLk d n x) m = linkState d m := rfl

theorem setLk_self (d : Device) (n : Fin 8) : setLk d n (lk d n) = d := by simp [setLk, lk]

/-- A link with the lane's last bits and the frame under way replaced. -/
def receiving (d : Device) (n : Fin 8) (r : BitVec 58) (o : Option LyOpen) : Device :=
  setLk d n { lk d n with rxScr := r, rxOpen := o }

/-- The lane's last bits once a block has followed those of `r`. -/
def laneAfter (r : BitVec 58) (b : LyBlock) : BitVec 58 := (scramble r b.code.pay).2

section
variable {r : BitVec 58} {o : Option LyOpen}

theorem lk_receiving : lk (receiving d n r o) n = { lk d n with rxScr := r, rxOpen := o } := lk_setLk_same d n _

theorem setLk_receiving (x : LinkX) : setLk (receiving d n r o) n x = setLk d n x := setLk_setLk d n _ x

theorem receiving_none (h : (lk d n).rxOpen = none) : receiving d n (lk d n).rxScr none = d := by
  unfold receiving
  rw [← h]
  exact setLk_self d n

end

/-- A block of a link that is UP and that is no ordered set is a block of a frame. -/
theorem lyathBlock_up (h7 : linkState d n = 7) {b : LyBlock} (hs : ∀ x, b ≠ .oset x) (rxtod : Nat) :
    lyathBlock d n rxtod (some b) = upBlock d n rxtod b := by
  unfold lyathBlock
  cases b with
  | oset x => exact absurd rfl (hs x)
  | _ => exact if_pos h7

/-- R322, R323: a link that is UP takes a scrambled block as the block that was sent. -/
theorem lyathRx_block (h7 : linkState d n = 7) (r : BitVec 58) (o : Option LyOpen) {b : LyBlock}
    (hb : blockOf b.code = some b) (hs : ∀ x, b ≠ .oset x) (bs : List Block66) (rxtod : Nat) :
    lyathRx (receiving d n r o) n (scrambleRun r (b.code :: bs)) rxtod =
      lyathRx (upBlock (receiving d n (laneAfter r b) o) n rxtod b) n (scrambleRun (laneAfter r b) bs) rxtod := by
  rw [← lyathBlock_up (d := receiving d n (laneAfter r b) o) h7 hs, ← hb]
  unfold lyathRx
  rw [scrambleRun, List.foldl_cons]
  dsimp only
  rw [lk_receiving, setLk_receiving]
  dsimp only
  rw [descramble_scramble, linkState_setLk, h7, if_pos ⟨by decide, by decide⟩]
  rfl

theorem upBlock_start (r : BitVec 58) (hd : BitVec 56) (rxtod : Nat) :
    upBlock (receiving d n r none) n rxtod (.start hd) = receiving d n r (some ⟨hd, [], rxtod⟩) := by
  have hc : frameCut (receiving d n r none) n = receiving d n r none := by
    unfold frameCut
    rw [lk_receiving]
  unfold upBlock
  dsimp only
  rw [hc, lk_receiving, setLk_receiving]
  rfl

theorem upBlock_data (r : BitVec 58) (o : LyOpen) (w : BitVec 64) (rxtod : Nat) :
    upBlock (receiving d n r (some o)) n rxtod (.data w) = receiving d n r (some { o with blocks := w :: o.blocks }) := by
  unfold upBlock
  rw [lk_receiving]
  dsimp only
  rw [setLk_receiving]
  rfl

theorem upBlock_term (r : BitVec 58) (o : LyOpen) (t : BitVec 56) (rxtod : Nat) :
    upBlock (receiving d n r (some o)) n rxtod (.term t) = frameRx (receiving d n r (some o)) n
      (frameOf (cellsAt (rateFs d (dom (linkField d n.val 0x40 4 2)))) o.head o.blocks.reverse t o.stamp) := by
  unfold upBlock
  rw [lk_receiving]
  rfl

theorem lyathRx_data (h7 : linkState d n = 7) (ds : List (BitVec 64)) (bs : List Block66) (rxtod : Nat) (o : LyOpen)
    (r : BitVec 58) : ∃ r', lyathRx (receiving d n r (some o)) n
        (scrambleRun r (ds.map (fun w => (LyBlock.data w).code) ++ bs)) rxtod =
      lyathRx (receiving d n r' (some { o with blocks := ds.reverse ++ o.blocks })) n (scrambleRun r' bs) rxtod := by
  induction ds generalizing o r with
  | nil => exact ⟨r, rfl⟩
  | cons w ds ih =>
    obtain ⟨r', hr'⟩ := ih { o with blocks := w :: o.blocks } (laneAfter r (.data w))
    refine ⟨r', ?_⟩
    rw [List.map_cons, List.cons_append, lyathRx_block h7 r (some o) (blockOf_data w) (fun _ => LyBlock.noConfusion),
      upBlock_data, hr', List.reverse_cons, List.append_assoc, List.singleton_append]

/-- R329, R345: the scrambled blocks of a frame end in the frame they carry. -/
theorem lyathRx_frame (h7 : linkState d n = 7) (ho : (lk d n).rxOpen = none) (hd : BitVec 56) (ds : List (BitVec 64))
    (t : BitVec 56) (rxtod : Nat) : ∃ r o, lyathRx d n (scrambleRun (lk d n).rxScr
        ((LyBlock.start hd :: ds.map LyBlock.data ++ [LyBlock.term t]).map LyBlock.code)) rxtod =
      frameRx (receiving d n r o) n (frameOf (cellsAt (rateFs d (dom (linkField d n.val 0x40 4 2)))) hd ds t rxtod) := by
  obtain ⟨r, hdata⟩ := lyathRx_data h7 ds [(LyBlock.term t).code] rxtod ⟨hd, [], rxtod⟩
    (laneAfter (lk d n).rxScr (.start hd))
  have hcodes : (LyBlock.start hd :: ds.map LyBlock.data ++ [LyBlock.term t]).map LyBlock.code =
      (LyBlock.start hd).code :: (ds.map (fun w => (LyBlock.data w).code) ++ [(LyBlock.term t).code]) := by
    simp [List.map_map, Function.comp_def]
  have hstart := lyathRx_block h7 (lk d n).rxScr none (blockOf_start hd) (fun _ => LyBlock.noConfusion)
    (ds.map (fun w => (LyBlock.data w).code) ++ [(LyBlock.term t).code]) rxtod
  rw [receiving_none ho, upBlock_start, hdata,
    lyathRx_block h7 r _ (blockOf_term t) (fun _ => LyBlock.noConfusion), upBlock_term] at hstart
  refine ⟨laneAfter r (.term t), some ⟨hd, ds.reverse, rxtod⟩, ?_⟩
  rw [hcodes, hstart]
  simp only [List.append_nil, List.reverse_reverse]
  rfl

/-! ### The checks of a frame -/

theorem wordBits_head (x : Nat) : wordBits ((BitVec.ofNat 56 x).zeroExtend 64) 0 8 = x % 2 ^ 8 := by
  unfold wordBits
  simp only [BitVec.extractLsb'_toNat, BitVec.toNat_setWidth, BitVec.toNat_ofNat, Nat.shiftRight_zero]
  omega

/-- R330: the lowest byte of a header is FVER. -/
theorem fver_frameOf (nc : Nat) (f : LyFrame) (ds : List (BitVec 64)) (t : BitVec 56) (rxtod : Nat) :
    (frameOf nc (frameHead f) ds t rxtod).fver = f.fver % 256 := by
  have hlow : ∀ a b c e : Nat, (a % 256 + b * 2 ^ 8 + c * 2 ^ 20 + e * 2 ^ 36) % 2 ^ 8 = a % 256 := by omega
  exact (wordBits_head _).trans (hlow _ _ _ _)

/-- R334: the lower half of a terminate block is the CRC. -/
theorem crc_termOf (h : BitVec 56) (ds : List (BitVec 64)) : (termOf h ds).extractLsb' 0 32 = frameCrc h ds := by
  have hlow : ∀ (c : BitVec 32) (n : Nat), (BitVec.ofNat 56 (c.toNat + n * 2 ^ 32)).extractLsb' 0 32 = c := by
    intro c n
    apply BitVec.eq_of_toNat_eq
    rw [BitVec.extractLsb'_toNat, BitVec.toNat_ofNat, Nat.shiftRight_zero]
    omega
  exact hlow _ _

/-- R334: DBLK stands above it. -/
theorem dblk_termOf (h : BitVec 56) {ds : List (BitVec 64)} (hl : ds.length < 2 ^ 16) :
    ((termOf h ds).extractLsb' 32 16).toNat = ds.length := by
  have hhigh : ∀ (c : BitVec 32) (n : Nat), ((BitVec.ofNat 56 (c.toNat + n * 2 ^ 32)).extractLsb' 32 16).toNat = n % 2 ^ 16 := by
    intro c n
    rw [BitVec.extractLsb'_toNat, BitVec.toNat_ofNat, Nat.shiftRight_eq_div_pow]
    have := c.isLt
    omega
  exact (hhigh _ _).trans (by rw [Nat.mod_mod, Nat.mod_eq_of_lt hl])

/-- R345: a frame as sent is intact, and its DBLK is the number of its data blocks. -/
theorem intact_termOf (nc : Nat) (h : BitVec 56) {ds : List (BitVec 64)} (hl : ds.length < 2 ^ 16) (rxtod : Nat) :
    (frameOf nc h ds (termOf h ds) rxtod).intact = true ∧ (frameOf nc h ds (termOf h ds) rxtod).dblk = ds.length := by
  have hd : (frameOf nc h ds (termOf h ds) rxtod).dblk = ds.length := dblk_termOf h hl
  have hi : (frameOf nc h ds (termOf h ds) rxtod).intact = (decide ((termOf h ds).extractLsb' 0 32 = frameCrc h ds) &&
    decide ((frameOf nc h ds (termOf h ds) rxtod).dblk = ds.length)) := rfl
  exact ⟨by rw [hi, crc_termOf, hd]; simp, hd⟩

/-- R345: a frame whose CRC came with a bit changed is not. -/
theorem intact_corrupted (nc : Nat) (h : BitVec 56) (ds : List (BitVec 64)) (rxtod : Nat) :
    (frameOf nc h ds (termOf h ds ^^^ 1) rxtod).intact = false := by
  have hne : (termOf h ds ^^^ 1).extractLsb' 0 32 ≠ frameCrc h ds := by
    rw [← crc_termOf]
    intro he
    have hbit := congrArg (fun x : BitVec 32 => x.getLsbD 0) he
    simp at hbit
  have hi : (frameOf nc h ds (termOf h ds ^^^ 1) rxtod).intact = (decide ((termOf h ds ^^^ 1).extractLsb' 0 32 = frameCrc h ds) &&
    decide ((frameOf nc h ds (termOf h ds ^^^ 1) rxtod).dblk = ds.length)) := rfl
  rw [hi, decide_eq_false hne, Bool.false_and]

/-- R345: a terminate block ends the open frame, which is taken when it is intact and of the link's DBLK and FVER. -/
theorem frameRx_receiving (r : BitVec 58) (o : Option LyOpen) (g : LyFrame) : frameRx (receiving d n r o) n g =
    (let e := setLk d n { lk d n with rxScr := r, rxOpen := none, arrived := true }
     if g.intact = true ∧ g.dblk = localDblk d n ∧ g.fver = 1 then framePassed e n g
     else raiseEv (incF e (F.LINK_ERR.CRC n.val)) (0x138 + n.val)) := by
  unfold frameRx
  rw [lk_receiving, setLk_receiving]
  rfl

end

end Sys2Proof.Machine
end

section
/-! PROOFS. The rows of a link (R322 to R334, R341, R345). -/

namespace Sys2Proof.Machine

section
variable {d : Device} {n : Fin 8}

/-! ### States and training -/

theorem linkSignal_detect (h : linkState d n = 1) : linkSignal d n = setLinkState d n 2 := if_pos h

theorem linkCdr_cdr (h : linkState d n = 2) : linkCdr d n = setLinkState d n 3 := if_pos h

theorem linkBlock_block (h : linkState d n = 3) : linkBlock d n = setLinkState d n 4 := if_pos h

theorem linkRated_rate (h : linkState d n = 5) :
    linkRated d n = setLinkState (setB d (F.LINK_STAT.RATE n.val) (lk d n).slow) n 2 := if_pos h

theorem linkFallback_high (hs : linkState d n = 1 ∨ linkState d n = 2 ∨ linkState d n = 3)
    (hr : getB d (F.LINK_STAT.RATE n.val) = false) (hl : linkField d n.val 0x40 2 1 = 1) (hn : (lk d n).reached = false) :
    linkFallback d n = setLk (setLinkState d n 5) n { lk (setLinkState d n 5) n with slow := true } :=
  if_pos ⟨hs, hr, hl, hn⟩

theorem linkTimeout_training (h0 : linkState d n ≠ 0) (h7 : linkState d n ≠ 7) : linkTimeout d n =
    linkStart (raiseEv (incF d (F.LINK_STAT.TRAINFAIL n.val)) (0x130 + n.val)) n :=
  if_neg (fun h => h.elim h0 h7)

theorem linkTs2_confirm (h : linkState d n = 6) : linkTs2 d n =
    linkConfirm (setLk d n { lk d n with ts2tx := (lk d n).ts2tx + 1 }) n := if_pos h

theorem linkHiber_up (h : linkState d n = 7) :
    linkHiber d n false = setLinkState (setB d (F.LINK_STAT.HIBER n.val) true) n 1 :=
  (if_neg (by decide)).trans (if_pos h)

theorem linkHiber_lockLoss (h : 3 ≤ linkState d n) : linkHiber d n true = setLinkState d n 1 :=
  (if_pos rfl).trans (if_pos h)

/-! ### Training sets (R325, R326) -/

/-- R323: an ordered set that is no training set is a block error. -/
theorem linkSet_undefined (h0 : linkState d n ≠ 0) {d1 d2 d3 : Nat} (hb : (d1 ≠ 0xA1 ∧ d1 ≠ 0xA2) ∨ 3 < d2 ∨ 255 < d3) :
    linkSet d n d1 d2 d3 = blockError d n := (if_neg h0).trans (if_pos hb)

theorem linkSet_confirm (h : linkState d n = 6) {d2 d3 : Nat} (h2 : d2 ≤ 3) (h3 : d3 ≤ 255) :
    linkSet d n 0xA2 d2 d3 = linkConfirm (setLk d n { lk d n with ts2rx := (lk d n).ts2rx + 1 }) n := by
  unfold linkSet
  dsimp only
  rw [if_neg (by omega), if_neg (by omega), h]
  exact if_pos rfl

/-- R326: a TS1 equal to the one before it lengthens the run, and the eighth of a run is compared. -/
theorem linkSet_exchange (h : linkState d n = 4) {d2 d3 : Nat} (h2 : d2 ≤ 3) (h3 : d3 ≤ 255)
    (hl : (lk d n).lastSet = some (0xA1, d2, d3)) : linkSet d n 0xA1 d2 d3 =
      if 7 ≤ (lk d n).setRun then linkCompare (setLk d n { lk d n with setRun := (lk d n).setRun + 1 }) n d2 d3
      else setLk d n { lk d n with setRun := (lk d n).setRun + 1 } := by
  unfold linkSet
  dsimp only
  rw [if_neg (by omega), if_neg (by omega), h, ← hl]
  simp only [ne_eq, not_true_eq_false, if_false, if_true, Nat.succ_le_succ_iff]

/-! ### Frames (R345) -/

/-- R345: the scrambled blocks of a frame, as sent or with a bit of its CRC changed, end in the frame taken or counted. -/
theorem lyathRx_sent (h7 : linkState d n = 7) (ho : (lk d n).rxOpen = none) (f : LyFrame) (bad : Bool) {nc : Nat}
    (hn : cellsAt (rateFs d (dom (linkField d n.val 0x40 4 2))) = nc) {ds : List (BitVec 64)} (hl : ds.length < 2 ^ 16)
    {t : BitVec 56} (ht : t = if bad then termOf (frameHead f) ds ^^^ 1 else termOf (frameHead f) ds) (rxtod : Nat) :
    ∃ r, lyathRx d n (scrambleRun (lk d n).rxScr
        ((LyBlock.start (frameHead f) :: ds.map LyBlock.data ++ [LyBlock.term t]).map LyBlock.code)) rxtod =
      (let e := setLk d n { lk d n with rxScr := r, rxOpen := none, arrived := true }
       if bad = false ∧ ds.length = localDblk d n ∧ f.fver % 256 = 1 then framePassed e n (frameOf nc (frameHead f) ds t rxtod)
       else raiseEv (incF e (F.LINK_ERR.CRC n.val)) (0x138 + n.val)) := by
  obtain ⟨r, o, hrun⟩ := lyathRx_frame h7 ho (frameHead f) ds t rxtod
  refine ⟨r, hrun.trans ?_⟩
  rw [frameRx_receiving, hn, fver_frameOf]
  subst ht
  cases bad with
  | true =>
    rw [if_pos rfl, intact_corrupted]
    exact (if_neg (by simp)).trans (if_neg (by simp)).symm
  | false =>
    obtain ⟨hi, hd⟩ := intact_termOf nc (frameHead f) hl rxtod
    rw [if_neg (show ¬ false = true by decide), hi, hd]
    simp

end

/-- Settles O42, a clause per row: the row's effect in the case its hypotheses name. -/
theorem linkRowsComplete : Obligations.LinkRowsComplete := by
  unfold Obligations.LinkRowsComplete
  intro s n d1 d2 d3 f rxtod h
  have h3 : d3.toNat ≤ 255 := Nat.le_of_lt_succ d3.isLt
  refine ⟨fun hs => ?signal, fun hs => ?cdr, fun hs => ?block, fun hs => ?rate, fun hs hr hl hn => ?fallback,
    fun h0 h7 => ?timeout, fun hs => ⟨?sent, fun h2 => ?confirm⟩, fun hs h2 hl => ?exchange, fun h0 hb => ?undefined,
    fun hs => ⟨?hiber, fun ho bad hl => ?frame⟩, fun hs => ?lockLoss⟩
  case signal => exact device_completes (f := (linkSignal · n)) h rfl (linkSignal_detect hs)
  case cdr => exact device_completes (f := (linkCdr · n)) h rfl (linkCdr_cdr hs)
  case block => exact device_completes (f := (linkBlock · n)) h rfl (linkBlock_block hs)
  case rate => exact device_completes (f := (linkRated · n)) h rfl (linkRated_rate hs)
  case fallback => exact device_completes (f := (linkFallback · n)) h rfl (linkFallback_high hs hr hl hn)
  case timeout => exact device_completes (f := (linkTimeout · n)) h rfl (linkTimeout_training h0 h7)
  case sent => exact device_completes (f := (linkTs2 · n)) h rfl (linkTs2_confirm hs)
  case confirm => exact device_completes (f := (linkSet · n 0xA2 d2.toNat d3.toNat)) h rfl (linkSet_confirm hs h2 h3)
  case exchange => exact device_completes (f := (linkSet · n 0xA1 d2.toNat d3.toNat)) h rfl (linkSet_exchange hs h2 h3 hl)
  case undefined =>
    refine device_completes (f := (linkSet · n d1.toNat d2.toNat d3.toNat)) h rfl (linkSet_undefined h0 ?_)
    refine hb.imp (fun ⟨h1, h2⟩ => ⟨fun he => h1 (BitVec.eq_of_toNat_eq he), fun he => h2 (BitVec.eq_of_toNat_eq he)⟩) Or.inl
  case hiber => exact device_completes (f := (linkHiber · n false)) h rfl (linkHiber_up hs)
  case frame =>
    obtain ⟨r, hr⟩ := lyathRx_sent hs ho f bad rfl hl rfl rxtod
    exact ⟨r, device_completes (f := (lyathRx · n _ rxtod)) h rfl hr⟩
  case lockLoss => exact device_completes (f := (linkHiber · n true)) h rfl (linkHiber_lockLoss hs)

end Sys2Proof.Machine
end

section
/-! PROOFS. The words of a control core (R371 to R373, R377, R379, R381), and the entry of an interrupt (R374, R378, R379). -/

namespace Sys2Proof.Machine

/-! ### Words -/

section
variable {s : State} {c : Fin 4}

/-- R374: RETI with an entry to take goes back to it. -/
theorem reti_completes (h : mayIssue s.dev (ccIssue c) false = true) {idx lev : Nat} {act : Bool}
    {st : List (Nat × Nat × Bool)} (hs : (issued s.dev (ccIssue c)).ccx[c].istk = (idx, lev, act) :: st) :
    completes (.reti c) s (wordEffect s.dev (ccIssue c) (fun d =>
      let e := { d with ccx := d.ccx.set c { d.ccx[c] with istk := st, curLev := lev, act := act } }
      jump (setAg e (ccProc c) { ag e (ccProc c) with resv := none }) (ccProc c) idx)) := by
  refine form_completes h (by rfl) rfl ?_
  dsimp only
  rw [hs]

/-- R377: DO whose loop end is not before the next word and fits 32 bits is defined. -/
theorem doOk {d : Device} {n : Fin 68} {target : Nat} (hl : (ag d n).npc + 1 ≤ target) (ht : target < 2 ^ 32) :
    ((decide ((ag d n).npc + 1 ≤ target) && decide (target < 2 ^ 32)) && decide ((ccIssue c).slot = .long)) = true := by
  rw [decide_eq_true hl, decide_eq_true ht]
  rfl

/-- R381: a waiting core resumes once an event is pending for it. -/
theorem waitResume_pending (h : held s.dev = false) (hw : s.dev.ccx[c].wait = true) (ht : (takeable s.dev c).isSome = true) :
    completes (.waitResume c) s { s.dev with ccx := s.dev.ccx.set c { s.dev.ccx[c] with wait := false } } :=
  comp_dev h (if_pos ⟨hw, Or.inl ht⟩)

end

/-- Settles O25, a clause per word: the form is defined, and the operation's effect is the one stated. -/
theorem controlCoreWordsComplete : Obligations.ControlCoreWordsComplete := by
  unfold Obligations.ControlCoreWordsComplete
  intro s c q m k target i n
  refine ⟨fun h => ⟨?wait, fun idx lev act st hs => ?reti, fun hl ht => ?doLoop⟩, fun h hw => ⟨?ldw, ?stw⟩,
    fun hh hw ht => ?resume⟩
  case wait => exact form_completes h rfl rfl rfl
  case reti => exact reti_completes h hs
  case doLoop =>
    exact word_completes (ok := fun d => (decide ((ag d n).npc + 1 ≤ target) && decide (target < 2 ^ 32)) &&
      decide (i.slot = .long)) h (doOk hl ht) rfl rfl
  case ldw =>
    refine form_completes h rfl rfl ?_
    dsimp only
    rw [hw]
  case stw =>
    refine form_completes h rfl rfl ?_
    dsimp only
    rw [hw]
  case resume => exact waitResume_pending hh hw ht

/-! ### The entry of an interrupt -/

/-- A division that ends leaves the address of the next word. -/
theorem npc_finishDiv (e : Engine) : (finishDiv e).npc = e.npc := by
  cases h : e.div with
  | none => rw [finishDiv_none h]
  | some p => rw [finishDiv_some h]

theorem npc_landDue (e : Engine) : (landDue e).npc = e.npc := by rw [landDue_eq]

/-- A core with an event taken: what stood is on its interrupt stack, and its level is the event's (R374). -/
def entered (d : Device) (c : Fin 4) (npc l : Nat) : Device :=
  { d with ccx := d.ccx.set c { d.ccx[c] with
    istk := (npc, d.ccx[c].curLev, d.ccx[c].act) :: d.ccx[c].istk, curLev := l, act := true, wait := false } }

/-- R374, R379: the entry changes the core's own records only. -/
theorem takeEvent_setAg (d : Device) (c : Fin 4) (e : Engine) (v l : Nat) : takeEvent (setAg d (ccProc c) e) c v l =
    setAg (entered d c e.npc l) (ccProc c) { e with
      npc := (getF d (F.CC_VBASE.ADDR c.val) + 8 * v) / 8, cyc := e.cyc + 4, resv := none, pair := none } := by
  unfold takeEvent
  dsimp only
  rw [ag_setAg_same]
  simp [setAg, entered]
  rfl

/-- Settles O26: the entry is one update of the core's records, by `takeEvent_setAg`. -/
theorem interruptEntryCompletes : Obligations.InterruptEntryCompletes := by
  unfold Obligations.InterruptEntryCompletes
  intro s c v l hh hr hx ha hp hn ht
  have hc : completes (.interruptEntry c) s
      (takeEvent (setAg s.dev (ccProc c) (landDue (finishDiv (ag s.dev (ccProc c))))) c v l) := by
    refine comp_dev hh ((if_pos ⟨hr, hx, ha, hp, hn⟩).trans ?_)
    rw [ht]
  rw [takeEvent_setAg, npc_landDue, npc_finishDiv] at hc
  exact ⟨_, hc, rfl, by rw [ag_setAg_same], by rw [ag_setAg_same], fun m hm => ag_setAg_other _ _ hm.symm, rfl, rfl, rfl⟩

end Sys2Proof.Machine
end

section
/-! PROOFS. The rows of the boot (R451 to R466). -/

namespace Sys2Proof.Machine

section
variable {d : Device}

/-! ### The load's begin and the headers -/

theorem loadBegin_ready (hp : getF d F.BOOT_STAT.PHASE = 0) (hs : sequenceDone d = true) (he : d.exiting = false)
    (hf : d.variant.fuseErr = false) (hw : flashWaits d = false) (hr : getF d F.BOOT_STAT.SRC ≠ 3) :
    loadBegin d = setF d F.BOOT_STAT.PHASE 1 := by
  unfold loadBegin
  rw [if_neg (by simp [hp, hs, hw])]
  dsimp only
  rw [if_neg (ne_true_of_eq_false he), if_neg (ne_true_of_eq_false hf), if_neg hr]

theorem noteVariant_same {ws : List Word} (h : (ws.getD 6 0).toNat % 2 ^ 16 = variantCounts d) : noteVariant d ws = d :=
  if_pos h

theorem hdrs_setF (d : Device) (f : Fld) (v : Nat) : (setF d f v).hdrs = d.hdrs :=
  congrArg DevBoot.hdrs (setF_boot d f v)

theorem hdrs_setB (d : Device) (f : Fld) (b : Bool) : (setB d f b).hdrs = d.hdrs := hdrs_setF d f _

/-- What a valid header of a slot shows (R455): that it is valid, and its SEQ. -/
def headerShown (d : Device) (slot : Fin 2) (seq : Nat) : Device :=
  if slot = 0 then setF (setB d F.BOOT_STAT.AVALID true) F.BOOT_SEQA.SEQ seq
  else setF (setB d F.BOOT_STAT.BVALID true) F.BOOT_SEQB.SEQ seq

theorem hdrs_headerShown (d : Device) (slot : Fin 2) (seq : Nat) : (headerShown d slot seq).hdrs = d.hdrs := by
  unfold headerShown
  split <;> rw [hdrs_setF, hdrs_setB]

/-- R455: the first valid header of the two is kept until the other one has been read. -/
theorem flashHeader_first {slot : Fin 2} {ws : List Word} {h : SlotHdr} (hn : d.hdrs[slot] = none)
    (hh : slotHeader ws = some h) (hv : (ws.getD 6 0).toNat % 2 ^ 16 = variantCounts d)
    (ho : ∀ o : Fin 2, o ≠ slot → d.hdrs[o] = none) :
    flashHeader d slot ws = headerShown { d with hdrs := d.hdrs.set slot (some (some h)) } slot h.seq := by
  have hother : ∀ o : Fin 2, o ≠ slot →
      (headerShown { d with hdrs := d.hdrs.set slot (some (some h)) } slot h.seq).hdrs[o] = none := by
    intro o hne
    rw [hdrs_headerShown]
    have := ho o hne
    simpa [Fin.val_ne_of_ne hne.symm] using this
  have hshown : (if slot = 0 then
        setF (setB { d with hdrs := d.hdrs.set slot (some (some h)) } F.BOOT_STAT.AVALID true) F.BOOT_SEQA.SEQ h.seq
      else setF (setB { d with hdrs := d.hdrs.set slot (some (some h)) } F.BOOT_STAT.BVALID true) F.BOOT_SEQB.SEQ h.seq) =
      headerShown { d with hdrs := d.hdrs.set slot (some (some h)) } slot h.seq := rfl
  unfold flashHeader
  rw [hn, hh]
  dsimp only
  rw [noteVariant_same (d := { d with hdrs := d.hdrs.set slot (some (some h)) }) hv, hshown]
  by_cases h0 : slot = 0
  · rw [hother 1 (by omega)]
    split
    · next he => cases he
    · rfl
  · rw [hother 0 (fun he => h0 he.symm)]

theorem headerRead_flash {slot : Fin 2} {ws : List Word} (hl : d.live = none) (hp : getF d F.BOOT_STAT.PHASE = 1)
    (hb : d.boot = none) (hs : getF d F.BOOT_STAT.SRC ≠ 2) : headerRead d slot ws = flashHeader d slot ws := by
  unfold headerRead
  rw [hl]
  dsimp only
  rw [if_neg (by simp [hp, hb]), if_neg hs]

/-! ### Blocks -/

/-- R458: a block that passes its checks goes into the next buffer. -/
theorem bootBlock_good {x : SlotRd} {ws : List Word} (hf : readFails x ws false = false) (hb : blockBad x ws = false)
    (hh : ∀ o : Fin 2, d.hdrs[o] = none) : bootBlock d x ws false true = setBoot d { x with
      next := x.next + 1, words := x.words + (blkLen ws + 5), retried := false, got := []
      bufs := x.bufs ++ [ws.take (blkLen ws + 5)] } := by
  unfold bootBlock
  rw [hf, hb, if_neg Bool.false_ne_true, if_neg Bool.false_ne_true, if_pos rfl, hh]

theorem blockReadDone_flash {x : SlotRd} (hl : d.live = none) (hx : d.boot = some x) (hn : x.next < x.nblk)
    (hb : x.bufs.length < 2) (hs : getF d F.BOOT_STAT.SRC ≠ 2) (ws : List Word) (early : Bool) :
    blockReadDone d ws early = bootBlock d x ws early true := by
  unfold blockReadDone
  rw [hl, hx]
  dsimp only
  rw [if_neg (by omega), if_neg hs]

/-- R457: a row applies the oldest block of the boot load, when it is of its kind. -/
theorem applyBlock_boot {x : SlotRd} {b : List Word} {bs : List (List Word)} (hl : d.live = none) (hx : d.boot = some x)
    (hb : x.bufs = b :: bs) {kind : Nat} (hk : blkKind b = kind) (boot live : Device → SlotRd → List Word → Device) :
    applyBlock d kind boot live = boot d x b := by
  unfold applyBlock
  dsimp only
  rw [hl, hx]
  dsimp only
  rw [hb]
  exact if_pos hk

theorem bootRecords_done {x : SlotRd} {b : List Word} {last : Bool} (h : (applyRecords d 0 x b).2 = .done last) :
    bootRecords d x b = bootApplied (applyRecords d 0 x b).1 x b last := by
  unfold bootRecords
  dsimp only
  rw [h]

theorem bootCores_new {x : SlotRd} {b : List Word} (h : Nat.land (startMask b) x.cores = 0) : bootCores d x b =
    bootApplied (setB (startCores d b) F.SYS_READY.CORES true) { x with cores := Nat.lor x.cores (startMask b) } b false :=
  if_neg (fun hn => hn h)

/-! ### The loader gate and the host push -/

/-- R462: the gate opens on a verified image, and a stored mode other than the one in force takes effect. -/
theorem gateOpen_verified (hg : d.gated = true) (hp : getF d F.BOOT_STAT.PHASE = 1) (hv : getB d F.SYS_READY.VERIFIED = true)
    (hu : getB d F.SYS_READY.GUARD = true) : gateOpen d =
      (let e := if voteOn d = true ∧ getB d F.PWR_MODE.VOTE = false
         then { d with domNs := Vector.replicate 13 0 } else d
       let e := setF (setB (fadeInAll { e with gated := false }) F.SYS_READY.OUTPUTS true) F.BOOT_STAT.PHASE 2
       raiseCtrl (setF e F.BOOT_T.OPEN (Nat.min (e.bootNs / 10000) 0xFFFF)) 0x1C8) := by
  unfold gateOpen
  rw [if_pos ⟨hg, hp, hv, hu⟩]
  simp only [Bool.not_eq_true]

theorem pushTimeout_due (hw : d.pushWait = true) (hp : getF d F.BOOT_STAT.PHASE = 1) (ht : d.pushNs + 1000 * 2 ^ 24 ≤ d.bootNs) :
    pushTimeout d = recovery d (getF d F.BOOT_FAIL.CAUSE) := if_pos ⟨hw, hp, ht⟩

end

/-- Settles O40, a clause per row: the row's effect in the case its hypotheses name. -/
theorem bootRowsComplete : Obligations.BootRowsComplete := by
  unfold Obligations.BootRowsComplete
  intro s slot ws b bs x h hh
  refine ⟨fun hp hs he hf hw hr => ?begin, fun hl hp hb hs hn hd hv ho => ?header, fun hl hx hn hb hs hf hg hd => ?block,
    fun hl hx hb => ⟨fun last hk hr => ?records, fun hk => ?memory, fun hk hm => ?start⟩, fun hg hp hv hu => ?gate,
    fun hw hp ht => ?push⟩
  case begin => exact device_completes (f := loadBegin) hh rfl (loadBegin_ready hp hs he hf hw hr)
  case header =>
    exact device_completes (f := (headerRead · slot ws)) hh rfl
      ((headerRead_flash hl hp hb hs).trans (flashHeader_first hn hd hv ho))
  case block =>
    exact device_completes (f := (blockReadDone · ws false)) hh rfl
      ((blockReadDone_flash hl hx hn hb hs ws false).trans (bootBlock_good hf hg hd))
  case records =>
    exact device_completes (f := recordsBlock) hh rfl
      ((applyBlock_boot hl hx hb hk bootRecords liveRecords).trans (bootRecords_done hr))
  case memory =>
    exact device_completes (f := memoryBlock) hh rfl
      (applyBlock_boot hl hx hb hk (fun d x b => bootApplied (copyMemory d b) x b false) liveMemory)
  case start =>
    exact device_completes (f := startBlock) hh rfl
      ((applyBlock_boot hl hx hb hk bootCores liveStart).trans (bootCores_new hm))
  case gate => exact device_completes (f := gateOpen) hh rfl (gateOpen_verified hg hp hv hu)
  case push => exact device_completes (f := pushTimeout) hh rfl (pushTimeout_due hw hp ht)

end Sys2Proof.Machine
end

section
/-! PROOFS. The rows of the Coach, of the operating points, of the domains and of the entry (R405, R406, R410, R414, R416, R432
to R434, R439, R442). -/

namespace Sys2Proof.Machine

section
variable {d : Device} {n : Nat}

/-! ### Operating points -/

/-- R433: a voltage within TOL of its target is the step's end. -/
theorem voltageRead_near {v mv : Nat} {l : List DvfsStep} (hs : d.dvfs = .volt v :: l) {e : Device}
    (he : setF d F.PWR_PMBSTAT.VOUT mv = e) (hl : mv ≤ getF e (F.PWR_VOPP.MV v) + getF e F.PWR_PMBCFG.TOL)
    (hu : getF e (F.PWR_VOPP.MV v) ≤ mv + getF e F.PWR_PMBCFG.TOL) :
    voltageRead d mv = dvfsRun l (setF e F.PWR_DVFSSTAT.VIDX v) := by
  unfold voltageRead
  rw [hs]
  dsimp only
  rw [he]
  exact if_pos ⟨hl, hu⟩

/-- The status bit that records why a voltage step failed (R434); one that did not settle has none. -/
def markStepFail (d : Device) : VFail → Device
  | .settle => d
  | .nack => setB d F.PWR_PMBSTAT.NACK true
  | .clockLow => setB d F.PWR_PMBSTAT.TIMEOUT true

/-- R434: a failed step ends the sequence at the lower voltage level. -/
theorem voltageFail_step {v : Nat} {l : List DvfsStep} (hs : d.dvfs = .volt v :: l) (why : VFail) (status : Nat) :
    voltageFail d why status =
      (let e := markStepFail (setF d F.PWR_PMBSTAT.STATUS status) why
       dvfsEnd (raiseEv (setB (setF e F.PWR_DVFSSTAT.VIDX (Nat.min (vidx e) v)) F.PWR_DVFSSTAT.FAIL true) 0x1C2)) := by
  unfold voltageFail
  rw [hs]
  cases why <;> rfl

/-! ### Domains -/

theorem domainIdle_due (ha : awake d = true) (hs : domState d n = 0) (hh : domHeld d n = false)
    (hu : getF d (F.PWR_DOMCFG.IDLEUS n) ≠ 0) (ht : getF d (F.PWR_DOMCFG.IDLEUS n) * 1000 ≤ domTimer d n) :
    domainIdle d n = setDomain d n 1 :=
  if_pos ⟨hs, ne_true_of_eq_false hh, hu, ht, ha⟩

theorem domainDown_due (ha : awake d = true) (hs : domState d n = 1) (hh : domHeld d n = false)
    (he : getB d (F.PWR_DOMCFG.DOWNEN n) = true) (hu : getF d (F.PWR_DOMCFG.IDLEUS n) ≠ 0)
    (ht : (getF d (F.PWR_DOMCFG.IDLEUS n) + getF d (F.PWR_DOMCFG.DOWNUS n)) * 1000 ≤ domTimer d n)
    (hl : downAllowed d n = true) : domainDown d n = setDomain d n 2 :=
  if_pos ⟨hs, ne_true_of_eq_false hh, hu, he, ht, hl, ha⟩

theorem deviceTimer_due (ha : awake d = true) (ht : getF d F.PWR_CTL.TARGET ≠ 0) (hm : getF d F.PWR_CTL.MS ≠ 0)
    (hc : getF d F.PWR_CTL.MS * 1000000 ≤ d.devNs) (he : d.entry = none) (hx : d.exiting = false)
    (hh : holdersOf d (entryMask (getF d F.PWR_CTL.TARGET)) = []) :
    deviceTimer d = entryBegin d (getF d F.PWR_CTL.TARGET) :=
  if_neg (by simp [ha, ht, hm, hc, he, hx, hh])

/-! ### The entry -/

/-- R416: with nothing posted there is nothing to carry out before the commit point. -/
theorem hspiDrain_empty (h : d.hspiOps = []) : hspiDrain d = d := by
  unfold hspiDrain
  rw [h]
  exact ite_self _

/-- R415: an entry that no voter holds goes on. -/
theorem entryCheck_unheld {t : Nat} (he : d.entry = some t) (hh : holdersOf d (entryMask t) = []) : entryCheck d = d := by
  unfold entryCheck
  rw [he]
  dsimp only
  rw [hh]

theorem entryCommit_ended {t : Nat} (he : d.entry = some t) (hh : holdersOf d (entryMask t) = [])
    (hk : kickoffsEnded d = true) (a0 : Nat) : entryCommit d a0 = entryTake d t a0 := by
  unfold entryCommit
  rw [entryCheck_unheld he hh]
  dsimp only
  rw [he]
  exact if_pos hk

/-- R419: a commit point with no wake pending stops the device. -/
theorem entryTake_noWake {t a0 : Nat} {e : Device}
    (he : (let d := (List.finRange 256).foldl drainQueue d
      let d := setF { d with entry := none, restT0 := tod d, restA0 := a0 % 2 ^ 48, winBad := true } F.TIME_AON.COUNT a0
      let d := if t = 2 then (List.finRange 128).foldl deepBank d else d
      let d := if t = 3 then d else padLatch d
      setF { d with pstate := if t = 1 then .sleep else if t = 2 then .deep else .off } F.PWR_STAT.STATE (3 + t)) = e)
    (hw : e.wakePend = none) : entryTake d t a0 = e := by
  subst he
  unfold entryTake
  dsimp only at hw ⊢
  rw [hw]

end

/-- Settles O45, a clause per row: the row's effect in the case its hypotheses name. -/
theorem powerRowsComplete : Obligations.PowerRowsComplete := by
  unfold Obligations.PowerRowsComplete
  intro s n raw mv v a0 l why status h
  refine ⟨fun hd link sap => ⟨fun hm => ?decides, fun hm ht => ?held⟩, ?sensors, fun hs => ⟨fun hl hu => ?confirm, ?fail⟩,
    fun ha => ⟨fun hs hh hu ht => ?idle, fun hs hh he hu ht hl => ?down, fun ht hm hc he hx hh => ?timer⟩,
    fun hh hs => ?wake, fun t he ho hh hk hw => ?commit⟩
  case decides =>
    exact device_completes (f := (coachDecide · link sap)) h rfl ((if_neg (not_not_intro hd)).trans
      (if_neg (fun ⟨h1, ht⟩ => hm.elim (· h1) (fun hc => absurd ht (Int.not_lt.2 hc)))))
  case held =>
    exact device_completes (f := (coachDecide · link sap)) h rfl ((if_neg (not_not_intro hd)).trans (if_pos ⟨hm, ht⟩))
  case sensors => exact device_completes (f := (thermalConvert · raw)) h rfl rfl
  case confirm => exact device_completes (f := (voltageRead · mv)) h rfl (voltageRead_near hs rfl hl hu)
  case fail =>
    refine device_completes (f := (voltageFail · why status.toNat)) h rfl ((voltageFail_step hs why status.toNat).trans ?_)
    cases why <;> rfl
  case idle => exact device_completes (f := (domainIdle · n.val)) h rfl (domainIdle_due ha hs hh hu ht)
  case down => exact device_completes (f := (domainDown · n.val)) h rfl (domainDown_due ha hs hh he hu ht hl)
  case timer => exact device_completes (f := deviceTimer) h rfl (deviceTimer_due ha ht hm hc he hx hh)
  case wake =>
    exact device_completes (f := fun d => if domHeld d n.val then domainWake d n.val else d) h rfl
      ((if_pos hh).trans (if_pos hs))
  case commit =>
    refine device_completes (f := fun d => entryCommit (hspiDrain d) a0) h rfl ?_
    rw [hspiDrain_empty ho, entryCommit_ended he hh hk]
    exact entryTake_noWake rfl hw

end Sys2Proof.Machine
end

section
/-! PROOFS. The wakes and the exit (R421 to R426, R435, R502). -/

namespace Sys2Proof.Machine

/-- A device at rest in a power state: no exit runs and no entry has begun. -/
def RestsIn (d : Device) (p : PState) : Prop := d.exiting = false ∧ d.entry = none ∧ d.pstate = p

section
variable {d e : Device} {p : PState} {src : Nat} {ok : PState → Bool}

/-! ### Wake sources -/

theorem RestsIn.of_parts (h : RestsIn d p) (hc : e.toDevClk = d.toDevClk) (hx : e.exiting = d.exiting) : RestsIn e p := by
  obtain ⟨hexit, hentry, hstate⟩ := h
  exact ⟨hx.trans hexit, (congrArg DevClk.entry hc).trans hentry, (congrArg DevClk.pstate hc).trans hstate⟩

theorem RestsIn.setF (h : RestsIn d p) (f : Fld) (v : Nat) : RestsIn (setF d f v) p :=
  h.of_parts (setF_clk d f v) (congrArg DevPwr.exiting (setF_pwr d f v))

theorem RestsIn.setB (h : RestsIn d p) (f : Fld) (b : Bool) : RestsIn (setB d f b) p := h.setF f _

theorem RestsIn.pmbDue (h : RestsIn d p) (v : Option Nat) : RestsIn { d with pmbDue := v } p := h.of_parts rfl rfl

theorem RestsIn.raiseEv (h : RestsIn d p) (v : Nat) : RestsIn (raiseEv d v) p :=
  h.of_parts (raiseEv_clk d v) (congrArg DevPwr.exiting (raiseEv_pwr d v))

/-- R420, R424: an enabled source starts the exit of a device at rest in a state the source wakes it from. -/
theorem wake_rests (h : RestsIn d p) (hw : getF d ⟨Adr.PWR_WAKECFG, src, 1⟩ ≠ 0) (ho : ok p = true) :
    wake d src ok = exitBegin d src := by
  obtain ⟨hexit, hentry, hstate⟩ := h
  unfold wake
  rw [if_neg hw, if_neg (ne_true_of_eq_false hexit), hentry, hstate]
  exact if_pos ho

/-- R421: a source that does not wake the device from its state does nothing, enabled or not. -/
theorem wake_rests_other (h : RestsIn d p) (ho : ok p = false) : wake d src ok = d := by
  obtain ⟨hexit, hentry, hstate⟩ := h
  unfold wake
  split
  · rfl
  · rw [if_neg (ne_true_of_eq_false hexit), hentry, hstate]
    exact if_neg (ne_true_of_eq_false ho)

theorem awake_sleep (h : RestsIn d .sleep) : awake d = false := by
  obtain ⟨-, -, hstate⟩ := h
  unfold awake
  rw [hstate]
  decide

/-- R422: a sample of a comparator that reads 1, short of a wake or not. -/
theorem senseCrossing_high {k : Fin 4} {mv : Nat} (hp : d.pstate ≠ .off) (ho : senseOut d k mv = true)
    (hr : d.senseRun[k] = getF d (F.PWR_SENSE.DEB k.val)) : senseCrossing d k mv =
      wake (setB { d with senseRun := d.senseRun.set k (d.senseRun[k] + 1) } (F.PWR_SENSE.OUT k.val) true)
        k.val (wakes k.val) := by
  have hkeep : getF (setB { d with senseRun := d.senseRun.set k (d.senseRun[k] + 1) } (F.PWR_SENSE.OUT k.val) true)
      (F.PWR_SENSE.DEB k.val) = getF d (F.PWR_SENSE.DEB k.val) := by
    exact getF_setF_apart _ _ _ _ (Nat.le_of_ble_eq_true rfl) (Or.inr ⟨rfl, Or.inl (Nat.le_of_ble_eq_true rfl)⟩)
  unfold senseCrossing
  rw [if_neg hp, ho]
  dsimp only
  rw [if_pos rfl]
  exact if_pos (by rw [hkeep, hr])

/-- R422: a sample that reads 0 ends the run of samples at 1. -/
theorem senseCrossing_low {k : Fin 4} {mv : Nat} (hp : d.pstate ≠ .off) (ho : senseOut d k mv = false) :
    senseCrossing d k mv = setB { d with senseRun := d.senseRun.set k 0 } (F.PWR_SENSE.OUT k.val) false := by
  unfold senseCrossing
  rw [if_neg hp, ho]
  exact if_neg (Nat.succ_ne_zero _).symm

theorem squelchWake_enabled {n : Fin 8} (hn : n.val < linkCount d) (hl : linkField d n.val 0x40 3 1 = 1) :
    squelchWake d n = wake d 5 (wakes 5) := if_pos ⟨hn, hl⟩

theorem aonAlarm_reached (he : getF d F.PWR_ALARM.EN = 1) (hr : alarmReached d = true) :
    aonAlarm d = wake (raiseEv (setF d F.PWR_ALARM.EN 0) 0x1C4) 7 (wakes 7) := if_pos ⟨he, hr⟩

/-- R435: asserted while the device sleeps, the read of STATUS_WORD waits for the bus. -/
theorem pmbAlert_asleep (h : RestsIn d .sleep) (v : Nat) : pmbAlert d (some v) =
    wake { setF d F.PWR_PMBSTAT.ALERT 1 with pmbDue := some v } 8 (wakes 8) := by
  have hawake : awake (setF d F.PWR_PMBSTAT.ALERT 1) = false := awake_sleep (h.setF _ _)
  obtain ⟨-, -, hstate⟩ := h
  unfold pmbAlert
  rw [if_neg (by simp [hstate])]
  exact if_neg (ne_true_of_eq_false hawake)

/-! ### PERST_N -/

theorem exitBegin_boot (d : Device) (src : Nat) : (exitBegin d src).toDevBoot = d.toDevBoot := by
  simp only [exitBegin, setF_boot, exitMark]

theorem wake_perst (d : Device) (src : Nat) (ok : PState → Bool) : (wake d src ok).perst = d.perst := by
  have hset : ∀ f v, (setF d f v).perst = d.perst := fun f v => congrArg DevBoot.perst (setF_boot d f v)
  have hexit : (exitBegin d src).perst = d.perst := congrArg DevBoot.perst (exitBegin_boot d src)
  unfold wake
  split
  · rfl
  · split
    · split
      · exact hset _ _
      · rfl
    · split
      · split
        · rfl
        · split
          · rfl
          · exact hset _ _
      · split
        · exact hexit
        · rfl

theorem perstRise_perst (d : Device) : (perstRise d).perst = true := by
  unfold perstRise perstWake
  split
  · exact wake_perst _ _ _
  · rfl

/-- R502: PERST_N low puts the endpoint's own state back. -/
theorem perstFall_endpoint (d : Device) : (perstFall d).perst = false ∧ (perstFall d).pcieMsixEn = false ∧
    (perstFall d).pcieBar = 0 ∧ (perstFall d).pcieCpl = [] := by
  unfold perstFall
  dsimp only
  generalize hr : regsReset _ 0x1C100000 0x1C103000 = r
  have hreset : r.perst = false ∧ r.pcieMsixEn = false ∧ r.pcieBar = 0 ∧ r.pcieCpl = [] := by
    subst hr
    exact ⟨rfl, rfl, rfl, rfl⟩
  split
  · have hhost := raiseEv_host r 0x1CE
    obtain ⟨hperst, hen, hbar, hcpl⟩ := hreset
    exact ⟨(congrArg DevBoot.perst (raiseEv_boot r 0x1CE)).trans hperst, (congrArg DevHost.pcieMsixEn hhost).trans hen,
      (congrArg DevHost.pcieBar hhost).trans hbar, (congrArg DevHost.pcieCpl hhost).trans hcpl⟩
  · exact hreset

/-- A row of PERST_N in a device that is not held. -/
theorem perst_completes {c : Instr} {s : State} {f : Device → Device} {level : Bool} (h : held s.dev = false)
    (hx : exec c s = onPins s (fun d => if held d then { d with perst := level } else f d)) : completes c s (f s.dev) :=
  hx.trans (comp_pins (if_neg (ne_true_of_eq_false h)))

/-! ### The exit -/

/-- R425, R426, R428: what the exit does, in its order, where no STATUS_WORD waits. -/
theorem exitComplete_noStatus {a1 : Nat} {lost : List (Fin 128 × Fin 4 × Cell)} (hx : d.exiting = true)
    (hp : d.pstate = .sleep ∨ d.pstate = .deep)
    (he : (let b := settlePstate { d with
        pstate := .run, exiting := false, halted := Vector.replicate 4 false
        sap := d.sap.map (fun x => { x with frame := none, fresh := true, due := none }) }
      let b := setF b F.PWR_STAT.STATE 0
      let b := if d.pstate = .deep then (List.finRange 128).foldl (deepLeave lost) b else b
      let b := guardWake (restartDomains (freeLocked (timeBegin (pllsLock b) a1)) (fun _ => true))
      raiseEv (join ((List.finRange 8).foldl linkRetrain b)) 0x1C0) = e)
    (hd : e.pmbDue = none) : exitComplete d a1 lost = e := by
  subst he
  unfold exitComplete
  rw [if_pos ⟨hx, hp⟩]
  simp only [decide_eq_true_eq]
  dsimp only at hd
  rw [hd]

end

/-- Settles O46: a sleeping device rests, so that an enabled source starts its exit; the other clauses are the rows' own
cases. -/
theorem wakesComplete : Obligations.WakesComplete := by
  unfold Obligations.WakesComplete
  intro s k n mv status a1 lost h
  refine ⟨fun hx he hp => ?asleep, fun hoff => ⟨?senseOff, ?alertOff⟩, fun hp => ?release, fun hx he hp hen hat => ?running,
    fun hp ho => ?low, ⟨_, perst_completes h rfl, perstRise_perst s.dev⟩, ⟨_, perst_completes h rfl, perstFall_endpoint s.dev⟩,
    fun hx hp hd => ?exit⟩
  case asleep =>
    have hrest : RestsIn s.dev .sleep := ⟨hx, he, hp⟩
    refine ⟨fun hw => ?pin, fun ho hr hw => ?sense, fun hw hn hl => ?squelch, fun hw => ⟨?cs, fun hpc => ?l1⟩,
      fun hen hw => ?alarm, fun hw => ?alert⟩
    case pin => exact device_completes (f := wakePin) h rfl (wake_rests hrest hw rfl)
    case sense =>
      have hcount : RestsIn { s.dev with senseRun := s.dev.senseRun.set k (s.dev.senseRun[k] + 1) } .sleep :=
        hrest.of_parts rfl rfl
      exact device_completes (f := (senseCrossing · k mv)) h rfl
        ((senseCrossing_high (by simp [hp]) ho hr).trans (wake_rests (hcount.setB _ _) hw rfl))
    case squelch =>
      exact device_completes (f := (squelchWake · n)) h rfl ((squelchWake_enabled hn hl).trans (wake_rests hrest hw rfl))
    case cs => exact device_completes (f := hostWake) h rfl (wake_rests hrest hw rfl)
    case l1 =>
      exact device_completes (f := fun d => if hasPcie d then hostWake d else d) h rfl
        ((if_pos hpc).trans (wake_rests hrest hw rfl))
    case alarm =>
      have hreached : alarmReached s.dev = true := by simp [alarmReached, awake_sleep hrest]
      exact device_completes (f := aonAlarm) h rfl
        ((aonAlarm_reached hen hreached).trans (wake_rests ((hrest.setF _ _).raiseEv _) hw rfl))
    case alert =>
      exact device_completes (f := (pmbAlert · (some status.toNat))) h rfl
        ((pmbAlert_asleep hrest status.toNat).trans (wake_rests ((hrest.setF _ _).pmbDue _) hw rfl))
  case senseOff => exact device_completes (f := (senseCrossing · k mv)) h rfl (if_pos hoff)
  case alertOff => exact device_completes (f := (pmbAlert · (some status.toNat))) h rfl (if_pos hoff)
  case release => exact device_completes (f := (pmbAlert · none)) h rfl (if_neg hp)
  case running =>
    have hrest : RestsIn s.dev .run := ⟨hx, he, hp⟩
    have hreached : alarmReached s.dev = true := by simp [alarmReached, hat]
    exact device_completes (f := aonAlarm) h rfl
      ((aonAlarm_reached hen hreached).trans (wake_rests_other ((hrest.setF _ _).raiseEv _) rfl))
  case low => exact device_completes (f := (senseCrossing · k mv)) h rfl (senseCrossing_low hp ho)
  case exit =>
    exact device_completes (f := fun d => runStalled (exitComplete d a1 lost)) h rfl
      (congrArg runStalled (exitComplete_noStatus hx hp rfl hd))

end Sys2Proof.Machine
end

section
/-! PROOFS. The rows of live service, of the flash command and of the partition (R473, R480, R484). -/

namespace Sys2Proof.Machine

section
variable {d : Device}

theorem subCopied_pending {x : Subst} (hs : d.sub = some x) (hc : x.copied = false) :
    subCopied d = setSub (copyStores d x) (some { x with copied := true }) := by
  unfold subCopied
  rw [hs]
  exact if_neg (ne_true_of_eq_false hc)

/-- R480: a command that reads nothing ends with the buffer as it was. -/
theorem fspiDone_write (hb : getB d F.FSPI_XSTAT.BUSY = true) (hd : getB d F.FSPI_XCMD.DIR = false) (bytes : List (BitVec 8)) :
    fspiDone d bytes = setB d F.FSPI_XSTAT.BUSY false := by
  unfold fspiDone
  rw [if_pos hb, hd]
  rfl

/-- R480: a command that reads ends with its NBYTES bytes in the buffer. -/
theorem fspiDone_read (hb : getB d F.FSPI_XSTAT.BUSY = true) (hd : getB d F.FSPI_XCMD.DIR = true) (bytes : List (BitVec 8)) :
    fspiDone d bytes = setB ((List.range (getF d F.FSPI_XCMD.NBYTES)).foldl (fun d i =>
      setF d ⟨Adr.FSPI_BUF (i / 4), 8 * (i % 4), 8⟩ (bytes.getD i 0).toNat) d) F.FSPI_XSTAT.BUSY false := by
  unfold fspiDone
  rw [if_pos hb]
  dsimp only
  rw [if_pos hd]

end

/-- Settles O47, a clause per row: the row's effect in the case its hypotheses name. -/
theorem serviceRowsComplete : Obligations.ServiceRowsComplete := by
  unfold Obligations.ServiceRowsComplete
  intro s x bytes
  refine ⟨fun h => ⟨fun hs hc => ?copied, fun hb => ⟨fun hd => ?wrote, fun hd => ?read⟩⟩, fun hp => ?tamper, ?wiped⟩
  case copied => exact device_completes (f := subCopied) h rfl (subCopied_pending hs hc)
  case wrote => exact device_completes (f := (fspiDone · bytes)) h rfl (fspiDone_write hb hd bytes)
  case read => exact device_completes (f := (fspiDone · bytes)) h rfl (fspiDone_read hb hd bytes)
  case tamper => exact comp_pins (f := tamper) (if_pos hp)
  case wiped => exact comp_pins (f := wipeDone) rfl

end Sys2Proof.Machine
end

section
/-! PROOFS. An HSPI READ (R491): what the model shifts out, and a state in which it is not what O48 asks for. -/

namespace Sys2Proof.Machine

section
variable {d : Device} {bits : Nat}

/-- R491: a word of a READ on time is shifted out, cut to the word length with which its access began. -/
theorem hspiReadWord_onTime (ha : awake d = true) (hp : d.hspiOps = []) (a : Nat) (whole : Bool) :
    hspiReadWord d a whole true = (let r := busPeek d .hspi a whole
      { r.1 with hspiOut := r.1.hspiOut ++ [hspiCut d r.2] }) := (if_pos ⟨ha, hp⟩).trans (if_pos rfl)

/-- R491: an accepted READ of one word, on time. -/
theorem hspiRead_word (ho : hspiOn d = true) (hb : bits ≠ 0) (hn : hspiBegun (hspiBegin d) true bits = 1)
    (ha : awake d = true) (hp : d.hspiOps = []) {addr : Word} {r : Device × Word}
    (hr : busPeek (hspiBegin d) .hspi (hspiAddr addr % 2 ^ 32) (decide (0 < hspiWhole (hspiBegin d) true bits)) = r)
    (hs : hspiShapeBad r.1 true bits = false) (hout : r.1.hspiOut = []) :
    hspiRead d bits addr [true] = { r.1 with hspiOut := [hspiCut (hspiBegin d) r.2] } := by
  have hword : hspiReadWord (hspiBegin d) (hspiAddr addr % 2 ^ 32) (decide (0 < hspiWhole (hspiBegin d) true bits)) true =
      { r.1 with hspiOut := [hspiCut (hspiBegin d) r.2] } := by
    rw [hspiReadWord_onTime (d := hspiBegin d) ha hp, hr]
    dsimp only
    rw [hout, List.nil_append]
  unfold hspiRead
  rw [if_neg (fun h => h.elim (fun hoff => hoff ho) hb)]
  dsimp only
  rw [hn, List.range_one, List.foldl_cons, List.foldl_nil, List.getD_cons_zero, Nat.mul_zero, Nat.add_zero, hword]
  exact if_neg (ne_true_of_eq_false hs)

end

/-! ### The counterexample -/

/-- A device in which a write of 4 to HSPI_CFG stands among the accesses that wait at bank 7: a READ in that bank serves it
first (log 68), and the word length falls from 32 to 4 between the frame's begin and its end. No run from reset brings this
about, since only accesses of delay memory come to wait; O48 has no hypothesis on the accesses that wait. -/
def cfgWaits : Device :=
  setF (putDelay { State.reset.dev with
    banks := Vector.replicate 128 .on
    waits := [⟨.hspi, Adr.HSPI_CFG, 4, some 4, 0, true, 0, .uninit⟩] } 0xE0000 ⟨0xFF, .sample⟩) F.SYS_READY.FUSE 1

/-- What the READ of `cfgWaits` at byte address 0x380000 finds. -/
def cfgPeek : Device × Word := busPeek (hspiBegin cfgWaits) .hspi (hspiAddr 0x380000 % 2 ^ 32) true

/-- A frame of 88 bits, one word of 32 bits after its head, is taken by `cfgWaits`. -/
theorem cfgWaits_takes : held cfgWaits = false ∧ hspiOn cfgWaits = true ∧ awake cfgWaits = true ∧ cfgWaits.hspiOps = [] ∧
    hspiShapeBad (hspiBegin cfgWaits) true 88 = false ∧ hspiBegun (hspiBegin cfgWaits) true 88 = 1 ∧
    hspiWhole (hspiBegin cfgWaits) true 88 = 1 := by decide +kernel

/-- The word read is 0xFF: its 8 bits are left by the word length of 32, and 4 of them by the word length after the access. -/
theorem cfgPeek_shortens : hspiShapeBad cfgPeek.1 true 88 = false ∧ cfgPeek.1.hspiOut = [] ∧
    hspiCut (hspiBegin cfgWaits) cfgPeek.2 = 0xFF ∧ hspiCut cfgPeek.1 cfgPeek.2 = 0xF := by decide +kernel

/-- Refutes O48: its READ clause cuts the word to the word length after the access, the model to the one with which the
access began, and in `cfgWaits` the access itself changes it. -/
theorem not_hspiRowsComplete : ¬ Obligations.HspiRowsComplete := by
  unfold Obligations.HspiRowsComplete
  intro hall
  obtain ⟨hheld, hon, hawake, hops, hshape, hbegun, hwhole⟩ := cfgWaits_takes
  obtain ⟨hend, hout, hbefore, hafter⟩ := cfgPeek_shortens
  have hpeek : busPeek (hspiBegin cfgWaits) .hspi (hspiAddr 0x380000 % 2 ^ 32)
      (decide (0 < hspiWhole (hspiBegin cfgWaits) true 88)) = cfgPeek := by
    rw [hwhole]
    rfl
  obtain ⟨hframes, -⟩ := hall { State.reset with dev := cfgWaits } 88 0x380000 [] 0 0 false [] hheld
  obtain ⟨-, hread, -⟩ := hframes hon (by decide)
  have hclaim := hread hshape hbegun hawake hops
  rw [hpeek] at hclaim
  have hmodel := device_completes (s := { State.reset with dev := cfgWaits }) (c := .hspiRead 88 0x380000 [true])
    (f := (hspiRead · 88 0x380000 [true])) hheld rfl (hspiRead_word hon (by decide) hbegun hawake hops hpeek hend hout)
  have hsame := (hclaim hend hout).symm.trans hmodel
  rw [hbefore, hafter] at hsame
  injection hsame with hstate
  have hwords : ([0xF] : List Word) = [0xFF] := congrArg (fun s : State => s.dev.hspiOut) hstate
  exact absurd hwords (by decide)

end Sys2Proof.Machine
end

section
/-! PROOFS. The rows of CSPI, of the PCIe endpoint and of GPIO (R496, R498 to R502, R507). -/

namespace Sys2Proof.Machine

section
variable {d : Device} {a : Nat}

/-! ### CSPI -/

/-- R496, R498: a transfer of at least one word ends with its words received and the select as the command left it. -/
theorem cspiDone_words {c m : Nat} {keep : Bool} (hr : d.cspiRun = some (c, m, keep)) (hm : 0 < m) (rx : List Word) :
    cspiDone d rx = raiseCtrl (setF (setB { d with
      cspiRun := none, cspiTx := d.cspiTx.drop m
      cspiRx := d.cspiRx ++ (List.range m).map (fun i => cspiWord d c (rx.getD i 0)) } F.CSPI_STAT.KEPT keep)
      F.CSPI_STAT.KSEL c) 0x1CC := by
  unfold cspiDone
  rw [hr]
  dsimp only
  rw [decide_eq_false hm.ne', Bool.false_and, Bool.not_false, Bool.and_true]

/-! ### PCIe requests -/

/-- R499: a request in BAR0 is carried out. -/
theorem pcieRequest_bar0 (hp : pcieOn d = true) (hd : getB d F.PCIE_STAT.D3 = false) (ha : a < 0x20000000)
    (f : Device → Device) : pcieRequest d a f = f d := by
  unfold pcieRequest
  rw [if_neg (not_not_intro hp), if_neg (by simp [hd]; omega)]

/-- A write of one whole word reaches its target as one access. -/
theorem pcieWord_whole (d : Device) (a : Nat) (v : Word) : pcieWord d a v 15 = busWrite d .pcie a 4 v.toNat := by
  have hruns : beRuns 15 = [(0, 4)] := by decide
  unfold pcieWord
  rw [hruns, List.foldl_cons, List.foldl_nil, Nat.mul_zero, Nat.pow_zero, Nat.div_one, Nat.add_zero]

theorem pcieWrite_word (hp : pcieOn d = true) (hd : getB d F.PCIE_STAT.D3 = false) {addr : Word}
    (ha : addr.toNat < 0x20000000) (h4 : addr.toNat % 4 = 0) (v : Word) :
    pcieWrite d addr [(v, 15)] = busWrite d .pcie addr.toNat 4 v.toNat := by
  have haligned : addr.toNat / 4 * 4 = addr.toNat := by omega
  have hfull : pcieNarrow addr.toNat [(v, 15)] = false := by simp [pcieNarrow]
  unfold pcieWrite
  rw [haligned, pcieRequest_bar0 hp hd ha, hfull]
  exact pcieWord_whole d _ v

/-- R32: both words of a W register, written by one request, are one access. -/
theorem pcieWrite_wide (hp : pcieOn d = true) (hd : getB d F.PCIE_STAT.D3 = false) {addr : Word}
    (ha : addr.toNat < 0x20000000) (h8 : addr.toNat % 8 = 0) (hc : coversWide d addr.toNat = true) (v w : Word) :
    pcieWrite d addr [(v, 15), (w, 15)] = busWrite d .pcie addr.toNat 8 (v.toNat + w.toNat * 2 ^ 32) := by
  have haligned : addr.toNat / 4 * 4 = addr.toNat := by omega
  have hfull : pcieNarrow addr.toNat [(v, 15), (w, 15)] = false := by simp [pcieNarrow]
  unfold pcieWrite
  rw [haligned, pcieRequest_bar0 hp hd ha, if_neg (ne_true_of_eq_false hfull)]
  exact if_pos ⟨h8, hc⟩

theorem pcieRead_word (hp : pcieOn d = true) (hd : getB d F.PCIE_STAT.D3 = false) {addr : Word}
    (ha : addr.toNat < 0x20000000) (h4 : addr.toNat % 4 = 0) {r : Device × Nat × Tag}
    (hr : busGet (touch { d with pcieCpl := [] } addr.toNat) .pcie addr.toNat 4 = r) (hc : r.1.pcieCpl = []) :
    pcieRead d addr 4 = entryCheck { r.1 with pcieCpl := [BitVec.ofNat 32 r.2.1] } := by
  have haligned : addr.toNat / 4 * 4 = addr.toNat := by omega
  have hone : (addr.toNat % 4 + 4 + 3) / 4 = 1 := by omega
  unfold pcieRead
  rw [pcieRequest_bar0 hp hd ha]
  dsimp only
  rw [if_neg (fun h => absurd h.2.1 (by decide)), haligned, hone, pcieReadWords]
  dsimp only
  rw [hr, hc, List.nil_append, pcieReadWords]

/-! ### The link and the configuration space -/

theorem pcieLink_taken (hp : pcieOn d = true) {up : Bool} {speed width ps : BitVec 2} {e : Device}
    (he : setF (setF (setF (setB d F.PCIE_STAT.LINKUP up) F.PCIE_STAT.SPEED speed.toNat)
      F.PCIE_STAT.WIDTH width.toNat) F.PCIE_STAT.PSTATE ps.toNat = e) :
    pcieLink d up speed width ps = entryCheck (if getB d F.PCIE_STAT.LINKUP = up ∧
      getF d F.PCIE_STAT.SPEED = speed.toNat ∧ getF d F.PCIE_STAT.WIDTH = width.toNat then e else raiseEv e 0x1CE) := by
  unfold pcieLink
  rw [if_neg (not_not_intro hp)]
  simp only [he, decide_eq_true_eq]

/-- R502: D3hot gates the domain of the endpoint; D0 asks for it. -/
theorem pcieConfig_power (hp : pcieOn d = true) (d3 : Bool) : pcieConfig d (.power d3) =
    if d3 then setDomain (setB d F.PCIE_STAT.D3 d3) 11 1 else domainWake (setB d F.PCIE_STAT.D3 d3) 11 :=
  if_neg (not_not_intro hp)

theorem pcieConfig_d3 (hp : pcieOn d = true) :
    pcieConfig d (.power true) = setDomain (setB d F.PCIE_STAT.D3 true) 11 1 := by
  rw [pcieConfig_power hp, if_pos rfl]

theorem pcieConfig_d0 (hp : pcieOn d = true) :
    pcieConfig d (.power false) = domainWake (setB d F.PCIE_STAT.D3 false) 11 := by
  rw [pcieConfig_power hp, if_neg Bool.false_ne_true]

/-- R499: the word at offset 0x10 is BAR0. -/
theorem pcieConfigRead_bar0 (d : Device) : (pcieConfigRead d 0x10).pcieCpl = [BitVec.ofNat 32 d.pcieBar] := rfl

/-! ### GPIO -/

/-- R507: a change of one pad's level is the level it has, and leaves every other pad's. -/
theorem gpioChange_getLsbD (d : Device) (k j : Fin 32) (b : Bool) :
    (gpioChange d k b).gpioPads.getLsbD j.val = if j = k then b else d.gpioPads.getLsbD j.val := by
  have hj : j.val < 32 := j.isLt
  have hbit : (gpioChange d k b).gpioPads.getLsbD j.val = (withBits d.gpioPads.toNat k.val 1 b.toNat).testBit j.val := by
    unfold gpioChange
    rw [BitVec.getLsbD_ofNat, decide_eq_true hj, Bool.true_and]
  rw [hbit, testBit_withBits]
  by_cases hjk : j = k
  · subst hjk
    rw [if_neg (Nat.lt_irrefl _), if_pos (Nat.lt_succ_self _), if_pos rfl, Nat.sub_self]
    cases b <;> rfl
  · have hne : j.val ≠ k.val := fun h => hjk (Fin.ext h)
    rw [if_neg hjk]
    by_cases hlt : j.val < k.val
    · rw [if_pos hlt]
      rfl
    · rw [if_neg hlt, if_neg (by omega)]
      rfl

end

/-- Settles O49, a clause per row: the row's effect in the case its hypotheses name. -/
theorem portRowsComplete : Obligations.PortRowsComplete := by
  unfold Obligations.PortRowsComplete
  intro s c m keep rx addr v w up speed width ps k b e o
  refine ⟨fun h => ⟨fun ha hr hm => ?cspi, fun hp => ⟨fun hd ha hbar h4 => ⟨?word, fun h8 hc => ?wide, fun hc => ?read⟩,
    ?unsupported, ?poisoned, ?link, ?d3, ?d0, ?msix, ?bar, ?payload, ?config⟩⟩, ?gpio⟩
  case cspi => exact comp_bus (f := (cspiDone · rx)) (by simp [mayReach, h, ha]) (cspiDone_words hr hm rx)
  case word => exact completes_access (by simp [mayReach, h, ha]) rfl (pcieWrite_word hp hd hbar h4 v)
  case wide => exact completes_access (by simp [mayReach, h, ha]) rfl (pcieWrite_wide hp hd hbar h8 hc v w)
  case read => exact completes_access (by simp [mayReach, h, ha]) rfl (pcieRead_word hp hd hbar h4 rfl hc)
  case unsupported => exact device_completes (f := pcieUnsupported) h rfl (if_pos hp)
  case poisoned => exact device_completes (f := pciePoisoned) h rfl (if_pos hp)
  case link => exact device_completes (f := (pcieLink · up speed width ps)) h rfl (pcieLink_taken hp rfl)
  case d3 => exact device_completes (f := (pcieConfig · (.power true))) h rfl (pcieConfig_d3 hp)
  case d0 => exact device_completes (f := (pcieConfig · (.power false))) h rfl (pcieConfig_d0 hp)
  case msix => exact device_completes (f := (pcieConfig · (.msix b e))) h rfl (if_neg (not_not_intro hp))
  case bar => exact device_completes (f := (pcieConfig · (.bar0 v))) h rfl (if_neg (not_not_intro hp))
  case payload => exact device_completes (f := (pcieConfig · (.payload b))) h rfl (if_neg (not_not_intro hp))
  case config =>
    have hread : pcieConfig s.dev (.read o) = pcieConfigRead s.dev (o.toNat / 4 * 4) := if_neg (not_not_intro hp)
    refine ⟨_, device_completes (f := (pcieConfig · (.read o))) h rfl hread, rfl, fun ho => ?_⟩
    rw [ho]
    exact pcieConfigRead_bar0 s.dev
  case gpio => exact ⟨_, comp_pins (f := (gpioChange · k b)) rfl, fun j => gpioChange_getLsbD s.dev k j b⟩

end Sys2Proof.Machine
end

section
/-! PROOFS. Register writes of the power controller, of live service, of the flash, of the partition and of CSPI (R408, R409,
R414, R429, R432, R472, R477, R479 to R483, R495 to R498). -/

namespace Sys2Proof.Machine

/-! ### The registers' rows and blocks -/

theorem row_PWR_VOTE : ∀ k : Fin 32, regRow (Adr.PWR_VOTE k.val) = some (rowsPWR[7], false) := by decide

theorem block_PWR_VOTE (k : Fin 32) : Adr.PWR_VOTE k.val / 0x10000 = 0x1C03 := by
  unfold Adr.PWR_VOTE
  omega

theorem aonReg_PWR_VOTE (k : Fin 32) : aonReg (Adr.PWR_VOTE k.val) = false := by
  unfold aonReg
  rw [decide_eq_false_iff_not]
  simp only [Adr.PWR_VOTE, Adr.TIME_AONQ]
  omega

section
variable {c : Instr} {s : State} {q : Req} {a : Nat} {e : Device}

/-- A command that writes one register of SYS, BOOT, PWR or SPI, which the part has, completes with what its rule leaves. -/
theorem fixedReg_completes {v : Word} (hx : exec c s = onAccess s (.write q a 4 v.toNat)) (h : mayReach s.dev = true)
    (hb : a / 0x10000 = 0x1C00 ∨ a / 0x10000 = 0x1C01 ∨ a / 0x10000 = 0x1C03 ∨ a / 0x10000 = 0x1C0E)
    (hs : subAbsent s.dev a = false) (hr : ∃ r, regRow a = some (r, false) ∧ r.wide = false) (hn : aonReg a = false)
    (he : ∀ r, applyReg (found s.dev a) q a r v = e) : completes c s (written e q a) :=
  plainReg_completes hx h (regs_addr (by omega) (by omega)) hs hr (mediaReg_block (by omega) (by omega)) hn he

end

section
variable {d : Device} {q : Req} {a v n b : Nat}

/-! ### The power controller (R408, R409, R414, R429, R432) -/

theorem applyReg_PWR_DVFSREQ (d : Device) (q : Req) (r : RegRow) (v : Word) :
    applyReg d q Adr.PWR_DVFSREQ r v = dvfsReqWrite d q v.toNat := rfl

/-- R432: a request the Coach does not hold back, and that passes its checks, is carried out. -/
theorem dvfsRequest_accepted {kind : Nat} (hc : Regions.eff d.regions 0xA3 ≠ .running ∨ getF d F.COACH_CTL.MODE = 1)
    (hn : dvfsCode d kind n = none) : dvfsRequest d q kind n = dvfsRun (dvfsSteps d kind n) d := by
  unfold dvfsRequest
  rw [if_neg (fun h => hc.elim (fun hr => hr h.1) h.2), hn]

/-- R432: the word of a request names its kind and level, and asks for the request. -/
theorem dvfsReqWrite_request {kind l : Nat} (hk : kind < 3) (hl : l < 4) {e : Device}
    (he : setF (setF d F.PWR_DVFSREQ.LEVEL (l + 16 * kind + 256)) F.PWR_DVFSREQ.KIND ((l + 16 * kind + 256) / 16) = e)
    (hkind : getF e F.PWR_DVFSREQ.KIND = kind) :
    dvfsReqWrite d q (l + 16 * kind + 256) = dvfsRequest e q kind l := by
  have hlegal : (l + 16 * kind + 256) / 16 % 4 ≠ 3 := by omega
  have hgo : (l + 16 * kind + 256) / 2 ^ 8 % 2 = 1 := by omega
  have hlevel : (l + 16 * kind + 256) % 4 = l := by omega
  unfold dvfsReqWrite setIf
  rw [decide_eq_true hlegal, if_pos rfl, he]
  dsimp only
  rw [if_pos hgo, hkind, hlevel]

theorem applyReg_PWR_MODE (d : Device) (q : Req) (r : RegRow) (v : Word) :
    applyReg d q Adr.PWR_MODE r v = pwrMode d v.toNat := rfl

theorem applyReg_PWR_CTL (d : Device) (q : Req) (r : RegRow) (v : Word) :
    applyReg d q Adr.PWR_CTL r v = pwrCtl d v.toNat := rfl

theorem applyReg_PWR_VOTE (d : Device) (q : Req) (k : Fin 32) (r : RegRow) (v : Word) :
    applyReg d q (Adr.PWR_VOTE k.val) r v = pwrVote d k.val v.toNat := by
  have ho : Adr.PWR_VOTE k.val % 0x10000 = 0x80 + 4 * k.val := by unfold Adr.PWR_VOTE; omega
  have hk : (0x80 + 4 * k.val - 0x80) / 4 = k.val := by omega
  simp only [applyReg, block_PWR_VOTE]
  unfold pwrApply
  simp only [ho]
  rw [if_neg (by omega), if_neg (by omega), if_pos (by omega), hk]

/-- R414: ENTER begins the entry that no voter holds off, in a device that neither enters nor leaves a state. -/
theorem pwrCtl_enters {e : Device} (hg : v / 4 % 2 = 1)
    (he : setF (setF d F.PWR_CTL.TARGET v) F.PWR_CTL.MS (v / 2 ^ 12) = e) (ht : getF e F.PWR_CTL.TARGET ≠ 0)
    (hn : e.entry = none) (hx : e.exiting = false) (ha : awake e = true)
    (hh : holdersOf e (entryMask (getF e F.PWR_CTL.TARGET)) = []) : pwrCtl d v = entryBegin e (getF e F.PWR_CTL.TARGET) := by
  unfold pwrCtl
  rw [he]
  dsimp only
  rw [if_pos hg]
  unfold pwrEnter
  dsimp only
  rw [if_neg ht, if_neg (by simp [hn, hx, ha]), hh]

/-! ### Live service (R472, R477, R479) -/

/-- What an accepted request of SUB_CMD shows: the command, the phase, and the kickoff it waits for (R472, R473). -/
def armShown (d : Device) (v : Nat) (late : Bool) (ko : Nat) : Device :=
  setF (setB (setF (setReg (setReg64 d Adr.SUB_CMD v) Adr.SUB_STAT 0) F.SUB_STAT.PHASE 1) F.SUB_STAT.LATE late)
    F.SUB_SNAP.KICKOFF ko

theorem armShown_proc (d : Device) (v : Nat) (late : Bool) (ko : Nat) : (armShown d v late ko).toDevProc = d.toDevProc := by
  simp only [armShown, setF_proc, setB_proc, setReg_proc, setReg64_proc]

/-- The roles' holders stand in registers of their own. -/
theorem holder_armShown (d : Device) (v : Nat) (late : Bool) (ko n : Nat) : holder (armShown d v late ko) n = holder d n := by
  have hreg : reg (armShown d v late ko) (Adr.ENG_HOLDER n) = reg d (Adr.ENG_HOLDER n) := by
    have hcmd : Adr.ENG_HOLDER n ≠ Adr.SUB_CMD ∧ Adr.ENG_HOLDER n ≠ Adr.SUB_CMD + 4 := by
      unfold Adr.ENG_HOLDER Adr.SUB_CMD
      omega
    have hstat : Adr.ENG_HOLDER n ≠ Adr.SUB_STAT := by unfold Adr.ENG_HOLDER Adr.SUB_STAT; omega
    have hsnap : Adr.ENG_HOLDER n ≠ Adr.SUB_SNAP := by unfold Adr.ENG_HOLDER Adr.SUB_SNAP; omega
    obtain ⟨hlow, hhigh⟩ := hcmd
    unfold armShown setB
    rw [reg_setF_other _ _ _ _ (mt List.mem_singleton.1 hsnap), reg_setF_other _ _ _ _ (mt List.mem_singleton.1 hstat),
      reg_setF_other _ _ _ _ (mt List.mem_singleton.1 hstat), reg_setReg_other _ _ hstat,
      reg_setReg64_other _ _ hlow hhigh]
  have hget : ∀ e : Device, getF e (F.ENG_HOLDER.PHYS n) = bitsOf (reg e (Adr.ENG_HOLDER n)).toNat 0 6 := fun _ => rfl
  simp only [holder, hget, hreg]

theorem setSub_sub (d : Device) (x : Option Subst) : (setSub d x).sub = x := rfl

theorem setSub_ag (d : Device) (x : Option Subst) : (setSub d x).ag = d.ag := rfl

/-- R472, R473: an accepted request arms the substitution it names, and touches no processor. -/
theorem subArm_accepted {addr : Nat} (hc : subCode d (v % 2 ^ 6) (v / 2 ^ 8 % 2 ^ 6) = none) :
    (subArm d q addr v).sub = some ⟨v % 2 ^ 6, v / 2 ^ 8 % 2 ^ 6, holder d (v % 2 ^ 6), holder d (v / 2 ^ 8 % 2 ^ 6),
      targetOf d (rgnDomain d (v % 2 ^ 6)) (decide (v / 2 ^ 14 % 2 = 1)) (v / 2 ^ 32), decide (v / 2 ^ 15 % 2 = 1),
      v / 2 ^ 16 % 2 ^ 16, 0, false, false⟩ ∧ (subArm d q addr v).ag = d.ag := by
  have harm : ∃ w late ko, subArm d q addr v = setSub (armShown d w late ko) (some ⟨v % 2 ^ 6, v / 2 ^ 8 % 2 ^ 6,
      holder (armShown d w late ko) (v % 2 ^ 6), holder (armShown d w late ko) (v / 2 ^ 8 % 2 ^ 6),
      targetOf d (rgnDomain d (v % 2 ^ 6)) (decide (v / 2 ^ 14 % 2 = 1)) (v / 2 ^ 32), decide (v / 2 ^ 15 % 2 = 1),
      v / 2 ^ 16 % 2 ^ 16, 0, false, false⟩) := by
    unfold subArm
    dsimp only
    rw [hc]
    exact ⟨_, _, _, rfl⟩
  obtain ⟨w, late, ko, harm⟩ := harm
  rw [harm, holder_armShown, holder_armShown]
  exact ⟨setSub_sub _ _, (setSub_ag _ _).trans (congrArg DevProc.ag (armShown_proc d w late ko))⟩

theorem applyReg_SUB_CTL (d : Device) (q : Req) (r : RegRow) (v : Word) :
    applyReg d q Adr.SUB_CTL r v = subCtl d q v.toNat := rfl

/-- What a write of SUB_CTL stores. -/
def subNamed (d : Device) (v : Nat) : Device := setF (setF d F.SUB_CTL.PHYS (v / 2 ^ 8)) F.SUB_CTL.BROLE (v / 2 ^ 16)

/-- R477: ABORT alone cancels the substitution in progress. -/
theorem subCtl_aborts {x : Subst} (ha : v % 2 = 1) (hr : v / 2 % 2 = 0) (hs : (subNamed d v).sub = some x) :
    subCtl d q v = subCancel (subNamed d v) x := by
  unfold subCtl
  dsimp only
  rw [if_neg (by omega), if_pos ha, if_neg (by omega)]
  change subAbort (subNamed d v) = _
  unfold subAbort
  rw [hs]

/-- Storing SUB_CTL changes no field of another register. -/
theorem getB_subNamed (d : Device) (v : Nat) (f : Fld) (hl : f.lo + f.len ≤ 32) (ha : f.addr ≠ Adr.SUB_CTL) :
    getB (subNamed d v) f = getB d f := by
  have happart : ∀ g : Fld, g.addr = Adr.SUB_CTL → g.lo + g.len ≤ 32 → fldApart g f := by
    intro g hg hw
    refine .inl fun w hm hf => ha ?_
    unfold fldWords at hm hf
    rw [if_pos hw, List.mem_singleton] at hm
    rw [if_pos hl, List.mem_singleton] at hf
    rw [← hf, hm, hg]
  unfold getB subNamed
  rw [getF_setF_apart _ _ _ _ (by omega) (happart _ rfl (by decide)),
    getF_setF_apart _ _ _ _ (by omega) (happart _ rfl (by decide))]

/-- R479: READMIT alone queues a fenced engine for a vacant bench role. -/
theorem subCtl_readmits {p : Fin 68} (hr : v / 2 % 2 = 1) (ha : v % 2 = 0) (hp : (⟨v / 2 ^ 8 % 64, by omega⟩ : Fin 68) = p)
    (hb : v / 2 ^ 16 % 64 = b) (hf : (ag (subNamed d v) p).fenced = true)
    (hv : getB (subNamed d v) (F.ENG_HOLDER.VACANT b) = true) (hbench : getB (subNamed d v) (F.S_ENG.CTL.BENCH b) = true) :
    subCtl d q v = { subNamed d v with readmits := (subNamed d v).readmits ++ [(p, b)] } := by
  have hag : ag (subNamed d v) p = ag d p := ag_congr ((setF_proc _ _ _).trans (setF_proc _ _ _)) p
  have hb64 : b < 64 := by omega
  rw [getB_subNamed _ _ _ (Nat.le_of_ble_eq_true rfl) (by unfold Adr.SUB_CTL F.ENG_HOLDER.VACANT; dsimp only; omega)] at hv
  rw [getB_subNamed _ _ _ (Nat.le_of_ble_eq_true rfl) (by unfold Adr.SUB_CTL F.S_ENG.CTL.BENCH; dsimp only; omega)] at hbench
  rw [hag] at hf
  have hgood : readmitBad d p b = false := by simp [readmitBad, hf, hv, hbench]
  unfold subCtl
  dsimp only
  rw [hp, hb, if_neg (by simp [hgood]), if_pos hr, if_neg (by omega)]
  rfl

/-! ### The flash and live activation (R480, R481) -/

theorem applyReg_FSPI_XCMD (d : Device) (q : Req) (r : RegRow) (v : Word) :
    applyReg d q Adr.FSPI_XCMD r v = fspiXcmd d q v.toNat := rfl

theorem fspiXcmd_go (hg : v / 2 ^ 31 % 2 = 1) (hc : fspiCode d v = none) :
    fspiXcmd d q v = setB (setReg d Adr.FSPI_XCMD (BitVec.ofNat 32 (v % 2 ^ 26))) F.FSPI_XSTAT.BUSY true := by
  unfold fspiXcmd
  rw [if_neg (by omega), hc]

theorem applyReg_BOOT_ACT (d : Device) (q : Req) (r : RegRow) (v : Word) :
    applyReg d q Adr.BOOT_ACT r v = bootAct d q v.toNat := rfl

/-- R481: GO starts the first pass over the slot it names, while nothing else is loaded. -/
theorem bootAct_go (hg : v % 2 = 1) (hb : getB d F.LDR_STAT.BUSY = false) (hp : 2 ≤ getF d F.BOOT_STAT.PHASE)
    (hl : d.live = none) : bootAct d q v =
      setF (setF (setF { setF (setF d F.BOOT_ACT.CORES (v / 2)) F.BOOT_ACT.SLOT (v / 4) with
        live := some (SlotRd.start (v / 4 % 2) ⟨0, 0, 0, 0⟩) } F.BOOT_ACTSTAT.PASS 1) F.BOOT_ACTSTAT.RESULT 0)
        F.BOOT_ACTSTAT.BLOCK 0 := by
  unfold bootAct
  rw [if_neg (by simp [hb, hl]; omega)]
  exact if_pos hg

/-! ### The secure partition (R482, R483) -/

/-- A word of the partition written by one access, in terms of the partition's own write. -/
theorem busWrite_secure {o : Nat} (ho : o < 0x10000) (v : Word) : busWrite d q (0x1E000000 + o) 4 v.toNat =
    written (partWrite (found d (0x1E000000 + o)) q o v) q (0x1E000000 + o) := by
  have ha : areaOf (0x1E000000 + o) = .secure := by
    unfold areaOf
    grind
  have hview : delayView (0x1E000000 + o) = false := by
    unfold delayView
    rw [decide_eq_false_iff_not]
    omega
  have hoff : (0x1E000000 + o) % 0x10000 = o := by omega
  rw [busWrite_eq]
  unfold busPut
  rw [settle_other _ hview]
  dsimp only
  rw [if_neg (by decide), BitVec.ofNat_toNat, BitVec.setWidth_eq]
  unfold writeWord absentAt groupEmpty
  simp only [ha, hoff, if_neg Bool.false_ne_true, ne_eq, not_true_eq_false, and_false, if_false]

theorem partWrite_listed {o : Nat} (hw : d.wiping = false) (hl : d.lc = 1) (hp : partListed o = true) (v : Word) :
    partWrite d q o v = { d with part := sparsePut wordZero d.part (o / 4) v } := by
  have ho : o ≠ 4 := by
    rintro rfl
    exact absurd hp (by decide)
  unfold partWrite
  rw [if_neg ho, if_neg (by simp [hw, hl, hp])]

/-- R483: a step of the life cycle with its key; every step but the first wipes the partition. -/
theorem lcAdvance_step (hw : d.wiping = false) (hk : v / 2 ^ 16 = 0x4C43) (ht : v % 2 ^ 16 = d.lc + 1)
    (hmax : v % 2 ^ 16 ≤ 3) : lcAdvance d q v = if d.lc = 1 then { d with lc := 2 }
      else { d with lc := d.lc + 1, part := [], wiping := true } := by
  unfold lcAdvance
  dsimp only
  rw [if_neg (by simp only [hw, Bool.false_eq_true, false_or]; omega), ht]
  by_cases h1 : d.lc = 1
  · rw [if_pos (by omega), if_pos h1, h1]
  · rw [if_neg (by omega), if_neg h1]
    rfl

/-! ### CSPI (R495 to R498) -/

theorem applyReg_CSPI_CMD (d : Device) (q : Req) (r : RegRow) (v : Word) :
    applyReg d q Adr.CSPI_CMD r v = cspiCmd d q v.toNat := rfl

/-- R495, R496: GO starts a transfer whose words the two FIFOs hold; it lets go of another device's select. -/
theorem cspiCmd_go {e : Device} (hg : v / 16 % 2 = 1) (hr : d.cspiRun = none) (hn : v / 2 ^ 8 % 128 = n) (h64 : n ≤ 64)
    (htx : n ≤ d.cspiTx.length) (hrx : n + d.cspiRx.length ≤ 64) (he : cspiFields d v = e) : cspiCmd d q v =
      { (if getB e F.CSPI_STAT.KEPT = true ∧ getF e F.CSPI_STAT.KSEL ≠ v % 8 then setB e F.CSPI_STAT.KEPT false else e) with
        cspiRun := some (v % 8, n, decide (v / 8 % 2 = 1)) } := by
  unfold cspiCmd
  dsimp only
  rw [if_neg (by omega), if_neg (not_not_intro hr), hn, if_neg (by omega), he]

theorem applyReg_CSPI_TX (d : Device) (q : Req) (r : RegRow) (v : Word) :
    applyReg d q Adr.CSPI_TX r v = cspiTxWrite d v.toNat := rfl

theorem cspiTxWrite_room (h : d.cspiTx.length < 64) (v : Word) :
    cspiTxWrite d v.toNat = { d with cspiTx := d.cspiTx ++ [v] } := by
  unfold cspiTxWrite
  rw [if_neg (Nat.not_le.2 h), BitVec.ofNat_toNat, BitVec.setWidth_eq]

/-- R498: a read of CSPI_RX returns the oldest word received and takes it. -/
theorem readReg_CSPI_RX {w : Word} {rx : List Word} (h : d.cspiRx = w :: rx) :
    readReg d q Adr.CSPI_RX = ({ d with cspiRx := rx }, w.toNat) := by
  have htakes : readTakes d Adr.CSPI_RX = { d with cspiRx := d.cspiRx.drop 1 } := rfl
  have hlive : liveWord d q Adr.CSPI_RX = some (d.cspiRx.headD 0).toNat := rfl
  rw [readReg_plain (r := rowsSPI[12]) d q rfl rfl, htakes, hlive, h]
  rfl

end

/-! ### The commands -/

section
variable {s : State} {q : Req} {c : Instr} {e : Device} {v : Word}

/-- A DVFS request of any kind completes with the steps of its request begun. -/
theorem dvfs_completes {kind : Nat} {l : BitVec 2} (hk : kind < 3)
    (hx : exec c s = onAccess s (.write q Adr.PWR_DVFSREQ 4 (l.toNat + 16 * kind + 256))) (h : mayReach s.dev = true)
    (he : setF (setF (found s.dev Adr.PWR_DVFSREQ) F.PWR_DVFSREQ.LEVEL (l.toNat + 16 * kind + 256)) F.PWR_DVFSREQ.KIND
      ((l.toNat + 16 * kind + 256) / 16) = e)
    (hc : Regions.eff e.regions 0xA3 ≠ .running ∨ getF e F.COACH_CTL.MODE = 1) (hkind : getF e F.PWR_DVFSREQ.KIND = kind)
    (hn : dvfsCode e kind l.toNat = none) :
    completes c s (written (dvfsRun (dvfsSteps e kind l.toNat) e) q Adr.PWR_DVFSREQ) := by
  have hl : l.toNat < 4 := l.isLt
  have hv : (BitVec.ofNat 32 (l.toNat + 16 * kind + 256)).toNat = l.toNat + 16 * kind + 256 := by
    rw [BitVec.toNat_ofNat]
    omega
  rw [← hv] at hx
  refine fixedReg_completes hx h (.inr (.inr (.inl (by decide)))) rfl ⟨_, rfl, rfl⟩ (by decide) (fun r => ?_)
  rw [applyReg_PWR_DVFSREQ, hv, dvfsReqWrite_request hk hl he hkind, dvfsRequest_accepted hc hn]

theorem subCtl_completes (hx : exec c s = onAccess s (.write q Adr.SUB_CTL 4 v.toNat)) (h : mayReach s.dev = true)
    (he : subCtl (found s.dev Adr.SUB_CTL) q v.toNat = e) : completes c s (written e q Adr.SUB_CTL) :=
  fixedReg_completes hx h (.inl (by decide)) rfl ⟨_, rfl, rfl⟩ (by decide) (fun r => (applyReg_SUB_CTL _ q r v).trans he)

/-- A command that writes a word of the partition completes with what the partition's rule leaves. -/
theorem partWrite_completes {o : Nat} (ho : o < 0x10000) (hx : exec c s = onAccess s (.write q (0x1E000000 + o) 4 v.toNat))
    (h : mayReach s.dev = true) (he : partWrite (found s.dev (0x1E000000 + o)) q o v = e) :
    completes c s (written e q (0x1E000000 + o)) :=
  completes_access h hx ((busWrite_secure ho v).trans (by rw [he]))

end

/-- Settles O56, a clause per command: the access reaches the register's own rule, whose accepting case the hypotheses name. -/
theorem powerServiceAndPortRegistersComplete : Obligations.PowerServiceAndPortRegistersComplete := by
  unfold Obligations.PowerServiceAndPortRegistersComplete
  intro s q v y l k o x w rx h
  refine ⟨fun kind hk hc hkind hn => ?dvfs, ?mode, fun hk => ?vote, fun hg ht hn hx ha hh => ?enter, ?pads, fun hc => ?arm,
    ⟨fun ha hr hs => ?abort, fun hr ha hf hv hb => ?readmit⟩, fun hg hc => ?flash, fun hg hb hp hl => ?activate,
    fun hw hl hp => ?partition, fun hw hk ht hmax => ?advance, fun hg hr h64 htx hrx => ?transfer, fun hroom => ?transmit,
    fun hrx => ?receive⟩
  case dvfs =>
    obtain rfl | rfl | rfl : kind = 0 ∨ kind = 1 ∨ kind = 2 := by omega
    · exact dvfs_completes (c := .dvfsOppRequest q l) hk rfl h rfl hc hkind hn
    · exact dvfs_completes (c := .dvfsVoltageRequest q l) hk rfl h rfl hc hkind hn
    · exact dvfs_completes (c := .dvfsFrequencyRequest q l) hk rfl h rfl hc hkind hn
  case mode =>
    exact fixedReg_completes rfl h (.inr (.inr (.inl (by decide)))) rfl ⟨_, rfl, rfl⟩ (by decide)
      (fun r => applyReg_PWR_MODE _ q r v)
  case vote =>
    have hb := block_PWR_VOTE k
    exact fixedReg_completes rfl h (.inr (.inr (.inl hb))) (by simp only [subAbsent, hb]) ⟨_, row_PWR_VOTE k, rfl⟩
      (aonReg_PWR_VOTE k) (fun r => (applyReg_PWR_VOTE _ q k r v).trans (if_pos hk))
  case enter =>
    exact fixedReg_completes rfl h (.inr (.inr (.inl (by decide)))) rfl ⟨_, rfl, rfl⟩ (by decide)
      (fun r => (applyReg_PWR_CTL _ q r v).trans (pwrCtl_enters ((getLsbD_iff v 2).1 hg) rfl ht hn hx ha hh))
  case pads =>
    exact pair_completes rfl h (regs_addr (by decide) (by decide)) (regs_addr (by decide) (by decide)) rfl rfl
      ⟨rowsPWR[13], rfl, rfl, rfl⟩ (by decide) (by decide) (fun r => rfl)
  case arm =>
    obtain ⟨hsub, hag⟩ := subArm_accepted (q := q) (addr := lastAt q Adr.SUB_CMD) hc
    rw [← getLsbD_eq_digit, ← getLsbD_eq_digit] at hsub
    refine ⟨_, _, pair_completes rfl h (regs_addr (by decide) (by decide)) (regs_addr (by decide) (by decide)) rfl rfl
      ⟨rowsSYS[16], rfl, rfl, rfl⟩ (by decide) (by decide) (fun r => rfl), hsub, rfl, hag⟩
  case abort =>
    have habort : v.toNat % 2 = 1 := by simpa using (getLsbD_iff v 0).1 ha
    exact subCtl_completes rfl h (subCtl_aborts habort (digit_zero_of_getLsbD (i := 1) hr) hs)
  case readmit =>
    have habort : v.toNat % 2 = 0 := by simpa using digit_zero_of_getLsbD (i := 0) ha
    exact subCtl_completes rfl h (subCtl_readmits ((getLsbD_iff v 1).1 hr) habort rfl rfl hf hv hb)
  case flash =>
    exact fixedReg_completes rfl h (.inr (.inr (.inr (by decide)))) rfl ⟨_, rfl, rfl⟩ (by decide)
      (fun r => (applyReg_FSPI_XCMD _ q r v).trans (fspiXcmd_go ((getLsbD_iff v 31).1 hg) hc))
  case activate =>
    have hgo : v.toNat % 2 = 1 := by simpa using (getLsbD_iff v 0).1 hg
    exact fixedReg_completes rfl h (.inr (.inl (by decide))) rfl ⟨_, rfl, rfl⟩ (by decide)
      (fun r => (applyReg_BOOT_ACT _ q r v).trans (bootAct_go hgo hb hp hl))
  case partition =>
    have ho : o.toNat / 4 * 4 < 0x10000 := by omega
    have hword : o.toNat / 4 * 4 / 4 = o.toNat / 4 := by omega
    have hput := partWrite_listed (q := q) hw hl hp v
    rw [hword] at hput
    exact partWrite_completes ho rfl h hput
  case advance =>
    exact partWrite_completes (o := 4) (by decide) rfl h ((if_pos rfl).trans (lcAdvance_step hw hk ht hmax))
  case transfer =>
    have hgo := cspiCmd_go (q := q) ((getLsbD_iff v 4).1 hg) hr rfl h64 htx hrx rfl
    have hkeep : decide (v.toNat / 8 % 2 = 1) = v.getLsbD 3 := (getLsbD_eq_digit v 3).symm
    rw [hkeep] at hgo
    exact fixedReg_completes rfl h (.inr (.inr (.inr (by decide)))) rfl ⟨_, rfl, rfl⟩ (by decide)
      (fun r => (applyReg_CSPI_CMD _ q r v).trans hgo)
  case transmit =>
    exact fixedReg_completes rfl h (.inr (.inr (.inr (by decide)))) rfl ⟨_, rfl, rfl⟩ (by decide)
      (fun r => (applyReg_CSPI_TX _ q r v).trans (cspiTxWrite_room hroom v))
  case receive =>
    have hc := completes_access (c := .cspiRxRead q) h rfl (busRead_reg (q := q) (regs_addr (by decide) (by decide))
      (by decide) rfl (readReg_CSPI_RX hrx))
    rwa [Nat.mod_eq_of_lt w.isLt] at hc

end Sys2Proof.Machine
end
